-- ==== Sys2Proof/Word.lean ====
section
/-! DEFINITION. The word types of the model and their plainest arithmetic: bytes, little-endian fields of a word,
and the bytes of a field (R43, R372: multi-byte fields are little-endian). -/

namespace Sys2Proof

/-- A byte. -/
abbrev Byte := BitVec 8

/-- One 64-byte DRAM burst (R348), byte 0 lowest. -/
abbrev Burst := BitVec 512

/-- The 4,096 data bytes of a sector (R310), byte 0 lowest. -/
abbrev SectorData := BitVec 32768

/-- The 4,128-byte payload of a codeword (R310), byte 0 lowest. -/
abbrev Payload := BitVec 33024

/-- The little-endian field of `len` bytes at byte offset `off` of a word, as a number. -/
def fieldLE {w : Nat} (x : BitVec w) (off len : Nat) : Nat :=
  x.toNat / 2 ^ (8 * off) % 2 ^ (8 * len)

/-- The `len` little-endian bytes of a number. -/
def bytesLE : Nat → Nat → List Byte
  | 0, _ => []
  | len + 1, v => BitVec.ofNat 8 v :: bytesLE len (v / 256)

/-- The number that a list of little-endian bytes spells. -/
def numLE : List Byte → Nat
  | [] => 0
  | b :: bs => b.toNat + 256 * numLE bs

/-- The first byte, counted from `off`, of a run of `len` reserved bytes that is not zero (R565). -/
def firstNonzero {w : Nat} (x : BitVec w) (off : Nat) : Nat → Option Nat
  | 0 => none
  | len + 1 => if fieldLE x off 1 = 0 then firstNonzero x (off + 1) len else some off

end Sys2Proof
end

