-- ==== Sys2Proof/Syntax.lean ====
section
/-! DEFINITION. The commands of the Thrumya: one constructor of `Instr` for each row of spec/opcode_table.json, in the
table's order. Operands carry what the row's sender or the outside world gives: the fields of a command, a measured
value, the device time `t` (in µs) of a timer event, or how a medium, a key or a signature answered. -/

namespace Sys2Proof

/-- A host port (R18). -/
inductive Port where
  | a | b
  deriving DecidableEq, Repr, Inhabited

/-- A PCIe function: its port and VF number, 0 for the physical function (R263). -/
structure FnId where
  port : Port
  vf : Nat
  deriving DecidableEq, Repr, Inhabited

/-- The levels on the strap balls (R546). -/
structure Straps where
  mgrSel : BitVec 2
  memmapSel : BitVec 2
  portJoin : Bool
  flioSel : Bool
  miSel : Bool
  testEn : Bool
  deriving DecidableEq, Repr, Inhabited

/-- A die, by channel and position (R71). -/
structure DieId where
  ch : Nat
  pos : Nat
  deriving DecidableEq, Repr, Inhabited

/-- One copy of a die's parameter page, as far as R70 compares it: whether its CRC is correct, page and spare size in bytes, pages per
plane block, planes, bits per cell and blocks per plane. -/
structure ParamPage where
  crcOk : Bool
  page : Nat
  spare : Nat
  pages : Nat
  planes : Nat
  bits : Nat
  blocks : Nat
  deriving DecidableEq, Repr, Inhabited

/-- What a die that does not answer as the drive's own dies do shows at discovery (R70): not ready after RESET or no ONFI signature to
READ ID; or the copies of its parameter page in order, whether the interface trains at 3,600 MT/s after SET FEATURES, and whether its
factory-marked bad units leave it fewer than 64 spares (R77). -/
inductive DieAnswer where
  | missing
  | answers (copies : List ParamPage) (trains few : Bool)
  deriving DecidableEq, Repr, Inhabited

/-- A step of DRAM training that fails on a die of a channel (R350, R351): the step by its place in R350 (0 command bus training,
1 WCK-to-CK levelling, 2 read DQ training, 3 write DQ training), the rate (0, 1, 2 for 8,533, 7,500, 6,400 MT/s), and whether
the failure is a passing window narrower than 8 delay taps. -/
structure TrainFail where
  ch : Nat
  die : Nat
  step : Nat
  rate : Nat
  narrow : Bool
  deriving DecidableEq, Repr, Inhabited

/-- What the hardware finds at one power-on or brown-out recovery: straps, VIO_FL, the channel and die whose mode registers
disagree or name a type or width other than LPDDR5X x16, the training steps that fail, dies that answer otherwise than the
drive's type, the verdict of R390 on each twin, and what each diode input is found to hold (R479). -/
structure BootEnv where
  straps : Straps
  vioFlMv : Nat
  mrBad : Option (Nat × Nat)
  trainBad : List TrainFail
  dies : List (DieId × DieAnswer)
  verdictA : Nat
  verdictB : Nat
  diodes : BitVec 16
  diodeFaults : BitVec 16
  deriving DecidableEq, Repr, Inhabited

/-- How the world answers a mailbox command: whether its Hem program passes (R382), whether the host answers its
buffer accesses (R44), the bytes of its input buffer, the key-encryption key and the key that its WRAPPED field is the wrap of
(R328, R331), whether a signature or seal verifies (R288, R528), and the verdict of R390 on an image. -/
structure MbxEnv where
  hemOk : Bool
  bufOk : Bool
  buf : List Byte
  unwrap : Option (Nat × BitVec 256)
  sigOk : Bool
  verdict : Nat
  deriving DecidableEq, Repr, Inhabited

/-- One mailbox command as the host submits it: the slot it is written to on a port's BAR2, and the slot's bytes
after OPCODE (R43), which the row itself fixes. -/
structure MbxReq where
  port : Port
  slot : Nat
  tag : BitVec 16
  flags : BitVec 8
  rsvA : BitVec 24
  target : BitVec 32
  rsvB : BitVec 32
  params : BitVec 384
  env : MbxEnv
  deriving DecidableEq, Repr, Inhabited

/-- The data pointer of an NVMe command, as far as R250 checks it. -/
inductive Dptr where
  | prp (offset : Nat) (listOk : Bool)
  | sgl (typeOk lenOk segOk : Bool)
  deriving DecidableEq, Repr, Inhabited

/-- The part of a submission entry that every NVMe command has (R250). -/
structure NvmeCmd where
  fn : FnId
  sqid : Nat
  cid : Nat
  nsid : BitVec 32
  fuse : BitVec 2
  psdt : BitVec 2
  rsvd : Bool
  dptr : Dptr
  deriving DecidableEq, Repr, Inhabited

/-- A submission entry as it arrives in a prefetch slot: the common part, its opcode and its Dwords 10-15. -/
structure Sqe where
  cmd : NvmeCmd
  opcode : BitVec 8
  dw10 : BitVec 32
  dw11 : BitVec 32
  dw12 : BitVec 32
  dw13 : BitVec 32
  dw14 : BitVec 32
  dw15 : BitVec 32
  deriving DecidableEq, Repr, Inhabited

/-- The operands of an I/O read or write: start LBA, zero-based block count, directive and metadata pointer. -/
structure IoArgs where
  slba : Nat
  nlb : Nat
  dtype : BitVec 4
  dspec : BitVec 16
  mptr : Nat
  deriving DecidableEq, Repr, Inhabited

/-- One bobbin message (R200), but for its VERB, which the row fixes. -/
structure BobbinMsg where
  dest : BitVec 8
  src : BitVec 8
  role : BitVec 7
  epoch : BitVec 16
  opId : BitVec 16
  object : BitVec 128
  deriving DecidableEq, Repr, Inhabited

/-- Where a register or window write lands (R40, R231, R263, R357, R374, R467). -/
inductive RegTarget where
  | bar0 (fn : FnId)
  | bar2 (port : Port) (env : MbxEnv)
  | bar4 (fn : FnId)
  | dmCfg
  | flashRate
  | vcoreVid
  deriving DecidableEq, Repr, Inhabited

/-- The kinds of request at a channel bus arbiter (R224). -/
inductive BusLevel where
  | recovery | high | normal
  deriving DecidableEq, Repr, Inhabited

/-- The memories that the scrubber walks (R369), by the region a word or burst lies in (R367). -/
inductive EccRegion where
  | tailorTcm (pair : Nat)
  | bobbinStore (bobbin : Nat)
  | readStaging (cmd sector : Nat)
  | darnAccumulator (darn : Nat)
  | zoneMapCache
  | parityLine
  | tailorJournal | roleTable | mapJournal | swatchState
  | dieLedger (die : DieId)
  | mappingTables
  | reclaimSwatch (item place : Nat)
  | hostSwatch (tenant nsid lba : Nat)
  | other
  deriving DecidableEq, Repr, Inhabited

/-- An uncorrectable source read of a Shuttle channel (R367, R373): after how many further bursts, where it lies, and whether
both copies of a duplicated record are lost. -/
structure SourceError where
  bursts : Nat
  region : EccRegion
  bothCopies : Bool
  deriving DecidableEq, Repr, Inhabited

/-- What the check bits of one read say (R366, R367). -/
inductive EccResult where
  | clean
  | corrected
  | uncorrectable (bothCopies : Bool)
  deriving DecidableEq, Repr, Inhabited

/-- How a host answers a read of its memory (R250, R373). -/
inductive HostAnswer where
  | unsupportedRequest | completerAbort | poisoned
  deriving DecidableEq, Repr, Inhabited

/-- Which read of host memory a host answers (R251, R373): a write's data, or a Shuttle channel's, after `bursts` more bursts
whose bytes came from the host where the source is a host port. -/
inductive HostRead where
  | data (fn : FnId) (sqid cid : Nat)
  | shuttle (channel bursts : Nat) (hostData : List Byte)
  deriving DecidableEq, Repr, Inhabited

/-- Why a bobbin reports itself failed (R208). -/
inductive BobbinFault where
  | localStore | microcode | illegalState | spareCheck
  deriving DecidableEq, Repr, Inhabited

/-- Why a Tailor pair traps (R216). -/
inductive TrapCause where
  | lockstep | instructionFetch
  deriving DecidableEq, Repr, Inhabited

/-- Why a relocation is made (R183, R187, R194). -/
inductive MoveKind where
  | refreshNormal | refreshUrgent | degraded | wear
  deriving DecidableEq, Repr, Inhabited

/-- What a die's status read says of its program or erase: whether it passed; and whether the spare that adopted the die finds it not
confirmed, so that it is to run again (R211). -/
structure StatusRead where
  pass : Bool
  again : Bool
  deriving DecidableEq, Repr, Inhabited

/-- The end of a flush: the device time, and the programs that failed in it, each on its die (R416). -/
structure FlushEnd where
  us : Nat
  fails : List (DieId × Nat)
  deriving DecidableEq, Repr, Inhabited

/-- What the margin read of a twin finds: whether every word read right, and how many words the check corrected (R378, R381). -/
structure MarginRead where
  ok : Bool
  corrected : Nat
  deriving DecidableEq, Repr, Inhabited

/-- The commands and events of the block, one constructor for each row of the opcode table. -/
inductive Instr where
  | powerOn (b : BootEnv)
  | supplyReset (us : Nat)
  | crystalQualifyWindow (count : Nat)
  | rcFallback
  | brownOutRecovery (b : BootEnv) (t : Nat)
  | earlyWarning (t : Nat)
  | hardThreshold (t vinMv : Nat)
  | flushSeal (e : FlushEnd)
  | inputReturn (vinMv : Nat)
  | bankBelowMin (t bankMv vinMv : Nat)
  | comparatorArm (vinMv : Nat)
  | vinSample (vinMv : Nat) (bankMv : Nat) (measMa : Int)
  | gaugeUpdate (t bankMv : Nat) (dqUc : Int)
  | capRecompute (t : Nat)
  | capRaiseDelay (t : Nat)
  | capacitanceTestPeriod (t : Nat)
  | capacitanceTestEnd (t dqUc dvMv : Nat) (timedOut : Bool)
  | tenantCreate (r : MbxReq)
  | tenantDestroy (r : MbxReq)
  | tenantQuery (r : MbxReq)
  | tenantList (r : MbxReq)
  | tenantSetQos (r : MbxReq)
  | tenantSetAtomic (r : MbxReq)
  | tenantQuarantine (r : MbxReq)
  | tenantRelease (r : MbxReq)
  | tenantReset (r : MbxReq)
  | qpairGrant (r : MbxReq)
  | qpairRevoke (r : MbxReq)
  | vectorBlockGrant (r : MbxReq)
  | vectorBlockRevoke (r : MbxReq)
  | queueQuery (r : MbxReq)
  | setCoalescing (r : MbxReq)
  | geometryQuery (r : MbxReq)
  | diegroupAssign (r : MbxReq)
  | diegroupQuery (r : MbxReq)
  | placementCreate (r : MbxReq)
  | placementDestroy (r : MbxReq)
  | placementQuery (r : MbxReq)
  | convRegionSet (r : MbxReq)
  | keyLoad (r : MbxReq)
  | keyRekeyBegin (r : MbxReq)
  | keyRekeyEnd (r : MbxReq)
  | keyDestroy (r : MbxReq)
  | keyQuery (r : MbxReq)
  | wrapKeyInfo (r : MbxReq)
  | tenantFreeze (r : MbxReq)
  | freezeCapture (tenant t : Nat)
  | freezeTimeout (tenant t : Nat)
  | snapshotRead (r : MbxReq)
  | snapshotDiscard (r : MbxReq)
  | tenantRestore (r : MbxReq)
  | tenantThaw (r : MbxReq)
  | powerPolicy (r : MbxReq)
  | domainQuery (r : MbxReq)
  | vcorePolicy (r : MbxReq)
  | thermalConfig (r : MbxReq)
  | holdupQuery (r : MbxReq)
  | capacitanceTest (r : MbxReq)
  | exposedCapSet (r : MbxReq)
  | pbFreeze (r : MbxReq)
  | pbThaw (r : MbxReq)
  | pbQuery (r : MbxReq)
  | yardageSetEpoch (r : MbxReq)
  | yardageRead (r : MbxReq)
  | hostTimeSet (r : MbxReq)
  | fwStage (r : MbxReq)
  | fwVerify (r : MbxReq)
  | fwActivateNow (r : MbxReq)
  | fwActivateNextPowerOn (r : MbxReq)
  | activationTimeout (t : Nat)
  | fwRollback (r : MbxReq)
  | bootQuery (r : MbxReq)
  | managerPolicy (r : MbxReq)
  | managerFailover (t : Nat)
  | sanitiseStartBlockErase (r : MbxReq)
  | sanitiseStartCryptoErase (r : MbxReq)
  | sanitiseStartExitFailure (r : MbxReq)
  | sanitiseStatus (r : MbxReq)
  | formatStart (r : MbxReq)
  | formatStatus (r : MbxReq)
  | debugAuthoriseChallenge (r : MbxReq)
  | debugAuthoriseToken (r : MbxReq)
  | debugAuthoriseRevoke (r : MbxReq)
  | debugAuthExpiry (t : Nat)
  | frayArm (r : MbxReq)
  | frayDisarm (r : MbxReq)
  | selvedgeRead (r : MbxReq)
  | selvedgeSetThreshold (r : MbxReq)
  | warmReset (r : MbxReq)
  | mbxQueuedStart
  | mbxCqHeadWrite (port : Port) (value : BitVec 32)
  | registerWrite (tgt : RegTarget) (off width : Nat) (value : BitVec 64)
  | createIoSq (c : NvmeCmd) (qid qsize : Nat) (pc : Bool) (prp1 cqid : Nat) (qprio : BitVec 2)
  | createIoCq (c : NvmeCmd) (qid qsize : Nat) (pc : Bool) (prp1 : Nat) (ien : Bool) (iv : Nat)
  | deleteIoSq (c : NvmeCmd) (qid : Nat)
  | deleteIoCq (c : NvmeCmd) (qid : Nat)
  | getLogPage (c : NvmeCmd) (lid lsi : Nat) (rae : Bool) (addr : Nat)
  | getLogVendorEvents (c : NvmeCmd) (lsi : Nat) (rae : Bool) (addr : Nat)
  | identify (c : NvmeCmd) (cns csi : Nat) (addr : Nat)
  | abort (c : NvmeCmd) (sqid acid : Nat)
  | setFeatures (c : NvmeCmd) (fid : Nat) (sv : Bool) (dw11 dw12 : BitVec 32) (data : List Byte)
  | getFeatures (c : NvmeCmd) (fid sel : Nat) (dw11 : BitVec 32) (addr : Nat)
  | setArbitration (c : NvmeCmd) (dw11 : BitVec 32)
  | setPowerManagement (c : NvmeCmd) (dw11 : BitVec 32)
  | setTemperatureThreshold (c : NvmeCmd) (dw11 : BitVec 32)
  | setNumberOfQueues (c : NvmeCmd) (dw11 : BitVec 32)
  | setInterruptCoalescing (c : NvmeCmd) (vectorConfig : Bool) (dw11 : BitVec 32)
  | setApst (c : NvmeCmd) (sv : Bool) (dw11 : BitVec 32) (table : List (BitVec 64)) (hemOk : Bool)
  | setTimestamp (c : NvmeCmd) (timestamp : BitVec 48)
  | setDarningControl (c : NvmeCmd) (sv : Bool) (dw11 dw12 : BitVec 32) (hemOk : Bool)
  | setReclamationControl (c : NvmeCmd) (sv : Bool) (dw11 dw12 : BitVec 32) (hemOk : Bool)
  | setChannelArbiterControl (c : NvmeCmd) (sv : Bool) (dw11 : BitVec 32) (hemOk : Bool)
  | setIntakeArbitrationControl (c : NvmeCmd) (sv : Bool) (dw11 : BitVec 32) (hemOk : Bool)
  | setVendorEventConfiguration (c : NvmeCmd) (dw11 : BitVec 32)
  | asynchronousEventRequest (c : NvmeCmd)
  | firmwareImageDownload (c : NvmeCmd) (ofst : Nat) (data : List Byte)
  | firmwareCommit (c : NvmeCmd) (ca : BitVec 3) (fs : Nat) (verdict : Nat) (hemOk : Bool)
  | formatNvm (c : NvmeCmd) (lbaf ses : Nat) (mset : Bool) (pi : Nat) (pil : Bool) (hemOk : Bool)
  | sanitizeBlockErase (c : NvmeCmd) (ause ndas : Bool) (hemOk : Bool)
  | sanitizeCryptoErase (c : NvmeCmd) (ause ndas : Bool) (hemOk : Bool)
  | sanitizeExitFailureMode (c : NvmeCmd)
  | read (c : NvmeCmd) (io : IoArgs)
  | write (c : NvmeCmd) (io : IoArgs)
  | zoneAppend (c : NvmeCmd) (io : IoArgs)
  | writeZeroes (c : NvmeCmd) (io : IoArgs)
  | flush (c : NvmeCmd)
  | zoneOpen (c : NvmeCmd) (slba : Nat) (selectAll : Bool)
  | zoneClose (c : NvmeCmd) (slba : Nat) (selectAll : Bool)
  | zoneFinish (c : NvmeCmd) (slba : Nat) (selectAll : Bool)
  | zoneReset (c : NvmeCmd) (slba : Nat) (selectAll : Bool)
  | reportZones (c : NvmeCmd) (slba zra zrasf : Nat) (partialReport : Bool) (maxDesc : Nat) (addr : Nat)
  | hostDataArrival (fn : FnId) (sqid cid sector : Nat) (data : SectorData) (metadata : BitVec 64)
  | seamLaneComplete (lane : Nat) (tagOk : Bool)
  | dramWriteDrain (channel : Nat)
  | commitPoint (fn : FnId) (sqid cid t : Nat)
  | spillTimerExpiry (tenant nsid index : Nat)
  | programStatusRead (die : DieId) (found : StatusRead) (us : Nat)
  | arrayReadDone (die : DieId)
  | dataOutDone (die : DieId)
  | ldpcDecodeDone (opId : Nat) (corrected : Option Nat) (soft : Bool)
  | darnExhaustionEnd (group t : Nat)
  | darnWindowBoundary (t : Nat)
  | eraseMinSegmentEnd (die : DieId)
  | bulkReadAge (die : DieId) (opId : Nat)
  | tokenDeferralLimit (die : DieId)
  | boltEraseStart (bolt : Nat) (hemOk : Bool)
  | eraseStatusRead (die : DieId) (found : StatusRead) (us : Nat) (hemOk : Bool)
  | itemAgePromotion (item : Nat)
  | mergeIdleTimer (group : Nat)
  | mergeStart (tenant region : Nat)
  | relocationStart (bolt : Nat) (kind : MoveKind)
  | mediaPatrolSample (bolt pick : Nat)
  | bobbinRead (m : BobbinMsg) (bulk : Bool)
  | readComponent (m : BobbinMsg)
  | program (m : BobbinMsg)
  | erase (m : BobbinMsg)
  | cancel (m : BobbinMsg)
  | tokenGrant (m : BobbinMsg)
  | dieReset (m : BobbinMsg)
  | adopt (m : BobbinMsg)
  | handover (m : BobbinMsg)
  | done (m : BobbinMsg)
  | dataReady (m : BobbinMsg)
  | bounce (m : BobbinMsg)
  | tokenReturn (m : BobbinMsg)
  | fault (m : BobbinMsg)
  | epochAdvance (m : BobbinMsg)
  | livenessProbe (t : Nat)
  | probeTimeout (bobbin t : Nat)
  | heldInputTimeout (bobbin t : Nat)
  | tailorTrap (pair t : Nat) (cause : TrapCause)
  | heartbeatMiss (pair t : Nat)
  | selfTestDone (pair : Nat) (pass : Bool)
  | busArbiterDecision (channel : Nat)
  | busTransactionEnd (channel : Nat)
  | holdCutoff (channel t : Nat)
  | sqTailDoorbell (fn : FnId) (qid width : Nat) (value : BitVec 32) (t : Nat)
  | cqHeadDoorbell (fn : FnId) (qid width : Nat) (value : BitVec 32)
  | sqeArrival (fn : FnId) (qid : Nat) (entries : List Sqe)
  | arbiterGrant (t : Nat)
  | longestWaiterGrant (t : Nat)
  | agePromotion (fn : FnId) (sqid cid t : Nat)
  | coalescingTimer (fn : FnId) (vector t : Nat)
  | msixTableWrite (fn : FnId) (entry dword : Nat) (value : BitVec 32)
  | ccEnable (fn : FnId) (value : BitVec 32)
  | controllerReset (fn : FnId)
  | shutdownNotification (fn : FnId) (shn : BitVec 2)
  | flr (fn : FnId)
  | perstNAssert (port : Port) (widthNs : Nat)
  | perstNDeassert (port : Port) (t : Nat)
  | configRequest (fn : FnId) (bme mse msixEnable fmask : Bool) (write : Bool) (t : Nat)
  | numvfsWrite (port : Port) (value : Nat)
  | linkUp (port : Port) (t : Nat)
  | linkDown (port : Port) (t : Nat)
  | laneFailure (port : Port) (width : Nat)
  | malformedTlp (port : Port) (fn : Option FnId)
  | hostErrorCompletion (of : HostRead) (answer : HostAnswer)
  | refclkLoss (port : Port) (t : Nat)
  | getVersion
  | getCapabilities
  | negotiateAlgorithms (ecdsaP384 sha384 : Bool)
  | getDigests
  | getCertificate (slot offset length : Nat)
  | challenge (slot : Nat) (nonce : BitVec 256)
  | getMeasurements (index : Nat) (nonce : BitVec 256)
  | dramCalibration (channel t : Nat)
  | dramRefresh (channel bank : Nat)
  | scrubRead (dram : Bool) (channel : Nat) (region : EccRegion) (result : EccResult) (passEnd : Bool) (t : Nat)
  | shtPtrWrite (channel : Nat) (value : BitVec 32)
  | shtCtrlWrite (channel : Nat) (value : BitVec 32)
  | shtRingWrite (channel : Nat) (value : BitVec 32)
  | shuttleDescriptorComplete (channel : Nat) (hostData : List Byte) (uncorrectable : Option SourceError)
  | shuttleBurstRetry (channel : Nat) (ok : Bool) (hostData : List Byte)
  | hemProgramComplete (bank : Nat) (pass : Bool)
  | hemEraseComplete (bank : Nat) (pass : Bool)
  | hemEraseSuspend (bank : Nat)
  | hemWindowMove
  | hemMarginCheck (t : Nat) (a b : MarginRead)
  | idleTimerExpiry (t : Nat)
  | powerDrainEnd (t : Nat)
  | domainStopAnswer (domain : Nat) (accept : Bool) (t : Nat)
  | domainStopTimeout (domain t : Nat)
  | entryRetry (t : Nat)
  | domainStartDone (domain t : Nat)
  | wake (source t : Nat) (tenant : Option Nat)
  | l12Exit (port : Port) (t : Nat)
  | vcoreSettled (t : Nat)
  | maintenanceWake (t : Nat)
  | gaugeWindowEnd (reading t : Nat)
  | sensorConversionStart (remote : Bool) (index t : Nat)
  | sensorConversionDone (remote : Bool) (index : Nat) (reading : Int) (broken : Bool) (t : Nat)
  | commaLevelDescent (t : Nat)
  | thermalHold (t : Nat)
  | histogramSample (t : Nat)
  | pbCheckpoint (t : Nat) (hemOk : Bool)
  | pbFreezeExpiry (t : Nat)
  | epochClose (tenant t : Nat)
  | epochSave (t : Nat)
  | selvedgeDrain
  | selvedgeHemFlush (t : Nat) (hemOk : Bool)
  | dieStatusTimeout (die : DieId) (impossible : Bool) (recovers : Bool) (t : Nat)
  | bobbinSelfFault (bobbin : Nat) (cause : BobbinFault) (t : Nat)
  | eraseSuspendLatencyEnd (die : DieId)
  | hemSuspendWindowEnd (bank : Nat)
  | completionTimeout (channel bursts : Nat) (hostData : List Byte)
  | refclkRelock (port : Port) (t : Nat)
  | linkL12Entry (port : Port)
  | nvmeMiMessage (needsClaind : Bool) (t : Nat)
  | coreResetRelease (vcoreInRange vsramInRange : Bool)
  | capacitanceTestWaitLimit (t : Nat)
  | capacitanceTestRetry (t : Nat)
  | debugNonceExpiry (t : Nat)
  | ledActHoldEnd
  | undefinedMailboxOpcode (opcode : BitVec 16) (r : MbxReq)
  deriving DecidableEq, Repr

end Sys2Proof
end

