-- ==== Sys2Proof/Decode.lean ====
section
/-! DEFINITION. Commands from words. The opcode table gives none of its rows any bits, so no word spells a command (log 10). -/

namespace Sys2Proof

/-- The command that a word spells by the table's bits: none, for every word. -/
def decodeTableWord (_nbits _w : Nat) : Option Instr := none

end Sys2Proof
end

