-- ==== Sys2Proof/Config.lean ====
section
/-! DEFINITION. What the spec leaves open: free values with no body, so that a statement about one holds for every
value (log 11), and the constants that the drive maker or the implementation fixes. -/

namespace Sys2Proof.Config

/-- The `n`th free number (log 11). -/
opaque freeNat : Nat → Nat

/-- The `n`th free block of 4,096 bytes (log 11). -/
opaque freeSector : Nat → SectorData

/-- The SHA-384 of the attestation leaf public key (R338, R528), fixed for a device (log 7). -/
opaque deviceId : Nat

/-- A 384-bit digest that the spec names without giving its bytes: measurement or certificate number `n` at generation
`k` of what it covers (R338, R339; log 7). -/
opaque digest : Nat → Nat → Nat

/-- The 48 bytes of the P-384 shared secret of device key-exchange pair `n` and a public key, as X and Y (R329; log 7). -/
opaque ecdh : Nat → Nat → Nat → List Byte

/-- The SHA-384 digest of a message, its first byte the most significant (R329; log 7). -/
opaque sha384 : List Byte → Nat

/-- The public key of device key-exchange pair `n` (R330; log 7). -/
opaque dkxPublic : Nat → Nat

/-- The AES-256-GCM ciphertext of a plaintext under the key that slot `n` holds at generation `k`, with an IV and additional
authenticated data (R310; log 7). -/
opaque gcmText : Nat → Nat → List Byte → List Byte → Nat → Nat

/-- The tag of the same encryption (R310; log 7). -/
opaque gcmTag : Nat → Nat → List Byte → List Byte → Nat → Nat

/-- The LDPC parity of a payload (R31; log 7). -/
opaque ldpc : Nat → Nat

/-- The CRC-32C of an index descriptor or of the index sectors, whose bytes the spec does not lay out (R415, log 102). -/
opaque flushCrc : List Nat → Nat

/-- The check byte of a 64-bit word under the (72,64) code, whose matrix the spec does not give (R354, log 11). -/
opaque secded : Nat → Nat

/-- The 5 check bits of an SRAM byte under the (13,8) code, whose matrix the spec does not give (R365, log 11). -/
opaque secded13 : Nat → Nat

/-- The payload of a filler sector, by its place (R122, log 11). -/
opaque filler : Nat → Nat

/-- What Identify and the FDP pages report and the spec does not give: vendor identifiers, serial number, unique identifiers,
by byte offset (R257, log 11). -/
opaque ident : Nat → Nat

/-- The number that OBJECT of a FAULT carries for the cause STOPPED (R450, log 23). -/
opaque stoppedCause : Nat

end Sys2Proof.Config
end

