-- ==== Sys2Proof/Machine/State.lean ====
section
/-! DEFINITION. The state of the Thrumya as plain data, the reasons a step can stop, and the state after reset. Each
group of registers is one structure; a docstring names the rule of spec/ that gives the group. -/

namespace Sys2Proof.Machine

/-- Bytes of a memory in canonical form: addresses strictly rising and no byte that reads as an unlisted address
does (zero). -/
abbrev Memory := List Host.Cell

/-- The ordering variants (R3). -/
inductive Part where
  /-- 32 channels, Seam cipher. -/
  | tmy9632e
  /-- 32 channels, no cipher. -/
  | tmy9632n
  /-- 16 channels, Seam cipher. -/
  | tmy9616e
  /-- 16 channels, no cipher. -/
  | tmy9616n
  deriving DecidableEq, Repr, Inhabited

/-- How the drive maker built the drive: part, dies and DRAM (R3, R69, R71, R76, R349). No command changes it. -/
structure Board where
  /-- The ordered part (00 R3). -/
  part : Part
  /-- The die type fitted (03 R69). -/
  dieType : Nat
  /-- Positions populated on every channel (03 R71). -/
  positions : Nat
  /-- Factory-marked bad units (03 R76). -/
  factoryBad : List (DieId × Nat)
  /-- DRAM population (11 R349). -/
  dramGib : Nat
  /-- Ranks of each DRAM channel (11 R348). -/
  dramRanks : Nat
  /-- Build number of the running Claind 4.1 (00 R1). -/
  fwBuild : Nat
  deriving DecidableEq, Repr, Inhabited

/-- Board at reset. Which variant the order named, which build runs and how dies and DRAM are populated is the drive's own: the
values here are the model's choice (DESIGN CHOICE, log 82). -/
def Board.reset : Board where
  part := .tmy9632e
  dieType := 3
  positions := 32
  factoryBad := []
  dramGib := 16
  dramRanks := 1
  fwBuild := 17

/-- The geometry record of the Hem store and what discovery found (R72). -/
structure Geo where
  /-- A geometry record exists (03 R72). -/
  recorded : Bool
  /-- Die type of the record (03 R72). -/
  dieType : Nat
  /-- Positions of the record (03 R72). -/
  n : Nat
  /-- Absent die groups (03 R72). -/
  absent : List Nat
  /-- Boot count when the record was written (03 R98). -/
  recordBoot : Nat
  /-- The device has come up with media (03 R72). -/
  media : Bool
  /-- What the last discovery found of dies that do not answer as the drive's own do (03 R70). -/
  found : List (DieId × DieAnswer)
  deriving DecidableEq, Repr, Inhabited

/-- Geo at reset. -/
def Geo.reset : Geo where
  recorded := false
  dieType := 0
  n := 0
  absent := []
  recordBoot := 0
  media := false
  found := []

/-- A mailbox completion entry (R45), PHASE set when it is posted. -/
structure MbxCqe where
  /-- TAG (02 R45). -/
  tag : BitVec 16
  /-- OPCODE (02 R45). -/
  opcode : BitVec 16
  /-- STATUS (02 R45). -/
  status : BitVec 8
  /-- PHASE (02 R45). -/
  phase : Bool
  /-- Tailor pair that accepted its command (02 R54). -/
  pair : Nat
  /-- REPLAYED, set when the entry is written (02 R45). -/
  replayed : Bool
  /-- SLOT (02 R45). -/
  slot : Nat
  /-- SEQ (02 R45). -/
  seq : Nat
  /-- FIELD_OFFSET (02 R45). -/
  fieldOffset : BitVec 16
  /-- RESULT_HANDLE (02 R45). -/
  resultHandle : BitVec 32
  /-- RESULT, bytes 20-31 (02 R45). -/
  result : BitVec 96
  /-- NO_IRQ of the command, used at posting (02 R43). -/
  noIrq : Bool
  deriving DecidableEq, Repr, Inhabited

/-- An accepted mailbox command (R48, R52) with its Tailor journal entry (R54). -/
structure MbxCmd where
  /-- OPCODE (02 R43). -/
  opcode : BitVec 16
  /-- The slot's other bytes, the port and the environment's answers (02 R43). -/
  req : MbxReq
  /-- SEQ assigned at acceptance (02 R45). -/
  seq : Nat
  /-- Execution has started (02 R52). -/
  started : Bool
  /-- Journal: effect applied (02 R54). -/
  applied : Bool
  /-- Its completion may still be posted (false once a manager reset or role move has cut it off) (02 R37). -/
  posted : Bool
  /-- Tailor pair that accepted it (02 R54). -/
  pair : Nat
  /-- Its slot's busy bit is still set for it (02 R42). -/
  holdsSlot : Bool
  /-- It arrived during an entry to PS3 or PS4, which does not wait for it (02 R68). -/
  latched : Bool
  /-- Device time of its doorbell (15 R492). -/
  atUs : Nat
  deriving DecidableEq, Repr, Inhabited

/-- One 16-byte entry of the outcome log (R64). -/
structure OutcomeEntry where
  /-- SEQ (02 R64). -/
  seq : Nat
  /-- TAG (02 R64). -/
  tag : BitVec 16
  /-- OPCODE (02 R64). -/
  opcode : BitVec 16
  /-- STATUS (02 R64). -/
  status : BitVec 8
  /-- POSTED (02 R64). -/
  posted : Bool
  /-- REPLAYED (02 R64). -/
  replayed : Bool
  /-- RESULT_HANDLE (02 R64). -/
  resultHandle : BitVec 32
  deriving DecidableEq, Repr, Inhabited

/-- The mailbox registers of one physical function's BAR2 (R40, R42), its slots and its ring. -/
structure MbxPort where
  /-- Command slots, 64 x 64 B (02 R40). -/
  slots : Memory
  /-- Completion ring entries by index (02 R46). -/
  ring : List (Nat × MbxCqe)
  /-- MBX_STATUS.READY (02 R42). -/
  ready : Bool
  /-- Device time by which a manager reset under way has set READY (02 R42). -/
  readyAt : Option Nat
  /-- MBX_STATUS.DB_ERR (02 R42). -/
  dbErr : Bool
  /-- MBX_CTRL.IRQ_EN (02 R42). -/
  irqEn : Bool
  /-- MBX_CTRL.VECTOR (02 R42). -/
  vector : BitVec 11
  /-- MBX_CQ_HEAD.HEAD (02 R42). -/
  head : BitVec 6
  /-- MBX_SLOT_BUSY_LO and _HI (02 R42). -/
  busy : BitVec 64
  /-- Index of the next ring entry to write (02 R46). -/
  tail : BitVec 6
  /-- PHASE of the next entry (02 R46). -/
  phase : Bool
  /-- Posted and unconsumed entries (02 R50). -/
  posted : Nat
  /-- Completions waiting for ring space; RING_WAIT is 1 while any waits (02 R50). -/
  waiting : List MbxCqe
  deriving DecidableEq, Repr, Inhabited

/-- MbxPort at reset. -/
def MbxPort.reset : MbxPort where
  slots := []
  ring := []
  ready := false
  readyAt := none
  dbErr := false
  irqEn := false
  vector := 0#11
  head := 0#6
  busy := 0#64
  tail := 0#6
  phase := true
  posted := 0
  waiting := []

/-- The manager mailbox of the device (R36-R68). -/
structure Mbx where
  /-- Registers of port A's physical function (02 R40). -/
  portA : MbxPort
  /-- Registers of port B's physical function (02 R40). -/
  portB : MbxPort
  /-- Port whose physical function holds the manager role (02 R36). -/
  manager : Port
  /-- Last SEQ assigned (02 R45). -/
  seq : Nat
  /-- Accepted commands, in SEQ order, those started marked (02 R52). -/
  accepted : List MbxCmd
  /-- Outcome log entries by index (02 R64). -/
  log : List (Nat × OutcomeEntry)
  /-- SEQ of the newest entry (02 R64). -/
  logNewest : Nat
  /-- Entries written so far; the newest is at this number less one, modulo 64 (02 R64). -/
  logIndex : Nat
  /-- Preferred port of the policy in force (02 R36). -/
  preferred : Port
  /-- Failover of the policy in force (02 R36). -/
  failover : Bool
  /-- Policy word in the Hem store (02 R36). -/
  storedPolicy : Option (Port × Bool)
  /-- Role move that waits for its command's entry to be written (02 R63). -/
  movePending : Option Port
  /-- Device time at which the manager port's link was last found down, while failover counts (02 R37). -/
  downSince : Option Nat
  deriving DecidableEq, Repr, Inhabited

/-- Mbx at reset. -/
def Mbx.reset : Mbx where
  portA := .reset
  portB := .reset
  manager := .a
  seq := 0
  accepted := []
  log := []
  logNewest := 0
  logIndex := 0
  preferred := .a
  failover := true
  storedPolicy := none
  movePending := none
  downSince := none

/-- Zone states (R120). -/
inductive ZoneSt where
  /-- Empty. -/
  | zse
  /-- Implicitly Opened. -/
  | zsio
  /-- Explicitly Opened. -/
  | zseo
  /-- Closed. -/
  | zsc
  /-- Full. -/
  | zsf
  /-- Read Only. -/
  | zsro
  /-- Offline. -/
  | zso
  deriving DecidableEq, Repr, Inhabited

/-- One zone of a tenant's NSID 1 (R80-R83, R117, R120). -/
structure Zone where
  /-- State (04 R120). -/
  st : ZoneSt
  /-- Bolt bound (03 R81). -/
  bolt : Option Nat
  /-- Reservation pointer, as an offset in the zone (04 R117). -/
  rp : Nat
  /-- Committed pointer, as an offset in the zone (04 R117). -/
  cp : Nat
  /-- Zone generation (03 R83). -/
  gen : Nat
  /-- ZFC: finished by the device (03 R96). -/
  zfc : Bool
  /-- The device is to finish it once its reservations have committed (04 R121). -/
  finishDue : Bool
  /-- Index of the placement handle of the binding (03 R103). -/
  handle : Nat
  /-- Generation of that placement handle at the binding (03 R91). -/
  handleGen : Nat
  /-- Key slot index recorded at the binding (10 R323). -/
  keySlot : Option Nat
  /-- Its generation then (10 R322). -/
  keyGen : Nat
  /-- Order of its last activity (04 R121). -/
  actSeq : Nat
  /-- Offset at which the host's data ends; filler follows in a finished zone (04 R122). -/
  dataEnd : Nat
  deriving DecidableEq, Repr, Inhabited

/-- States of a user bolt (R166). -/
inductive BoltSt where
  /-- All 32 units erased, free for binding. -/
  | erased
  /-- Holds a zone, a region bolt, or (for a log bolt) a tenant's log. -/
  | bound
  /-- In its group's erase queue. -/
  | released
  /-- Erase issued on at least one unit. -/
  | erasing
  /-- Erased and held in the relocation float. -/
  | float
  /-- Receiving a relocation. -/
  | target
  deriving DecidableEq, Repr, Inhabited

/-- What a bound bolt holds (R81, R85, R86). -/
inductive BoltUse where
  /-- Nothing. -/
  | none
  /-- Zone z of the tenant's NSID 1. -/
  | zone (tenant z : Nat)
  /-- Region bolt x of the tenant's NSID 2. -/
  | region (tenant x : Nat)
  /-- A log bolt of the tenant. -/
  | log (tenant : Nat)
  /-- The target of a relocation of bolt src. -/
  | reloc (src : Nat)
  /-- A system or emergency bolt. -/
  | system
  deriving DecidableEq, Repr, Inhabited

/-- One bolt table entry with its unit map (R76, R84, R166, R191). -/
structure Bolt where
  /-- State (06 R166). -/
  st : BoltSt
  /-- What it holds (03 R81). -/
  use : BoltUse
  /-- Erase count (06 R191). -/
  ec : Nat
  /-- Unit map: columns whose unit is not the bolt's index (03 R76). -/
  units : List (Nat × Nat)
  /-- Closed by a finish (04 R122). -/
  closed : Bool
  /-- Reads holding it (04 R110). -/
  pins : Nat
  /-- Order in which it joined its group's erase queue (06 R166). -/
  relSeq : Nat
  /-- Columns whose erase has reported pass (06 R173). -/
  passed : List Nat
  /-- Its erase item is urgent (06 R170). -/
  urgent : Bool
  /-- No further refresh until released (06 R185). -/
  deferred : Bool
  /-- Released by a reset, waiting for its pins and programs (04 R110). -/
  releasePending : Bool
  /-- Handle of the tenant that it was last bound to, whose erased bytes its erase counts (03 R97). -/
  owner : Nat
  /-- Spares being erased for columns of a released bolt; the unit map names them once they are erased (06 R190). -/
  newUnits : List (Nat × Nat)
  /-- Device time of its release (06 R197). -/
  relUs : Nat
  /-- Device time of its last media patrol sample (06 R186). -/
  patrolUs : Option Nat
  /-- Log bolt: order in which it became full, 0 while not full (06 R178). -/
  fillSeq : Nat
  deriving DecidableEq, Repr, Inhabited

/-- The bolt table (R84, R166). -/
structure Bolts where
  /-- Entries by bolt number B that differ from the default (06 R166). -/
  table : List (Nat × Bolt)
  /-- State of a bolt with no entry (06 R560). -/
  dflt : BoltSt
  /-- Erase count of a bolt with no entry (06 R560). -/
  dfltEc : Nat
  /-- Bolts with no entry at an index below this have been erased once more, by a block erase under way (06 R191, 13 R433). -/
  wiped : Nat
  /-- Groups that a first initialisation has brought back: their bolts with no entry are in RELEASED (03 R72). -/
  fresh : List Nat
  /-- Source of release, activity and fill orders (06 R166). -/
  seq : Nat
  /-- Last group bound, by placement handle slot (03 R92). -/
  rr : List (Nat × Nat)
  /-- Last group a log bolt was taken from, by tenant (04 R132). -/
  logRr : List (Nat × Nat)
  /-- Groups in foreground erase (06 R176). -/
  fgErase : List Nat
  /-- Device-wide erase sequence (06 R174). -/
  intentSeq : Nat
  /-- Open intents: sequence and TARGET with KIND (06 R174). -/
  intents : List (Nat × Nat)
  /-- Single units whose intent waits for room in the ring: die and unit (06 R174). -/
  intentWait : List (Nat × Nat)
  /-- The erases of bolts with no entry are urgent (06 R175). -/
  dfltUrgent : Bool
  /-- Last column a spill went to, by group (04 R124). -/
  tailRr : List (Nat × Nat)
  /-- Writes whose binding waits for a bolt to enter ERASED, oldest first (03 R92). -/
  bindWait : List Nat
  /-- Rows whose half-stripe parity has programmed with pass, by bolt and half (04 R126). -/
  closedRows : List (Nat × Nat)
  deriving DecidableEq, Repr, Inhabited

/-- Bolts at reset. -/
def Bolts.reset : Bolts where
  table := []
  dflt := .released
  dfltEc := 0
  wiped := 0
  fresh := []
  seq := 0
  rr := []
  logRr := []
  fgErase := []
  intentSeq := 0
  intents := []
  intentWait := []
  dfltUrgent := false
  tailRr := []
  bindWait := []
  closedRows := []

/-- One sector as it lies in a swatch, the staging region or on NAND: its data, its metadata and what its tag binds (R310-R314). -/
structure Sealed where
  /-- Tenant slot of the AAD (10 R312). -/
  tenant : Nat
  /-- Namespace (10 R312). -/
  nsid : Nat
  /-- LBA (10 R312). -/
  lba : Nat
  /-- Key slot that sealed it (10 R310). -/
  keySlot : Nat
  /-- Generation of that key slot (10 R322). -/
  keyGen : Nat
  /-- Zone generation, or write sequence on NSID 2 (10 R313). -/
  gen : Nat
  /-- The sector (10 R310). -/
  data : SectorData
  /-- Host metadata (03 R94). -/
  metadata : BitVec 64
  /-- Lost: reads as unrecovered (11 R368). -/
  lost : Bool
  /-- Handle of the tenant in the AAD it was sealed with (10 R312). -/
  handle : Nat
  /-- Region generation of the tenant when it was sealed, in the AAD of NSID 2 (10 R312). -/
  region : Nat
  deriving DecidableEq, Repr, Inhabited

/-- What a program unit holds. -/
inductive ProgKind where
  /-- A host chunk. -/
  | chunk
  /-- A parity unit. -/
  | parity
  /-- A tail spill. -/
  | spill
  /-- A reclamation program. -/
  | reloc
  /-- Filler of a finish. -/
  | pad
  /-- A program queued by a bobbin message. -/
  | raw
  deriving DecidableEq, Repr, Inhabited

/-- A program unit queued at a die or in progress there (R126, R128). -/
structure ProgOp where
  /-- Bolt (04 R126). -/
  bolt : Nat
  /-- Column (04 R126). -/
  column : Nat
  /-- Row (04 R126). -/
  row : Nat
  /-- What it programs (04 R126). -/
  kind : ProgKind
  /-- SLC mode (07 R202). -/
  slc : Bool
  /-- Tenant whose swatches it holds, or 1,024 for none (04 R115). -/
  writer : Nat
  /-- Swatches it frees on pass (04 R115). -/
  count : Nat
  /-- Chunk of the bolt (R75) (04 R126). -/
  chunk : Nat
  /-- Sectors it holds: key and generation (04 R115). -/
  keys : List (Nat × Nat)
  /-- Reclamation item it serves, 0 for none (06 R179). -/
  item : Nat
  /-- Physical unit (07 R202). -/
  unit : Nat
  /-- Sender of the PROGRAM message, 256 for the parity logic itself (07 R200). -/
  src : Nat
  /-- BUFFER of its message: the address of the chunk's swatch list (07 R202). -/
  buffer : Nat
  /-- OP_ID (07 R200). -/
  opId : Nat
  deriving DecidableEq, Repr, Inhabited

/-- Read classes (R137). -/
inductive ReadClass where
  /-- Latency class. -/
  | latency
  /-- Bulk class. -/
  | bulk
  /-- Component of a darn. -/
  | component
  /-- Internal class. -/
  | internal
  deriving DecidableEq, Repr, Inhabited

/-- Kinds of darn (R147). -/
inductive DarnKind where
  /-- Optional. -/
  | optional
  /-- Mandatory. -/
  | mandatory
  /-- Recovery. -/
  | recovery
  deriving DecidableEq, Repr, Inhabited

/-- A sub-read, or one component of a darn, queued at a die or in progress there (R140, R141). -/
structure DieRead where
  /-- OP_ID (07 R200). -/
  id : Nat
  /-- Class (05 R137). -/
  cls : ReadClass
  /-- Read command it serves, 0 for none (05 R140). -/
  cmd : Nat
  /-- Darn it serves, 0 for none (05 R149). -/
  darn : Nat
  /-- Bolt (05 R140). -/
  bolt : Nat
  /-- Column (05 R140). -/
  column : Nat
  /-- Row (05 R140). -/
  row : Nat
  /-- Plane (05 R141). -/
  plane : Nat
  /-- Page of the wordline (05 R140). -/
  page : Nat
  /-- Its sectors: offsets in the bolt (05 R140). -/
  sectors : List Nat
  /-- Physical unit (07 R202). -/
  unit : Nat
  /-- Latest start time (07 R202). -/
  lst : Nat
  /-- Ladder step: 1 first read, 2 retries, 3 and 4 soft (05 R156). -/
  step : Nat
  /-- Retry entries tried (05 R156). -/
  tries : Nat
  /-- A bulk read that has waited 2 ms (05 R141). -/
  waited2ms : Bool
  /-- Its recovery darn has run (05 R158). -/
  darnTried : Bool
  /-- Sender of its message, 256 for intake itself (07 R200). -/
  src : Nat
  /-- BUFFER of its message (07 R202). -/
  buffer : Nat
  /-- MODE of its message: an SLC read (07 R202). -/
  slc : Bool
  /-- It arrived during the die's present or previous program (05 R142). -/
  sinceProgram : Bool
  /-- Class of the read that it serves: a component's target, otherwise its own (05 R137). -/
  serves : ReadClass
  /-- Whether to darn it has been decided since the last change of its die (05 R147). -/
  decided : Bool
  /-- Retry entry at which its ladder's steps begin, 0 before the first (05 R157). -/
  base : Nat
  /-- It has waited behind a program and is counted (05 R165). -/
  progWait : Bool
  /-- Order of its arrival at its die (05 R141). -/
  arr : Nat
  /-- Tenant it is charged to, 1,024 for none (05 R151). -/
  tenant : Nat
  /-- Device time at which it was queued (05 R141). -/
  atUs : Nat
  deriving DecidableEq, Repr, Inhabited

/-- An erase in progress at a die (R129, R144, R145). -/
structure EraseRun where
  /-- Bolt, or 262,144 for a single unit (06 R173). -/
  bolt : Nat
  /-- Column (06 R173). -/
  column : Nat
  /-- Physical unit (06 R173). -/
  unit : Nat
  /-- Suspended (05 R145). -/
  suspended : Bool
  /-- Read suspensions used (05 R144). -/
  readSusp : Nat
  /-- Program suspensions used (04 R129). -/
  progSusp : Nat
  /-- Programs issued within the present suspension (04 R129). -/
  progsInWindow : Nat
  /-- The present segment has run for its minimum (05 R145). -/
  segmentDone : Bool
  /-- The suspend command has been issued and tESPD is running (05 R145). -/
  suspending : Bool
  /-- Device time of the last start or resume (04 R129). -/
  resumedUs : Nat
  /-- Run time accumulated before that (05 R145). -/
  ranUs : Nat
  /-- Sender of its ERASE message, 256 for the device itself (07 R200). -/
  src : Nat
  /-- OP_ID (07 R200). -/
  opId : Nat
  /-- MODE of its ERASE message: SLC (07 R202). -/
  slc : Bool
  deriving DecidableEq, Repr, Inhabited

/-- The step a die's ledger entry records (R210). -/
inductive Ledger where
  /-- Nothing in progress. -/
  | idle
  /-- Read command. -/
  | readIssued
  /-- First data-in byte of a program. -/
  | dataIn
  /-- Program confirm. -/
  | progConfirm
  /-- Erase confirm. -/
  | eraseConfirm
  /-- Erase suspended. -/
  | eraseSuspended
  deriving DecidableEq, Repr, Inhabited

/-- One die: its queues, its operation in progress, its ledger entry and its spares (R77, R128, R141, R210). -/
structure Die where
  /-- A failed die (03 R72). -/
  failed : Bool
  /-- In recovery after a die protocol violation (16 R516). -/
  recovering : Bool
  /-- Read queue, in arrival order (05 R141). -/
  reads : List DieRead
  /-- Program queue, in order (04 R128). -/
  progs : List ProgOp
  /-- Reads in progress, one or a multi-plane pair (05 R141). -/
  reading : List DieRead
  /-- That read's array read has ended (05 R141). -/
  dataOut : Bool
  /-- Program in flight (04 R128). -/
  prog : Option ProgOp
  /-- Device time of its confirm (05 R147). -/
  progUs : Nat
  /-- Device time at which its last array operation ended (15 R483). -/
  opEndUs : Nat
  /-- Erase in progress (04 R129). -/
  erase : Option EraseRun
  /-- Erases issued and not yet started (06 R173). -/
  eraseQ : List EraseRun
  /-- Holds a program token of its half (05 R142). -/
  token : Bool
  /-- Its 400 µs deferral has ended (05 R142). -/
  tokenForced : Bool
  /-- Step recorded in the ledger (07 R210). -/
  ledger : Ledger
  /-- An adopter found its ledger with a program or an erase confirm and has not yet read its status (07 R211). -/
  adopted : Bool
  /-- Spares taken so far (03 R77). -/
  nextSpare : Nat
  /-- Retired units (06 R188). -/
  retired : List Nat
  /-- Units retired on erase failure (06 R197). -/
  retiredErase : Nat
  /-- Device times of its protocol violations within the last second (16 R516). -/
  violations : List Nat
  /-- Die operations started since the last reclamation operation while host operations waited (06 R168). -/
  hostOps : Nat
  /-- Retry entry that last succeeded, by unit (05 R157). -/
  retry : List (Nat × Nat)
  /-- Erase counts of spare units in use (06 R191). -/
  spareEc : List (Nat × Nat)
  /-- Spills programmed to its tail unit (04 R124). -/
  tailSlot : Nat
  deriving DecidableEq, Repr, Inhabited

/-- Every die (R69-R77). -/
structure Dies where
  /-- Entries by channel x 32 + position that differ from an idle die (07 R210). -/
  table : List (Nat × Die)
  /-- Next OP_ID the device gives a die operation (07 R200). -/
  nextOp : Nat
  /-- Next read command number (05 R140). -/
  nextRead : Nat
  /-- Next order of arrival at a die (05 R141). -/
  nextArr : Nat
  /-- Last column granted a token, by group x 2 + half (05 R142). -/
  tokenRr : List (Nat × Nat)
  /-- Sectors on NAND by bolt and sector offset in its layout (log 7) (03 R75). -/
  nand : List (Nat × Sealed)
  /-- Sectors of the tail areas by tenant, namespace and LBA (log 7) (04 R124). -/
  spilled : List (Nat × Sealed)
  deriving DecidableEq, Repr, Inhabited

/-- Dies at reset. -/
def Dies.reset : Dies where
  table := []
  nextOp := 1
  nextRead := 1
  nextArr := 1
  tokenRr := []
  nand := []
  spilled := []

/-- Kinds of Tack entry (R108). -/
inductive TackKind where
  /-- RANGE. -/
  | range
  /-- APPEND. -/
  | append
  /-- ZONE. -/
  | zone
  deriving DecidableEq, Repr, Inhabited

/-- One Tack table entry (R108). -/
structure Tack where
  /-- Arrival sequence (04 R108). -/
  id : Nat
  /-- Tenant (04 R108). -/
  tenant : Nat
  /-- Namespace (04 R108). -/
  nsid : Nat
  /-- Kind (04 R108). -/
  kind : TackKind
  /-- First LBA (04 R108). -/
  lo : Nat
  /-- LBA after the last (04 R108). -/
  hi : Nat
  deriving DecidableEq, Repr, Inhabited

/-- Writing commands (R105). -/
inductive WKind where
  /-- Write. -/
  | write
  /-- Zone Append. -/
  | append
  /-- Write Zeroes. -/
  | zeroes
  deriving DecidableEq, Repr, Inhabited

/-- Where a writing command stands (R107, R111, R116, R181). -/
inductive WStage where
  /-- Waits at the arbiter stage for a Tack entry. -/
  | entryWait
  /-- Holds an entry and waits on earlier ones. -/
  | stalled
  /-- Parked in its queue's hold slot after a failed allocation. -/
  | parked
  /-- Parked at the log-throttle gate. -/
  | gated
  /-- Waits for a bolt, reservation made and swatches held. -/
  | bindWait
  /-- Data stage: fetch, encryption and drain. -/
  | data
  deriving DecidableEq, Repr, Inhabited

/-- A writing command between its grant and its commit point (R107). -/
structure Wr where
  /-- Arrival sequence, its Tack entry's (04 R108). -/
  id : Nat
  /-- Function (04 R107). -/
  fn : FnId
  /-- Submission queue (04 R107). -/
  sqid : Nat
  /-- Command identifier (04 R107). -/
  cid : Nat
  /-- Tenant (04 R108). -/
  tenant : Nat
  /-- Namespace (04 R105). -/
  nsid : Nat
  /-- Command (04 R105). -/
  kind : WKind
  /-- First LBA; for a Zone Append the assigned one after reservation (04 R118). -/
  lba : Nat
  /-- Sectors (04 R106). -/
  len : Nat
  /-- DTYPE (03 R91). -/
  dtype : BitVec 4
  /-- DSPEC (03 R91). -/
  dspec : BitVec 16
  /-- Stage (04 R107). -/
  stage : WStage
  /-- Staged atomically (04 R134). -/
  staged : Bool
  /-- Its commit record is protected (04 R135). -/
  recorded : Bool
  /-- Key slot that seals it (10 R322). -/
  keySlot : Nat
  /-- That slot's generation (10 R322). -/
  keyGen : Nat
  /-- Zone generation, or first write sequence (10 R313). -/
  gen : Nat
  /-- Its reservation bound the zone's bolt (04 R107). -/
  boundHere : Bool
  /-- State of the zone before it opened it implicitly (04 R107). -/
  opened : Option ZoneSt
  /-- Sectors whose data has arrived (04 R29). -/
  arrived : List Nat
  /-- Sectors that have left their lane (04 R107). -/
  sealed : List Nat
  /-- Sectors whose swatch is protected (11 R359). -/
  prot : List Nat
  /-- The sectors, as received (04 R107). -/
  sectors : List (Nat × Sealed)
  /-- Status of a failed write whose sectors commit as filler (08 R251). -/
  failed : Option Nat
  /-- Violations of its data pointer, found at the data stage: the status that each calls for (08 R250). -/
  dataErr : List Nat
  /-- Device time at which its data was asked of the host (15 R492). -/
  askedUs : Nat
  /-- Order in which it satisfied conditions 1-3, 0 before (04 R123). -/
  readySeq : Nat
  /-- Device time from which it has waited for an entry (04 R111). -/
  tackWait : Nat
  /-- Device time at which it was parked (06 R181). -/
  parkedUs : Nat
  /-- It has waited on the exposed-data cap (04 R123). -/
  capWait : Bool
  /-- The groups that its placement handle named when it was resolved (03 R91). -/
  mask : List Nat
  deriving DecidableEq, Repr, Inhabited

/-- A Zone Management Send stalled in the Tack table (R109). -/
structure ZSend where
  /-- Arrival sequence (04 R108). -/
  id : Nat
  /-- Function (04 R107). -/
  fn : FnId
  /-- Submission queue (04 R107). -/
  sqid : Nat
  /-- Command identifier (04 R107). -/
  cid : Nat
  /-- Tenant (04 R108). -/
  tenant : Nat
  /-- 1 Close, 2 Finish, 3 Open, 4 Reset (04 R105). -/
  action : Nat
  /-- Zone start (04 R108). -/
  slba : Nat
  /-- Select All (04 R108). -/
  all : Bool
  /-- A Finish past its claim that waits for outstanding reservations (04 R122). -/
  waitCommit : Bool
  /-- It waits at the arbiter stage for a Tack entry (04 R111). -/
  entryWait : Bool
  deriving DecidableEq, Repr, Inhabited

/-- A chunk that is gathering committed sectors (R124, R126, R131). -/
structure Partial where
  /-- Tenant (04 R126). -/
  tenant : Nat
  /-- Namespace (04 R126). -/
  nsid : Nat
  /-- NSID 1: zone index x 65,536 + chunk number; NSID 2: chunk of the current log bolt (04 R126). -/
  index : Nat
  /-- Sectors committed, in order: LBA and generation (04 R126). -/
  lbas : List (Nat × Nat)
  /-- How many of them have a durable spilled copy (04 R124). -/
  spilled : Nat
  /-- How many of them are in the spill in flight (04 R124). -/
  spilling : Nat
  /-- Device time of its last commit (04 R124). -/
  lastUs : Nat
  /-- Order of its first commit (04 R124). -/
  born : Nat
  /-- Filler sectors among those of the chunk (08 R251). -/
  fill : Nat
  deriving DecidableEq, Repr, Inhabited

/-- A parity accumulator half of a bolt being written (R126). -/
structure Accum where
  /-- Bolt (04 R126). -/
  bolt : Nat
  /-- Half (04 R126). -/
  half : Nat
  /-- Row (04 R126). -/
  row : Nat
  /-- Columns whose chunk has been XORed (04 R126). -/
  chunks : List Nat
  /-- Chunks of failed columns whose swatches it holds (04 R127). -/
  held : List ProgOp
  /-- Its parity unit is queued (04 R126). -/
  queued : Bool
  deriving DecidableEq, Repr, Inhabited

/-- A committed staged write that holds staging space until every one of its sectors is durable (R135). -/
structure Staged where
  /-- Arrival sequence of the write (04 R135). -/
  id : Nat
  /-- Tenant (04 R135). -/
  tenant : Nat
  /-- Its sectors that are not yet durable: key and generation (04 R135). -/
  left : List (Nat × Nat)
  /-- Staging space that it holds, in 4 KiB units (04 R135). -/
  space : Nat
  deriving DecidableEq, Repr, Inhabited

/-- A commit record of the staging journal (R135). Its staging offset and its CRC are not held: the spec gives neither the
allocation of the region nor the record's layout (log 91). -/
structure CommitRec where
  /-- Arrival sequence of the write (04 R135). -/
  wr : Nat
  /-- Tenant (04 R135). -/
  tenant : Nat
  /-- Namespace (04 R135). -/
  nsid : Nat
  /-- First LBA (04 R135). -/
  lba : Nat
  /-- Sectors (04 R135). -/
  len : Nat
  /-- Zone generation, or first write sequence (04 R135). -/
  gen : Nat
  /-- Device-wide record sequence (04 R135). -/
  seq : Nat
  deriving DecidableEq, Repr, Inhabited

/-- The write path: Tack table, writes in flight, swatches, staging and accumulators (R105-R136). -/
structure WritePath where
  /-- Tack table, in arrival order (04 R108). -/
  tack : List Tack
  /-- Next arrival sequence (04 R108). -/
  nextTack : Nat
  /-- Writing commands in flight, oldest first (04 R107). -/
  writes : List Wr
  /-- Zone Management Sends that wait, oldest first (04 R109). -/
  sends : List ZSend
  /-- Host-class swatches in use (04 R112). -/
  hostUsed : Nat
  /-- Reclamation-class swatches in use (04 R112). -/
  reclUsed : Nat
  /-- System-class swatches in use (04 R112). -/
  sysUsed : Nat
  /-- Committed sectors still in swatches, by tenant, namespace and LBA (04 R115). -/
  swatches : List (Nat × Sealed)
  /-- Committed sectors with no durable copy, in commit order: key and generation; the exposed-data count is their number (04 R124). -/
  expo : List (Nat × Nat)
  /-- Next order of satisfying conditions 1-3 (04 R123). -/
  readySeq : Nat
  /-- Partial chunks (04 R124). -/
  partials : List Partial
  /-- Ready chunks that wait for their accumulator, a log bolt or a relocation, oldest first (04 R126). -/
  ready : List ProgOp
  /-- Parity accumulators (04 R126). -/
  accums : List Accum
  /-- Staging region sectors in use, of 16,384 (04 R135). -/
  stagingUsed : Nat
  /-- Committed staged sectors whose copy has not finished, by tenant, namespace and LBA (04 R135). -/
  staging : List (Nat × Sealed)
  /-- Committed staged writes that still hold staging space (04 R135). -/
  stagedHeld : List Staged
  /-- Last record sequence (04 R135). -/
  recordSeq : Nat
  /-- Protected commit records of the staging journal, in order of their sequence (04 R135). -/
  records : List CommitRec
  /-- Newest durable log copy of a conventional sector: tenant and LBA to log location (04 R131). -/
  convMap : List (Nat × Nat)
  /-- Current log bolt of a tenant and the chunks placed in it (04 R132). -/
  logOpen : List (Nat × (Nat × Nat))
  /-- Reads that hold a swatch, by its sector's key and generation (04 R110). -/
  swPins : List ((Nat × Nat) × Nat)
  /-- Swatches freed while pinned, with the tenant that holds them: they return at the last unpin (04 R115). -/
  swFreed : List ((Nat × Nat) × Nat)
  /-- Tenants with a free event that their parked writes have not yet been retried on (04 R116). -/
  freed : List Nat
  deriving DecidableEq, Repr, Inhabited

/-- WritePath at reset. -/
def WritePath.reset : WritePath where
  tack := []
  nextTack := 1
  writes := []
  sends := []
  hostUsed := 0
  reclUsed := 0
  sysUsed := 0
  swatches := []
  expo := []
  readySeq := 1
  partials := []
  ready := []
  accums := []
  stagingUsed := 0
  staging := []
  stagedHeld := []
  recordSeq := 0
  records := []
  convMap := []
  logOpen := []
  swPins := []
  swFreed := []
  freed := []

/-- What became of one sector of a read (R140). -/
inductive SecRes where
  /-- Its content, decrypted and authenticated. -/
  | data (x : Sealed)
  /-- Zeros. -/
  | unwritten
  /-- A failing status. -/
  | failed (status : Nat)
  /-- Not yet served. -/
  | pending
  deriving DecidableEq, Repr, Inhabited

/-- A host Read in progress (R138-R140). -/
structure Rd where
  /-- Read command number (05 R140). -/
  id : Nat
  /-- Function (05 R140). -/
  fn : FnId
  /-- Submission queue (05 R140). -/
  sqid : Nat
  /-- Command identifier (05 R140). -/
  cid : Nat
  /-- Tenant (05 R140). -/
  tenant : Nat
  /-- Namespace (05 R138). -/
  nsid : Nat
  /-- First LBA (05 R140). -/
  lba : Nat
  /-- Class (05 R137). -/
  cls : ReadClass
  /-- Outcome of each sector (05 R140). -/
  res : List SecRes
  /-- Place on NAND of each sector's pinned copy, 0 for one served from elsewhere (04 R110). -/
  src : List Nat
  /-- Tack entries of overlapping earlier writes it waits for (01 R32). -/
  waitFor : List Nat
  /-- Host buffer address (05 R140). -/
  buf : Nat
  /-- Bolts it holds (04 R110). -/
  pins : List Nat
  /-- Swatches it holds, by sector key and generation (04 R110). -/
  swPins : List (Nat × Nat)
  deriving DecidableEq, Repr, Inhabited

/-- A darn in progress (R149). -/
structure Darn where
  /-- Darn number (05 R149). -/
  id : Nat
  /-- Kind (05 R147). -/
  kind : DarnKind
  /-- The read it replaces (05 R149). -/
  target : DieRead
  /-- Die of that read (05 R149). -/
  die : Nat
  /-- Component payloads still to be XORed (05 R149). -/
  todo : Nat
  /-- Components whose read has not been issued (05 R142). -/
  unissued : Nat
  /-- Group whose bucket it charged (05 R150). -/
  group : Nat
  /-- Made for a failed tag compare (05 R160). -/
  forTag : Bool
  deriving DecidableEq, Repr, Inhabited

/-- The darning bucket of a die group (R150-R153). -/
structure Bucket where
  /-- Level (05 R150). -/
  level : Int
  /-- Device time of that level (05 R150). -/
  atUs : Nat
  /-- Exhausted (05 R152). -/
  exhausted : Bool
  /-- Codewords charged below the floor (05 R150). -/
  overdraft : Nat
  /-- Codewords charged in the present window, by tenant (05 R151). -/
  charges : List (Nat × Nat)
  /-- In overdraft (05 R153). -/
  inOver : Bool
  deriving DecidableEq, Repr, Inhabited

/-- A sector at a Seam lane (R317, R318). -/
structure SeamJob where
  /-- Decryption for a read, otherwise encryption for a write (10 R318). -/
  isRead : Bool
  /-- Write arrival sequence or read command number (10 R317). -/
  cmd : Nat
  /-- Sector of the command (10 R317). -/
  sector : Nat
  /-- Payload of a read (10 R318). -/
  payload : Sealed
  /-- The payload came from a recovery darn (05 R160). -/
  viaDarn : Bool
  /-- That darn was made for a failed tag compare (05 R160). -/
  forTag : Bool
  /-- Decoded with a nonzero corrected-bit count or softly (05 R160). -/
  fixed : Bool
  /-- Latest start time (10 R317). -/
  lst : Nat
  /-- Die it was read from, 1,024 for none (05 R160). -/
  die : Nat
  /-- The sub-read it came from (05 R160). -/
  src : DieRead
  deriving DecidableEq, Repr, Inhabited

/-- The read path: reads in progress, darns, decoders and lanes (R137-R161, R317). -/
structure ReadPath where
  /-- Host Reads in progress (05 R140). -/
  reads : List Rd
  /-- Darns in progress (05 R149). -/
  darns : List Darn
  /-- Mandatory and recovery darns that wait to start (05 R148). -/
  queuedDarns : List Darn
  /-- Darns started since the last one-second sample, by group (15 R492). -/
  darnSec : List (Nat × Nat)
  /-- Sub-reads in decoding: OP_ID, codewords not yet decoded and the highest corrected-bit count so far (15 R492). -/
  corr : List (Nat × (Nat × Nat))
  /-- Next darn number (05 R149). -/
  nextDarn : Nat
  /-- Codewords waiting for a decode lane, by die (05 R155). -/
  decodes : List (Nat × DieRead)
  /-- Codewords in a decode lane, by lane and die: 64 hard lanes, then 16 soft lanes (01 R18). -/
  ldpc : List (Nat × (Nat × DieRead))
  /-- Die reads issued, by tenant: its die-time accounting (05 R151). -/
  dieTime : List (Nat × Nat)
  /-- Darning buckets that differ from full, by group (05 R150). -/
  buckets : List (Nat × Bucket)
  /-- Start of the present 10 ms window (05 R151). -/
  windowUs : Nat
  /-- C2h THRESH_US (05 R154). -/
  threshUs : Nat
  /-- C2h PCT (05 R154). -/
  pct : Nat
  /-- C2h DEPTH (05 R154). -/
  depth : Nat
  /-- Sectors waiting for a Seam lane (10 R317). -/
  seamQ : List SeamJob
  /-- Sectors in a Seam lane, by lane (10 R317). -/
  lanes : List (Nat × SeamJob)
  deriving DecidableEq, Repr, Inhabited

/-- ReadPath at reset. -/
def ReadPath.reset : ReadPath where
  reads := []
  darns := []
  queuedDarns := []
  darnSec := []
  corr := []
  nextDarn := 1
  decodes := []
  ldpc := []
  dieTime := []
  buckets := []
  windowUs := 0
  threshUs := 200
  pct := 5
  depth := 480
  seamQ := []
  lanes := []

/-- Reclamation items (R168). -/
inductive ItemKind where
  /-- Log-bolt merge of a region bolt. -/
  | merge (tenant x victim : Nat)
  /-- Normal refresh. -/
  | refreshNormal
  /-- Urgent refresh. -/
  | refreshUrgent
  /-- Degraded relocation. -/
  | degraded
  /-- Wear-levelling move. -/
  | wear
  /-- Media patrol sample. -/
  | patrol
  /-- Column rebuild. -/
  | rebuild (column unit row : Nat)
  /-- Open-stripe parity rebuild at boot. -/
  | parityRebuild (half : Nat)
  deriving DecidableEq, Repr, Inhabited

/-- Urgency of a reclamation item (R168). -/
inductive Urgency where
  /-- 1 in 8. -/
  | background
  /-- 1 in 2. -/
  | foreground
  /-- Ahead of host work. -/
  | urgent
  deriving DecidableEq, Repr, Inhabited

/-- A queued or running reclamation item (R168, R169). -/
structure Item where
  /-- Number, in queueing order (06 R168). -/
  id : Nat
  /-- What it does (06 R168). -/
  kind : ItemKind
  /-- Bolt acted on (source) (06 R168). -/
  bolt : Nat
  /-- Urgency (06 R168). -/
  urg : Urgency
  /-- Device time of queueing (06 R168). -/
  atUs : Nat
  /-- Running (06 R169). -/
  running : Bool
  /-- Target bolt while running (06 R179). -/
  target : Nat
  /-- Target programs of the row being copied that have not yet passed (06 R179). -/
  left : Nat
  /-- Sectors still to be copied: offset in the target and the place of the recorded source (06 R179). -/
  snapshot : List (Nat × Nat)
  /-- Sectors of the row being copied whose program has not been queued (06 R172). -/
  cur : List (Nat × Nat)
  /-- Places of those among them that have been read (06 R172). -/
  got : List Nat
  /-- Rebuild: the failed program, made again once the copy has ended, and the column's later ones (06 R190). -/
  held : List ProgOp
  /-- Next row to be copied (06 R172). -/
  row : Nat
  /-- Rows to be copied (06 R179). -/
  rows : Nat
  /-- Its last request for swatches has failed (04 R114, 11 R375). -/
  short : Bool
  deriving DecidableEq, Repr, Inhabited

/-- Reclamation, refresh, retirement and their counters (R166-R197). -/
structure Reclaim where
  /-- Items queued or running (06 R168). -/
  items : List Item
  /-- Sectors read for items and not yet taken up: item, place and success (06 R172). -/
  inbox : List (Nat × (Nat × Bool))
  /-- Next item number (06 R168). -/
  nextItem : Nat
  /-- 0 NORMAL, 1 BACKGROUND, 2 FOREGROUND (06 R177). -/
  logState : Nat
  /-- Log-throttled tenants, with the time their throttling began (06 R181). -/
  throttled : List (Nat × Nat)
  /-- C3h LOG_LOW (06 R195). -/
  logLow : Nat
  /-- C3h LOG_HIGH (06 R195). -/
  logHigh : Nat
  /-- C3h ERASE_LOW (06 R195). -/
  eraseLow : Nat
  /-- C3h ERASE_HIGH (06 R195). -/
  eraseHigh : Nat
  /-- C3h REFRESH_BITS (06 R195). -/
  refreshBits : Nat
  /-- C3h IDLE_MS (06 R195). -/
  idleMs : Nat
  /-- C3h MERGE_AGE_S (06 R195). -/
  mergeAgeS : Nat
  /-- INTENTS_REPLAYED (06 R197). -/
  intentsReplayed : Nat
  /-- MERGES_DONE (06 R197). -/
  mergesDone : Nat
  /-- MERGES_ABANDONED (06 R197). -/
  mergesAbandoned : Nat
  /-- REFRESHES_DONE (06 R197). -/
  refreshesDone : Nat
  /-- DEGRADED_MOVES (06 R197). -/
  degradedMoves : Nat
  /-- WEAR_MOVES (06 R197). -/
  wearMoves : Nat
  /-- RETIRED_ERASE, lifetime (06 R197). -/
  retiredErase : Nat
  /-- RETIRED_PROGRAM, lifetime (06 R197). -/
  retiredProgram : Nat
  /-- ERASES_DONE (06 R197). -/
  erasesDone : Nat
  /-- URGENT_PROMOTIONS (06 R197). -/
  urgentPromotions : Nat
  /-- THROTTLE_WAIT_US (06 R197). -/
  throttleWaitUs : Nat
  /-- Available Spare is below 10 (06 R193). -/
  spareLow : Bool
  /-- Device time at which a host operation was last queued, or left a queue, at a die of a group (06 R177). -/
  hostUs : List (Nat × Nat)
  deriving DecidableEq, Repr, Inhabited

/-- Reclaim at reset. -/
def Reclaim.reset : Reclaim where
  items := []
  inbox := []
  nextItem := 1
  logState := 0
  throttled := []
  logLow := 16
  logHigh := 48
  eraseLow := 4
  eraseHigh := 12
  refreshBits := 120
  idleMs := 5
  mergeAgeS := 30
  intentsReplayed := 0
  mergesDone := 0
  mergesAbandoned := 0
  refreshesDone := 0
  degradedMoves := 0
  wearMoves := 0
  retiredErase := 0
  retiredProgram := 0
  erasesDone := 0
  urgentPromotions := 0
  throttleWaitUs := 0
  spareLow := false
  hostUs := []

/-- States of a role (R203). -/
inductive RoleSt where
  /-- ACTIVE. -/
  | active
  /-- ADOPTING. -/
  | adopting
  /-- NONE. -/
  | none
  deriving DecidableEq, Repr, Inhabited

/-- One role table entry (R203). -/
structure Role where
  /-- Bobbin address of the owner (07 R203). -/
  owner : Nat
  /-- Epoch (07 R203). -/
  epoch : Nat
  /-- State (07 R203). -/
  st : RoleSt
  /-- Moves since power-on (07 R230). -/
  moves : Nat
  deriving DecidableEq, Repr, Inhabited

/-- States of a bobbin (R230). -/
inductive BobSt where
  /-- Owns a role. -/
  | owns
  /-- Spare ready. -/
  | spare
  /-- Retired. -/
  | retired
  /-- Reloading. -/
  | reloading
  /-- Not populated. -/
  | absent
  deriving DecidableEq, Repr, Inhabited

/-- One bobbin (R204, R208, R230). -/
structure Bobbin where
  /-- State (07 R230). -/
  st : BobSt
  /-- Role held (07 R204). -/
  role : Option Nat
  /-- Epoch held (07 R204). -/
  epoch : Nat
  /-- Fenced (07 R205). -/
  fenced : Bool
  /-- Last fault cause (07 R230). -/
  cause : Nat
  /-- Device times of its cut-offs in the last second (07 R208). -/
  cutoffs : List Nat
  /-- Role it has handed over and whose move is still under way (07 R212). -/
  gave : Option Nat
  /-- Winner and loser of the last contest between each two senders at its input (07 R207). -/
  won : List (Nat × Nat)
  deriving DecidableEq, Repr, Inhabited

/-- A sender's outstanding request (R206), which holds one response slot in the sender's input (R199). -/
structure Req where
  /-- Sender (07 R200). -/
  src : Nat
  /-- OP_ID (07 R200). -/
  opId : Nat
  /-- VERB (07 R201). -/
  verb : Nat
  /-- Receiver last sent to (07 R200). -/
  dest : Nat
  /-- ROLE (07 R200). -/
  role : Nat
  /-- EPOCH it was last sent under (07 R200). -/
  epoch : Nat
  /-- OBJECT (07 R200). -/
  object : BitVec 128
  /-- Held until the role's EPOCH_ADVANCE (07 R206). -/
  held : Bool
  /-- DATA_READY has been received (07 R201). -/
  ready : Bool
  /-- Number of the die operation it was queued as, 0 while there is none (07 R210). -/
  op : Nat
  /-- Highest corrected-bit count of its codewords (07 R201). -/
  bits : Nat
  /-- Its final response has been sent (07 R205). -/
  answered : Bool
  deriving DecidableEq, Repr, Inhabited

/-- A message a bobbin or the supervisor has put on the Weave. -/
structure BMsg where
  /-- DEST (07 R200). -/
  dest : Nat
  /-- SRC (07 R200). -/
  src : Nat
  /-- VERB (07 R201). -/
  verb : Nat
  /-- ROLE (07 R200). -/
  role : Nat
  /-- EPOCH (07 R200). -/
  epoch : Nat
  /-- OP_ID (07 R200). -/
  opId : Nat
  /-- OBJECT (07 R200). -/
  object : BitVec 128
  deriving DecidableEq, Repr, Inhabited

/-- Bobbins, roles, the Weave's messages and the Tailor pairs (R198-R220). -/
structure Engine where
  /-- Role table entries that differ from the home owner at epoch 1 (07 R203). -/
  roles : List (Nat × Role)
  /-- Bobbin records that differ from the home placement (07 R203). -/
  bobbins : List (Nat × Bobbin)
  /-- Outstanding requests of the senders (07 R206). -/
  reqs : List Req
  /-- Requests on the request plane, each within its sender's credit at its receiver, oldest first (07 R199). -/
  msgs : List BMsg
  /-- Requests that their senders keep for want of credit, oldest first (07 R199). -/
  unsent : List BMsg
  /-- Responses on the response plane, oldest first (07 R199). -/
  rsps : List BMsg
  /-- Broadcasts of the role supervisor, oldest first (07 R201). -/
  ctrl : List BMsg
  /-- What the reads of READ messages have put at their BUFFER: payloads by address (07 R202). -/
  filled : List (Nat × Payload)
  /-- A round of liveness probes has been sent (07 R208). -/
  probed : Bool
  /-- Bobbins retired in the engine health record (07 R203). -/
  retiredBobbins : List Nat
  /-- Tailor pairs retired in the engine health record (07 R218). -/
  retiredPairs : List Nat
  /-- ADOPTIONS (07 R230). -/
  adoptions : Nat
  /-- BOUNCES (07 R230). -/
  bounces : Nat
  /-- PAIR_TAKEOVERS (07 R230). -/
  takeovers : Nat
  /-- Pair serving set M; MBX_STATUS.ACTIVE_PAIR (07 R214). -/
  setM : Nat
  /-- Pair serving set A (07 R214). -/
  setA : Nat
  /-- Pair serving set H (07 R214). -/
  setH : Nat
  /-- PAIR_STATE of pairs 0-3 (07 R230). -/
  pairs : List Nat
  /-- Traps of the last 24 h of device time, which runs on without power: pair and device time (07 R218). -/
  trapTimes : List (Nat × Nat)
  /-- The last serviceable pair is retired (07 R220). -/
  dead : Bool
  deriving DecidableEq, Repr, Inhabited

/-- Engine at reset. -/
def Engine.reset : Engine where
  roles := []
  bobbins := []
  reqs := []
  msgs := []
  unsent := []
  rsps := []
  ctrl := []
  filled := []
  probed := false
  retiredBobbins := []
  retiredPairs := []
  adoptions := 0
  bounces := 0
  takeovers := 0
  setM := 0
  setA := 1
  setH := 2
  pairs := [0, 0, 0, 1]
  trapTimes := []
  dead := false

/-- The stitch gauge and the working pace (R23-R28, R222). -/
structure Gauge where
  /-- Last valid readings, newest first, at most 8 (01 R26). -/
  last8 : List Nat
  /-- PACE_NOW (07 R230). -/
  now : Nat
  /-- PACE_MIN (07 R230). -/
  minR : Nat
  /-- PACE_MAX (07 R230). -/
  maxR : Nat
  /-- Consecutive windows below the floor, at most 8 (01 R28). -/
  below : Nat
  /-- Bounds no longer guaranteed (01 R28). -/
  flag : Bool
  /-- The page's GAUGE_FAULT bit: a gauge fault since then (16 R525). -/
  seen : Bool
  /-- Working pace held for a VCORE step (01 R27). -/
  hold : Option Nat
  /-- Windows measured at the new level (01 R27). -/
  newWindows : Nat
  /-- GAUGE_DISCARDS (07 R222). -/
  discards : Nat
  /-- Consecutive discarded readings (07 R222). -/
  discardRun : Nat
  /-- Consecutive valid readings (07 R222). -/
  validRun : Nat
  /-- GAUGE_FAULT (07 R222). -/
  fault : Bool
  deriving DecidableEq, Repr, Inhabited

/-- Gauge at reset. -/
def Gauge.reset : Gauge where
  last8 := []
  now := 0
  minR := 0
  maxR := 0
  below := 0
  flag := false
  seen := false
  hold := none
  newWindows := 0
  discards := 0
  discardRun := 0
  validRun := 0
  fault := false

/-- A bus transaction (R223). -/
inductive BusOp where
  /-- Command and address cycles of a read. -/
  | readCmd
  /-- Data-out. -/
  | dataOut
  /-- Data-in. -/
  | dataIn
  /-- Command and address cycles of a program. -/
  | progCmd
  /-- Program confirm. -/
  | progConfirm
  /-- Command and address cycles of an erase. -/
  | eraseCmd
  /-- Erase confirm. -/
  | eraseConfirm
  /-- Erase suspend. -/
  | suspend
  /-- Erase resume. -/
  | resume
  /-- Status read. -/
  | status
  /-- Recovery status sweep of a role's dies (R209). -/
  | sweep
  /-- RESET (FFh) of a die for recovery (R201, R211). -/
  | reset
  /-- Periodic interface check. -/
  | check
  deriving DecidableEq, Repr, Inhabited

/-- A request raised at a channel's bus arbiter (R223). -/
structure BusReq where
  /-- Requester: chip enable 0-3, or 4 for the scrubber port (07 R223). -/
  who : Nat
  /-- Priority (07 R224). -/
  level : BusLevel
  /-- Die of the transaction (07 R223). -/
  die : Nat
  /-- Transaction (07 R223). -/
  what : BusOp
  /-- Bobbin that raised it (07 R226). -/
  bobbin : Nat
  deriving DecidableEq, Repr, Inhabited

/-- One channel's bus arbiter (R223-R228). -/
structure Chan where
  /-- Requests raised, oldest first (07 R223). -/
  reqs : List BusReq
  /-- Transaction in progress (07 R227). -/
  granted : Option BusReq
  /-- Grant decided for when it ends (07 R227). -/
  decided : Option BusReq
  /-- Grants decided in the present window (07 R225). -/
  window : Nat
  /-- High grants in the window (07 R225). -/
  highs : Nat
  /-- High requests have been masked in the window (07 R225). -/
  masked : Bool
  /-- Last requester granted at recovery level (07 R224). -/
  rrRec : Nat
  /-- Last requester granted at high level (07 R224). -/
  rrHigh : Nat
  /-- Last requester granted at normal level (07 R224). -/
  rrNorm : Nat
  /-- HP_QUOTA applied to the present window (07 R229). -/
  quota : Nat
  /-- The grant in progress is null (07 R227). -/
  idleNull : Bool
  deriving DecidableEq, Repr, Inhabited

/-- The channel bus arbiters and Feature C4h (R223-R229). -/
structure Channels where
  /-- Arbiters that differ from an idle one, by channel (07 R223). -/
  table : List (Nat × Chan)
  /-- C4h HP_QUOTA (07 R229). -/
  hpQuota : Nat
  /-- C4h HOLD (07 R229). -/
  hold : Nat
  /-- HOLD_CUTOFFS (07 R230). -/
  cutoffs : Nat
  /-- NULL_GRANTS (07 R230). -/
  nullGrants : Nat
  /-- QUOTA_MASKS (07 R230). -/
  quotaMasks : Nat
  deriving DecidableEq, Repr, Inhabited

/-- Channels at reset. -/
def Channels.reset : Channels where
  table := []
  hpQuota := 48
  hold := 16
  cutoffs := 0
  nullGrants := 0
  quotaMasks := 0

/-- A vector block (R269, R271). -/
structure VecBlock where
  /-- Its slot of kind 5 (09 R269). -/
  handle : Nat
  /-- First entry (09 R303). -/
  base : Nat
  /-- Entries (09 R303). -/
  count : Nat
  /-- TIME_CAP (09 R271). -/
  timeCap : Nat
  /-- FORCE_CD (09 R271). -/
  forceCd : Bool
  /-- MIN_GAP_US (09 R271). -/
  minGapUs : Nat
  deriving DecidableEq, Repr, Inhabited

/-- A granted queue pair (R238, R300). -/
structure Qpair where
  /-- Its slot of kind 2 (02 R56). -/
  slot : Nat
  /-- Queue identifier (09 R301). -/
  qid : Nat
  /-- In force (08 R240). -/
  usable : Bool
  /-- Revoked; returns at the next controller reset (09 R302). -/
  revoked : Bool
  deriving DecidableEq, Repr, Inhabited

/-- A QoS token bucket (R273), in millionths of a token. -/
structure TokBucket where
  /-- Level (09 R273). -/
  level : Int
  /-- Device time of that level (09 R273). -/
  atUs : Nat
  deriving DecidableEq, Repr, Inhabited

/-- A placement handle (R90). -/
structure Placement where
  /-- Index (03 R90). -/
  index : Nat
  /-- Die groups it names (03 R90). -/
  mask : List Nat
  /-- FALLBACK_COUNT (03 R103). -/
  fallback : Nat
  deriving DecidableEq, Repr, Inhabited

/-- One region bolt index of NSID 2 that a merge has bound (R85, R86). -/
structure RegionBolt where
  /-- Index (03 R85). -/
  x : Nat
  /-- Bolt (03 R86). -/
  bolt : Nat
  deriving DecidableEq, Repr, Inhabited

/-- States of a key slot (R321). -/
inductive KeySt where
  /-- EMPTY. -/
  | empty
  /-- WRITE. -/
  | write
  /-- READ. -/
  | read
  deriving DecidableEq, Repr, Inhabited

/-- One key slot of a tenant (R321) with its key RAM entry and its key record. -/
structure KeySlot where
  /-- State (10 R321). -/
  st : KeySt
  /-- Key RAM entry (10 R320). -/
  ram : Option (BitVec 256)
  /-- Valid key record: the key and the key-store key that wraps it (10 R334). -/
  record : Option (BitVec 256 × Nat)
  /-- Its record could not be invalidated; done at the next boot (10 R345). -/
  stale : Bool
  /-- CONV_SECTORS (10 R323). -/
  conv : Nat
  deriving DecidableEq, Repr, Inhabited

/-- A QoS contract (R272). -/
structure QosTerms where
  /-- CAP_IOPS (09 R272). -/
  capIops : Nat
  /-- CAP_BW (09 R272). -/
  capBw : Nat
  /-- FLOOR_IOPS (09 R272). -/
  floorIops : Nat
  /-- FLOOR_BW (09 R272). -/
  floorBw : Nat
  /-- BURST_MS (09 R272). -/
  burstMs : Nat
  /-- WEIGHT (09 R272). -/
  weight : Nat
  deriving DecidableEq, Repr, Inhabited

/-- The yardage counters of one epoch (R500). -/
structure Meters where
  /-- Counters in the order of R508 (15 R500). -/
  v : List Nat
  deriving DecidableEq, Repr, Inhabited

/-- A tenant (R264-R305). -/
structure Tenant where
  /-- Function bound (09 R264). -/
  fn : Option FnId
  /-- FROZEN (09 R267). -/
  frozen : Bool
  /-- QUARANTINED (09 R267). -/
  quarantined : Bool
  /-- Counted violations since the last release (09 R280). -/
  violations : Nat
  /-- Its quarantine threshold (16 R513). -/
  threshold : Nat
  /-- The threshold was set for this tenant (16 R513). -/
  ownThreshold : Bool
  /-- Swatch quota (04 R113). -/
  swatchQuota : Nat
  /-- Host-class swatches held (09 R295). -/
  swatchHeld : Nat
  /-- Active-zone allocation (04 R120). -/
  activeZones : Nat
  /-- QoS contract (09 R272). -/
  contract : QosTerms
  /-- CAP_IOPS, CAP_BW, FLOOR_IOPS and FLOOR_BW buckets (09 R273). -/
  buckets : List TokBucket
  /-- Granted queue pairs, by identifier (08 R238). -/
  qpairs : List Qpair
  /-- Vector blocks (09 R269). -/
  blocks : List VecBlock
  /-- Die-group set (03 R88). -/
  groups : List Nat
  /-- Exclusive mode (03 R88). -/
  exclusive : Bool
  /-- Bolt quota Q (03 R80). -/
  quota : Nat
  /-- Region bolts of NSID 2 (03 R85). -/
  conv : Nat
  /-- Live placement handles, handle 0 first (03 R90). -/
  placements : List Placement
  /-- Zones that differ from an Empty zone of generation zoneGen, by index (03 R80). -/
  zones : List (Nat × Zone)
  /-- Generation of a zone with no entry (03 R83). -/
  zoneGen : Nat
  /-- Region bolts bound (03 R86). -/
  regions : List RegionBolt
  /-- Key slots 0 and 1 (10 R321). -/
  keys : List KeySlot
  /-- LBA format of its namespaces (03 R94). -/
  lbaf : Nat
  /-- Staging limit in 4 KiB units, 0 while staging is off (04 R134). -/
  stagingLimit : Nat
  /-- FREEZE_SEQ (09 R288). -/
  freezeSeq : Nat
  /-- Last write sequence of NSID 2 (10 R314). -/
  writeSeq : Nat
  /-- Region generation (10 R315). -/
  regionGen : Nat
  /-- Changed Zone List (log BFh) (04 R120). -/
  zoneList : List Nat
  /-- Changed Namespace List (log 04h) (08 R259). -/
  nsChanged : List Nat
  /-- Log C4h counters, in the order of R165 (05 R165). -/
  c4 : List Nat
  /-- Log C8h counters, in the order of R341 (10 R341). -/
  c8 : List Nat
  /-- 512-byte blocks read and written, reads, writes, busy minutes, error entries, media errors (08 R260). -/
  smart : List Nat
  /-- Part of the present busy minute (08 R260). -/
  smartBusyUs : Nat
  /-- Number of the open yardage epoch (15 R502). -/
  epochNo : Nat
  /-- Counters of the open epoch, in the order of R508 (15 R500). -/
  meters : List Nat
  /-- Device time at which it opened (15 R502). -/
  epochStartUs : Nat
  /-- Device time at which it ends (15 R502). -/
  epochEndUs : Nat
  /-- LENGTH_S of the open epoch (15 R502). -/
  epochLenS : Nat
  /-- ALIGN of the open epoch (15 R502). -/
  epochAlign : Bool
  /-- HOST_STEP of the open epoch (15 R503). -/
  hostStep : Bool
  /-- LENGTH_S of the next epoch to open (15 R507). -/
  nextLenS : Nat
  /-- ALIGN of the next epoch to open (15 R507). -/
  nextAlign : Bool
  /-- Saved LENGTH_S and ALIGN, if any (15 R507). -/
  savedEpoch : Option (Nat × Bool)
  /-- Counters of the open epoch as last saved (15 R503). -/
  savedMeters : List Nat
  /-- Device time from which ACTIVE_US counts while a command is outstanding (15 R500). -/
  activeFrom : Option Nat
  /-- Closed epochs kept, newest first: number, then FLAGS, END_DEVICE_US, END_HOST_MS, LENGTH_MS and the six counters (15 R503). -/
  closedEpochs : List (Nat × List Nat)
  /-- Pattern Book record: non-zero cells, buckets by histogram x 64 + bucket, counters by 1,024 + index (15 R497). -/
  pb : List (Nat × Nat)
  /-- Pattern Book record as of the last map checkpoint (15 R497). -/
  savedPb : List (Nat × Nat)
  /-- Host bytes, media bytes and media bytes erased (03 R97). -/
  fdp : List Nat
  /-- Format state: 0 idle, 1 running, 2 done, 3 failed (13 R447). -/
  formatting : Nat
  /-- LBA format the running format sets (13 R438). -/
  formatLbaf : Nat
  /-- Bolts done by the running format (13 R447). -/
  formatDone : Nat
  /-- Bolts the running format has to do (13 R447). -/
  formatTotal : Nat
  /-- SES of the last format (13 R438). -/
  formatSes : Nat
  /-- Namespaces of the last format: 1 NSID 1, 2 NSID 2, 3 both (13 R446). -/
  formatNs : Nat
  /-- The running format still drains its namespaces (13 R438). -/
  formatDrain : Bool
  /-- How the Hem programs of the running format answer (12 R382). -/
  formatOk : Bool
  /-- Released bolts that the running format erases before it completes (13 R438). -/
  formatBolts : List Nat
  /-- FORMAT_START that waits for the drain (13 R446). -/
  formatMbx : Option MbxCmd
  /-- NVMe command that waits for the format (13 R438). -/
  formatCmd : Option (FnId × Nat)
  /-- Device time at which a freeze began (09 R285). -/
  freezeUs : Nat
  /-- Its drain limit (09 R285). -/
  freezeLimitMs : Nat
  /-- A freeze is draining (09 R284). -/
  freezing : Bool
  /-- TENANT_FREEZE that waits for the drain (09 R306). -/
  freezeCmd : Option MbxCmd
  /-- CONV_REGION_SET that waits for writes to the range it discards (03 R104). -/
  convCmd : Option MbxCmd
  deriving DecidableEq, Repr, Inhabited

/-- A submission entry in a prefetch slot (R236). -/
structure Fetched where
  /-- The entry (08 R236). -/
  sqe : Sqe
  /-- Its index in the queue (08 R236). -/
  index : Nat
  /-- Device time at which its doorbell landed (08 R245). -/
  landedUs : Nat
  /-- Promoted to Urgent (08 R246). -/
  urgent : Bool
  /-- Latest start time, in µs (08 R247). -/
  lst : Nat
  /-- Time that its fetch waited for the host (08 R247, 15 R492). -/
  hostUs : Nat
  /-- The part of that time which lay before the end of an exit from PS3 or PS4 (14 R457). -/
  napUs : Nat
  deriving DecidableEq, Repr, Inhabited

/-- States of a submission queue in intake (R237). -/
inductive QSt where
  /-- ACTIVE. -/
  | active
  /-- PARKED. -/
  | parked
  /-- STOPPED. -/
  | stopped
  /-- HELD. -/
  | held
  /-- DELETING. -/
  | deleting
  deriving DecidableEq, Repr, Inhabited

/-- A submission queue (R236, R237, R239). -/
structure Sq where
  /-- Identifier (08 R239). -/
  qid : Nat
  /-- PRP1 (08 R239). -/
  base : Nat
  /-- Entries (08 R239). -/
  size : Nat
  /-- Completion queue (08 R239). -/
  cqid : Nat
  /-- QPRIO (08 R239). -/
  prio : Nat
  /-- Recorded tail (08 R237). -/
  tail : Nat
  /-- Fetch pointer (08 R236). -/
  fetchPtr : Nat
  /-- State (08 R237). -/
  st : QSt
  /-- Prefetch slots, oldest first (08 R236). -/
  pre : List Fetched
  /-- Entries of a fetch in flight (08 R236). -/
  fetching : Nat
  /-- Fetches in flight, each with a fetch tag (08 R236). -/
  tags : Nat
  /-- Device times at which the fetches in flight were issued, oldest first (08 R236). -/
  asked : List Nat
  /-- Fetches in flight whose entries a freeze has returned: discarded on arrival (09 R284). -/
  stale : Nat
  /-- Entries recorded and not yet received, oldest first: how many one doorbell made visible, and the device time of its landing (08 R245). -/
  landings : List (Nat × Nat)
  /-- Place in the capture order of the oldest doorbell that still waits to be issued (08 R234, R235). -/
  capture : Nat
  /-- Grants left of the present arbitration burst (08 R242). -/
  burst : Nat
  deriving DecidableEq, Repr, Inhabited

/-- A completion of an NVMe command. -/
structure Cqe where
  /-- Submission queue (08 R241). -/
  sqid : Nat
  /-- Command identifier (08 R241). -/
  cid : Nat
  /-- Status type and code: type x 256 + code (08 R241). -/
  status : Nat
  /-- DNR (08 R564). -/
  dnr : Bool
  /-- CRD (08 R564). -/
  crd : Nat
  /-- Dword 0 (08 R241). -/
  dw0 : BitVec 32
  /-- Dword 1 (08 R241). -/
  dw1 : BitVec 32
  deriving DecidableEq, Repr, Inhabited

/-- A completion queue (R239, R241). -/
structure Cq where
  /-- Identifier (08 R239). -/
  qid : Nat
  /-- PRP1 (08 R239). -/
  base : Nat
  /-- Entries (08 R239). -/
  size : Nat
  /-- IEN (08 R239). -/
  ien : Bool
  /-- Interrupt vector (08 R239). -/
  iv : Nat
  /-- Last head written by the host (08 R241). -/
  head : Nat
  /-- Next entry the device writes (08 R241). -/
  tail : Nat
  /-- Phase of the next entry (08 R241). -/
  phase : Bool
  /-- Completions waiting for space, in order (08 R241). -/
  waiting : List Cqe
  deriving DecidableEq, Repr, Inhabited

/-- One implemented MSI-X table entry with its PBA bit (R269). -/
structure MsixEntry where
  /-- Message Address (09 R269). -/
  addrLo : BitVec 32
  /-- Message Upper Address (09 R269). -/
  addrHi : BitVec 32
  /-- Message Data (09 R269). -/
  data : BitVec 32
  /-- Mask bit (09 R269). -/
  mask : Bool
  /-- PBA bit (09 R269). -/
  pba : Bool
  /-- Completions not yet signalled (09 R270). -/
  unsig : Nat
  /-- Device time of the first of them (09 R270). -/
  firstUs : Nat
  /-- Device time of the last message on it (09 R271). -/
  lastUs : Option Nat
  /-- A message waits for the gap of MIN_GAP_US (09 R271). -/
  gap : Bool
  deriving DecidableEq, Repr, Inhabited

/-- A granted command that has not completed (R255), with what its completion samples (R492). -/
structure Outst where
  /-- Submission queue (08 R255). -/
  sqid : Nat
  /-- Command identifier (08 R255). -/
  cid : Nat
  /-- Device time at which its doorbell landed (08 R247). -/
  landedUs : Nat
  /-- Class: 0 Urgent, 1 High, 2 Medium, 3 Low (08 R247). -/
  cls : Nat
  /-- 0 Read of 1-8 sectors, 1 longer Read, 2 writing command, 3 other I/O, 4 admin (15 R492). -/
  kind : Nat
  /-- A read that darned (15 R492). -/
  darned : Bool
  /-- A staged write (15 R492). -/
  staged : Bool
  /-- Index of its entry in the queue (09 R283). -/
  index : Nat
  /-- Device time of its promotion to Urgent (08 R246). -/
  promotedUs : Option Nat
  /-- Time for which it has waited for the host (08 R247, 15 R492). -/
  hostUs : Nat
  /-- The part of that time which lay before the end of an exit from PS3 or PS4 (14 R457). -/
  napUs : Nat
  deriving DecidableEq, Repr, Inhabited

/-- One Error Information entry (R563). -/
structure ErrEntry where
  /-- Error count (08 R563). -/
  count : Nat
  /-- SQID (08 R563). -/
  sqid : Nat
  /-- CID (08 R563). -/
  cid : Nat
  /-- Status (08 R563). -/
  status : Nat
  /-- NSID (08 R563). -/
  nsid : BitVec 32
  /-- LBA (08 R563). -/
  lba : Nat
  deriving DecidableEq, Repr, Inhabited

/-- One entry of log C7h (R262). -/
structure VEvent where
  /-- AEI (08 R262). -/
  aei : Nat
  /-- Die group, or 0xFFFF (08 R262). -/
  group : Nat
  /-- Tenant handle, or 0 (08 R262). -/
  tenant : Nat
  /-- Device time (08 R262). -/
  us : Nat
  deriving DecidableEq, Repr, Inhabited

/-- One PCIe function: its controller registers, features, interrupts and queues (R231, R258, R263, R269). -/
structure Fn where
  /-- Bus Master Enable (09 R263). -/
  bme : Bool
  /-- Memory Space Enable (09 R263). -/
  mse : Bool
  /-- MSI-X Enable (09 R269). -/
  msixEn : Bool
  /-- Function Mask (09 R269). -/
  fmask : Bool
  /-- CC (08 R231). -/
  cc : BitVec 32
  /-- CSTS.RDY (08 R562). -/
  ready : Bool
  /-- CSTS.CFS (08 R239). -/
  cfs : Bool
  /-- CSTS.SHST (16 R523). -/
  shst : Nat
  /-- A write of CC.EN = 1 is held until boot has finished (08 R562). -/
  enHeld : Bool
  /-- AQA (08 R231). -/
  aqa : BitVec 32
  /-- ASQ (08 R231). -/
  asq : BitVec 64
  /-- ACQ (08 R231). -/
  acq : BitVec 64
  /-- Entries of granted blocks, by index (09 R269). -/
  msix : List (Nat × MsixEntry)
  /-- Submission queues, the admin queue included (08 R236). -/
  sqs : List Sq
  /-- Completion queues, the admin queue included (08 R241). -/
  cqs : List Cq
  /-- Granted and uncompleted commands (08 R255). -/
  granted : List Outst
  /-- Delete I/O SQ commands that wait: queue and CID (08 R254). -/
  deleting : List (Nat × Nat)
  /-- Outstanding Asynchronous Event Requests, by CID (08 R256). -/
  aers : List Nat
  /-- Events held for a request: type, information and log page (08 R250). -/
  held : List (Nat × (Nat × Nat))
  /-- Events masked until their log page is read: type x 256, plus the information of a notice (08 R250). -/
  masked : List Nat
  /-- Log 01h, newest first (08 R563). -/
  errs : List ErrEntry
  /-- Entries written, lifetime (08 R563). -/
  errCount : Nat
  /-- Log C7h entries, oldest first (08 R262). -/
  vevents : List VEvent
  /-- Log C7h EVENTS (08 R262). -/
  vcount : Nat
  /-- A vendor event has been raised and not yet acknowledged (08 R262). -/
  vpend : Bool
  /-- Feature 01h (08 R242). -/
  arb : BitVec 32
  /-- Feature 05h TLER (08 R258). -/
  tler : BitVec 16
  /-- Feature 08h: THR and TIME (09 R270). -/
  coal : BitVec 16
  /-- Vectors whose Feature 09h CD is set (09 R270). -/
  cds : List Nat
  /-- Feature 0Bh (08 R258). -/
  aec : BitVec 32
  /-- Feature 0Eh: timestamp set and the device time then (08 R258). -/
  tsSet : Option (Nat × Nat)
  /-- Feature 16h ACRE (08 R258). -/
  acre : Bool
  /-- Feature C6h (08 R262). -/
  vec : BitVec 3
  /-- Last I/O queue taken in turn, by class (08 R242). -/
  rrIo : List Nat
  /-- Grants left in the present weighted round: High, Medium, Low (08 R242). -/
  rrCls : List Nat
  deriving DecidableEq, Repr, Inhabited

/-- A snapshot (R286). -/
structure Snap where
  /-- Slot of kind 6 (02 R56). -/
  slot : Nat
  /-- Tenant slot (09 R286). -/
  tenant : Nat
  /-- Tenant handle (09 R286). -/
  handle : Nat
  /-- FREEZE_SEQ (09 R286). -/
  seq : Nat
  /-- Function at capture (09 R287). -/
  fnId : FnId
  /-- V (09 R287). -/
  vectors : Nat
  /-- P (09 R287). -/
  pairs : Nat
  /-- The function's captured registers, queues, vectors and features (09 R286). -/
  fn : Fn
  /-- Device time at capture (09 R287). -/
  us : Nat
  /-- Boot that sealed it (09 R287). -/
  boot : Nat
  /-- The flags (09 R286). -/
  quarantined : Bool
  /-- Which free numbers its encrypted sections, nonce and tag are (log 7) (09 R288). -/
  sealNo : Nat
  /-- Its handle is live; false once discarded, its copies staying restorable until the thaw (09 R307). -/
  held : Bool
  /-- The recorded queues stand on the tenant's function: no reset of it since the capture or the restore (09 R278, R290). -/
  here : Bool
  deriving DecidableEq, Repr, Inhabited

/-- Functions, tenants, handles and the intake arbiter (R231-R309). -/
structure HostSide where
  /-- Tenants by slot (09 R264). -/
  tenants : List (Nat × Tenant)
  /-- Generations that differ from 1, by kind x 65,536 + slot (02 R55). -/
  gens : List (Nat × Nat)
  /-- Functions that differ from reset, by port x 1,024 + VF (09 R263). -/
  fns : List (Nat × Fn)
  /-- Snapshots (09 R286). -/
  snaps : List Snap
  /-- Grants counted (08 R245). -/
  grants : Nat
  /-- I/O grants since the last admin grant, at most 7 (08 R243). -/
  sinceAdmin : Nat
  /-- Tenant slot granted last among equals (08 R244). -/
  rrTenant : Nat
  /-- C5h NTH (08 R249). -/
  nth : Nat
  /-- C5h AGE_LIMIT (08 R249). -/
  ageLimit : Nat
  /-- The ports are joined (02 R38). -/
  joined : Bool
  /-- NumVFs of port A (09 R263). -/
  numVfsA : Nat
  /-- NumVFs of port B (09 R263). -/
  numVfsB : Nat
  /-- Device time from which an I/O command of any tenant has been outstanding (08 R260). -/
  busyFrom : Option Nat
  /-- Time with an I/O command of any tenant outstanding before that (08 R260). -/
  busyUs : Nat
  /-- Commands granted by the arbiter and not yet executed by their row: function, entry and submission queue (08 R242). -/
  granted : List (FnId × (Sqe × Nat))
  /-- Fetch tags of port A in use, of 128 (08 R236). -/
  fetchTagsA : Nat
  /-- Submission doorbells captured so far: the place of the next in the capture order (08 R235). -/
  captures : Nat
  /-- Device time of the last submission-entry fetch (15 R483). -/
  lastFetchUs : Nat
  /-- Fetch tags of port B in use, of 128 (08 R236). -/
  fetchTagsB : Nat
  deriving DecidableEq, Repr, Inhabited

/-- HostSide at reset. -/
def HostSide.reset : HostSide where
  tenants := []
  gens := []
  fns := []
  snaps := []
  grants := 0
  sinceAdmin := 7
  rrTenant := 0
  nth := 32
  ageLimit := 20
  joined := false
  numVfsA := 0
  numVfsB := 0
  busyFrom := none
  busyUs := 0
  granted := []
  fetchTagsA := 0
  captures := 0
  lastFetchUs := 0
  fetchTagsB := 0

/-- What the device has sent to a host (log 9). -/
inductive Out where
  /-- An NVMe completion written into a completion queue, with the SQ Head Pointer it reports. -/
  | cqe (fn : FnId) (cq : Nat) (e : Cqe) (phase : Bool) (index sqhd : Nat)
  /-- An MSI-X message. -/
  | msix (fn : FnId) (vector : Nat)
  /-- A mailbox completion written into the ring. -/
  | mbx (port : Port) (index : Nat) (e : MbxCqe)
  /-- Data of a Read, by sector of the command. -/
  | data (fn : FnId) (sqid cid : Nat) (sectors : List (Nat × SecRes))
  /-- Bytes written to host memory. -/
  | mem (port : Port) (addr : Nat) (bytes : List Byte)
  /-- A fetch of submission entries. -/
  | fetch (fn : FnId) (qid first count : Nat)
  /-- A read of a command's data. -/
  | dataFetch (fn : FnId) (sqid cid : Nat)
  /-- An SPDM response. -/
  | spdm (code : Nat) (fields : List Nat)
  /-- An AER record. -/
  | aer (port : Port) (fn : Option FnId)
  /-- A package pin driven: 0 CHG_CTL duty, 1 HOLD_EN, 2 HOLD_TEST, 3 LED_ACT, 4 LED_FLT, 5 ready for removal, 6 the Fray trigger pulse. -/
  | pin (name : Nat) (value : Nat)
  deriving DecidableEq, Repr, Inhabited

/-- Bursts of one swatch or staging block queued at a DRAM channel (R358). -/
structure Drain where
  /-- Write they belong to (11 R358). -/
  wr : Nat
  /-- Its sector (11 R358). -/
  sector : Nat
  /-- Bursts not yet drained (11 R358). -/
  left : Nat
  deriving DecidableEq, Repr, Inhabited

/-- One Shuttle channel's registers and its descriptor in progress (R371-R374). -/
structure ShtCh where
  /-- SHT_CTRL.ENABLE (11 R374). -/
  enable : Bool
  /-- SHT_CTRL.HALTED (11 R374). -/
  halted : Bool
  /-- SHT_CTRL.RETRY (11 R374). -/
  retry : Nat
  /-- SHT_CTRL.SHARE (11 R374). -/
  share : Nat
  /-- SHT_RING.BASE (11 R374). -/
  base : Nat
  /-- SHT_RING.ENTRIES (11 R374). -/
  entries : Nat
  /-- SHT_PTR.TAIL (11 R374). -/
  tail : Nat
  /-- SHT_PTR.HEAD (11 R374). -/
  head : Nat
  /-- Rate-limiter balance (11 R374). -/
  credit : Nat
  /-- A descriptor has been read and is in progress (11 R372). -/
  running : Bool
  /-- That descriptor, as read (11 R372). -/
  desc : BitVec 256
  /-- Bytes whose writes have completed (11 R372). -/
  done : Nat
  /-- Retries used by that descriptor (11 R372). -/
  retries : Nat
  /-- Retries of the burst in progress (11 R373). -/
  burstTries : Nat
  /-- A burst has failed and its retry, 1 µs later, is awaited (11 R373). -/
  failed : Bool
  /-- STATUS of its last halt (11 R375). -/
  lastStatus : Nat
  /-- Signals given to its owner (11 R372). -/
  irqs : Nat
  /-- A warm device reset restores its registers once this descriptor has completed (11 R374). -/
  resetDue : Bool
  deriving DecidableEq, Repr, Inhabited

/-- One Hem word that has been programmed (R377). -/
structure HemWord where
  /-- Content (12 R376). -/
  val : BitVec 64
  /-- Programs since its erase (12 R377). -/
  count : Nat
  /-- Check field 0, written by the first program (12 R378). -/
  check0 : BitVec 8
  /-- Check field 1, written by the second program (12 R378). -/
  check1 : BitVec 8
  deriving DecidableEq, Repr, Inhabited

/-- What a Hem operation is for. -/
inductive HemWhat where
  /-- The first program of a bolt's erase intent. -/
  | intent (bolt : Nat)
  /-- The first program of a single unit's erase intent. -/
  | unitIntent (die unit : Nat)
  /-- The closing program of the intent with that erase sequence. -/
  | close (seq : Nat)
  /-- The gap sector of a window move. -/
  | gap
  /-- A sector of a word ring or record area erased for reuse. -/
  | rewrite
  deriving DecidableEq, Repr, Inhabited

/-- An operation at a Hem bank (R376, R380). -/
structure HemOp where
  /-- Erase, otherwise program (12 R379). -/
  erase : Bool
  /-- What it is for (12 R379). -/
  what : HemWhat
  /-- It has been retried once (12 R382). -/
  tried : Bool
  /-- An erase that is suspended (12 R380). -/
  suspended : Bool
  /-- Suspensions made (12 R380). -/
  suspensions : Nat
  /-- Programs issued within the present suspension (12 R380). -/
  inWindow : Nat
  deriving DecidableEq, Repr, Inhabited

/-- One bank of the Hem store (R376). -/
structure HemBank where
  /-- Erase in progress, or program in progress outside an erase (12 R376). -/
  op : Option HemOp
  /-- Program issued into a suspended erase (12 R380). -/
  prog : Option HemOp
  /-- Programs and erases waiting for the bank, oldest first (12 R380). -/
  queue : List HemOp
  deriving DecidableEq, Repr, Inhabited

/-- DRAM, on-die SRAM, ECC, scrubber and Shuttle (R348-R375). -/
structure Mem where
  /-- The device has come up with DRAM (11 R349). -/
  up : Bool
  /-- DM_CFG.MAP_ORDER (11 R357). -/
  mapOrder : BitVec 2
  /-- DM_CFG.LOCK (11 R357). -/
  lock : Bool
  /-- DM_CFG.RATE (11 R357). -/
  rate : Nat
  /-- DM_CFG.CH_OK (11 R357). -/
  chOk : BitVec 4
  /-- Write queues, by channel (11 R358). -/
  drains : List (Nat × List Drain)
  /-- Spool bytes that differ from zero (11 R365). -/
  spool : Memory
  /-- Copies of the valid bit of the Spool words that have been written, by word (11 R365). -/
  spoolValid : List (Nat × BitVec 3)
  /-- Bytes of usable DRAM written by Shuttle that differ from zero (11 R356). -/
  dram : Memory
  /-- CLASS_LOW (11 R375). -/
  classLow : List Nat
  /-- ALLOC_FAILS (11 R375). -/
  allocFails : List Nat
  /-- SRAM_CORRECTED (11 R375). -/
  sramCorr : Nat
  /-- DRAM_CORRECTED (11 R375). -/
  dramCorr : Nat
  /-- SRAM_UNCORRECTABLE (11 R375). -/
  sramUnc : Nat
  /-- DRAM_UNCORRECTABLE (11 R375). -/
  dramUnc : Nat
  /-- LOST_SECTORS (11 R375). -/
  lost : Nat
  /-- SCRUB_SRAM_H (11 R370). -/
  scrubSramH : Nat
  /-- SCRUB_DRAM_H (11 R370). -/
  scrubDramH : Nat
  /-- Errors corrected in the present SRAM pass (11 R370). -/
  sramPassCorr : Nat
  /-- Errors corrected in the present DRAM pass (11 R370). -/
  dramPassCorr : Nat
  /-- SRAM_PASS_US (11 R375). -/
  sramPassUs : Nat
  /-- DRAM_PASS_US (11 R375). -/
  dramPassUs : Nat
  /-- RAW_WAITS (11 R375). -/
  rawWaits : Nat
  /-- DARN_SLOT_LOW (11 R375). -/
  darnSlotLow : Nat
  /-- Device time of the last calibration, by any channel (11 R352). -/
  calUs : Nat
  /-- Calibrations made (the model's count) (11 R352). -/
  calibrations : Nat
  /-- Per-bank refreshes made, by channel x 16 + bank (the model's count) (11 R352). -/
  refreshes : List (Nat × Nat)
  /-- Shuttle channels that differ from reset (11 R374). -/
  shuttle : List (Nat × ShtCh)
  /-- SHUTTLE_HALTS (11 R375). -/
  shuttleHalts : Nat
  /-- SHUTTLE_RETRIES (11 R375). -/
  shuttleRetries : Nat
  deriving DecidableEq, Repr, Inhabited

/-- Mem at reset. -/
def Mem.reset : Mem where
  up := false
  mapOrder := 0#2
  lock := false
  rate := 0
  chOk := 0#4
  drains := []
  spool := []
  spoolValid := []
  dram := []
  classLow := [1572864, 393216, 131072]
  allocFails := [0, 0, 0]
  sramCorr := 0
  dramCorr := 0
  sramUnc := 0
  dramUnc := 0
  lost := 0
  scrubSramH := 24
  scrubDramH := 72
  sramPassCorr := 0
  dramPassCorr := 0
  sramPassUs := 0
  dramPassUs := 0
  rawWaits := 0
  darnSlotLow := 126
  calUs := 0
  calibrations := 0
  refreshes := []
  shuttle := []
  shuttleHalts := 0
  shuttleRetries := 0

/-- One boot twin (R384, R392, R407). -/
structure Twin where
  /-- STATE of BOOT_QUERY (12 R407). -/
  st : Nat
  /-- VERDICT (12 R407). -/
  verdict : Nat
  /-- SVN (12 R389). -/
  svn : Nat
  /-- FW_REV (12 R389). -/
  fwRev : BitVec 64
  /-- IMAGE_LEN (12 R389). -/
  imageLen : Nat
  /-- RATCHET (12 R389). -/
  ratchet : Bool
  /-- STATE_FORMAT (12 R389). -/
  stateFormat : Nat
  /-- STITCH_ABI (12 R389). -/
  stitchAbi : Nat
  /-- IMAGE_DIGEST, an opaque number (log 7) (12 R407). -/
  digest : Nat
  /-- MARGIN_LOW (12 R381). -/
  marginLow : Bool
  /-- MAGIC is present (12 R390). -/
  magic : Bool
  /-- The header passes check 3 (12 R390). -/
  headerOk : Bool
  /-- REVISION_ID (12 R389). -/
  revision : Nat
  /-- PARTS (12 R389). -/
  parts : Nat
  /-- KEY_INDEX (12 R389). -/
  keyIndex : Nat
  /-- Every sector below IMAGE_LEN has been written (12 R390, R400). -/
  whole : Bool
  deriving DecidableEq, Repr, Inhabited

/-- A boot twin that has been erased (R384). -/
def Twin.blank : Twin := ⟨0, 0, 0, 0#64, 0, false, 0, 0, 0, false, false, false, 0, 0, 0, false⟩

/-- The Firmware Revision of a build of Claind 4.1: the ASCII of "C4.1." and its three digits (R1). -/
def fwRevOf (build : Nat) : BitVec 64 :=
  BitVec.ofNat 64 (0x2E312E3443 + 2 ^ 40 * (0x30 + build / 100 % 10) + 2 ^ 48 * (0x30 + build / 10 % 10) + 2 ^ 56 * (0x30 + build % 10))

/-- The factory image of twin A: VALID, with state format and stitch ABI 1 (log 4), of the build that runs at reset (R1, log 82). -/
def Twin.reset : Twin := ⟨3, 0, 1, fwRevOf Board.reset.fwBuild, 1048576, false, 1, 1, 1, false, true, true, 0x21, 15, 0, true⟩

/-- The newest twin-select word (R393). -/
structure Select where
  /-- SEQ (12 R393). -/
  seq : Nat
  /-- TWIN (12 R393). -/
  twin : Nat
  /-- TRIAL is 0x00 (12 R393). -/
  confirmed : Bool
  /-- FALLBACK (12 R393). -/
  fallback : Nat
  /-- MODE (12 R393). -/
  mode : Nat
  deriving DecidableEq, Repr, Inhabited

/-- The Hem store: banks, window, boot twins and firmware state (R376-R407). -/
structure Hem where
  /-- Programmed words written through Shuttle, by word number (12 R376). -/
  words : List (Nat × HemWord)
  /-- Banks that are not idle (12 R376). -/
  banks : List (Nat × HemBank)
  /-- START (12 R386). -/
  start : Nat
  /-- GAP (12 R386). -/
  gap : Nat
  /-- SEQ of the newest window pointer word (12 R386). -/
  windowSeq : Nat
  /-- Record-area erases since the last window move (12 R385). -/
  recordErases : Nat
  /-- 64 erases have passed and the window has not moved (12 R385). -/
  moveDue : Bool
  /-- Device time of the last margin read of the twins (12 R381). -/
  marginUs : Nat
  /-- HEM_CORRECTED (12 R407). -/
  corrected : Nat
  /-- HEM_DEGRADED (12 R382). -/
  degraded : Bool
  /-- Boot twin A (12 R384). -/
  twinA : Twin
  /-- Boot twin B (12 R384). -/
  twinB : Twin
  /-- Newest twin-select word (12 R394). -/
  select : Option Select
  /-- Twin running: 1 A, 2 B (12 R407). -/
  running : Nat
  /-- Recovery mode (12 R395). -/
  recovery : Bool
  /-- LAST_RESULT (12 R407). -/
  lastResult : Nat
  /-- Minimum SVN (12 R391). -/
  minSvn : Nat
  /-- Open FW_STAGE session: EXPECTED_LEN and sectors staged (12 R403). -/
  session : Option (Nat × List Nat)
  /-- Header fields of the session's image (12 R403). -/
  sessionHdr : Twin
  /-- ACTIVATION_STEP (12 R407). -/
  actStep : Nat
  /-- FW_ACTIVATE in progress (12 R396). -/
  actCmd : Option MbxCmd
  /-- Firmware Commit in progress (12 R402). -/
  actNvme : Option (FnId × Nat)
  /-- Tailor pairs that run or load the new image of an activation (12 R396). -/
  actNew : List Nat
  /-- Bobbins that run the new image's stitch microcode (12 R396). -/
  actBobbins : List Nat
  /-- CAUSE of the revert in progress (12 R399). -/
  actCause : Nat
  /-- Device time at which the activation began (12 R398). -/
  actUs : Nat
  /-- LAST_ACTIVATION_US (12 R407). -/
  lastActUs : Nat
  /-- LAST_PAUSE_US (12 R407). -/
  lastPauseUs : Nat
  /-- Ranges downloaded since the last commit, in 4 KiB units (12 R402). -/
  download : List (Nat × Nat)
  /-- Header fields of the downloaded image (12 R402). -/
  downloadHdr : Twin
  /-- Device key-exchange key pair, an opaque number (log 7) (10 R330). -/
  dkx : Option Nat
  /-- The key-store key, as its number in drawing order (10 R334). -/
  keyStoreKey : Nat
  /-- Saved Feature C2h (05 R154). -/
  savedC2 : Option (BitVec 32 × BitVec 32)
  /-- Saved Feature C3h (06 R195). -/
  savedC3 : Option (BitVec 32 × BitVec 32)
  /-- Saved Feature C4h (07 R229). -/
  savedC4 : Option (BitVec 32)
  /-- Saved Feature C5h (08 R249). -/
  savedC5 : Option (BitVec 32)
  /-- Saved Feature 0Ch (14 R460). -/
  savedApst : Option (Bool × List (BitVec 64))
  /-- Device boot count (16 R525). -/
  bootCount : Nat
  /-- Power Cycles (08 R260). -/
  powerCycles : Nat
  /-- Part of Power On Hours of earlier starts (08 R260). -/
  powerOnUs : Nat
  deriving DecidableEq, Repr, Inhabited

/-- Hem at reset. -/
def Hem.reset : Hem where
  words := []
  banks := []
  start := 0
  gap := 12279
  windowSeq := 0
  recordErases := 0
  moveDue := false
  marginUs := 0
  corrected := 0
  degraded := false
  twinA := .reset
  twinB := .blank
  select := none
  running := 0
  recovery := false
  lastResult := 0
  minSvn := 0
  session := none
  sessionHdr := .blank
  actStep := 0
  actCmd := none
  actNvme := none
  actNew := []
  actBobbins := []
  actCause := 0
  actUs := 0
  lastActUs := 0
  lastPauseUs := 0
  download := []
  downloadHdr := .blank
  dkx := none
  keyStoreKey := 0
  savedC2 := none
  savedC3 := none
  savedC4 := none
  savedC5 := none
  savedApst := none
  bootCount := 0
  powerCycles := 0
  powerOnUs := 0

/-- The values that EXPOSED_CAP_SET sets (R443). -/
structure Profile where
  /-- CAP_KIB (CAP_SET) (13 R443). -/
  capKib : Nat
  /-- EW_MV (13 R408). -/
  ewMv : Nat
  /-- HARD_MV (13 R408). -/
  hardMv : Nat
  /-- BANK_TARGET_MV (13 R443). -/
  targetMv : Nat
  /-- BANK_MIN_MV (13 R443). -/
  minMv : Nat
  /-- C_RATED_UF (13 R443). -/
  cRatedUf : Nat
  /-- P_FLUSH_W (13 R443). -/
  pFlushW : Nat
  /-- EFF_PCT (13 R443). -/
  effPct : Nat
  /-- TEST_PERIOD_H (13 R443). -/
  testPeriodH : Nat
  /-- CHG_MAX_MA (13 R443). -/
  chgMaxMa : Nat
  deriving DecidableEq, Repr, Inhabited

/-- What the flush plan writes (R414). -/
inductive FlushItem where
  /-- A committed sector with its key (tenant, namespace, LBA). -/
  | sector (key : Nat) (x : Sealed)
  /-- A commit record of the staging journal. -/
  | record (wr : Nat)
  /-- The tail of the map journal. -/
  | journal
  deriving DecidableEq, Repr, Inhabited

/-- The descriptor of one flushed sector in an index sector (R415). -/
structure FlushDesc where
  /-- Tenant handle; zero for the map journal (13 R415). -/
  handle : Nat
  /-- NSID (13 R415). -/
  nsid : Nat
  /-- Kind: 0 a sector, 1 a commit record, 2 the map journal; the spec gives no numbers (13 R415, log 102). -/
  kind : Nat
  /-- LBA (13 R415). -/
  lba : Nat
  /-- Generation (13 R415). -/
  gen : Nat
  /-- Place in the order of writing (13 R415). -/
  order : Nat
  /-- CRC-32C (13 R415, log 102). -/
  crc : Nat
  deriving DecidableEq, Repr, Inhabited

/-- The seal of a flush (R415). -/
structure FlushSealRec where
  /-- Flush sequence (13 R415). -/
  seq : Nat
  /-- Half-stripes written (13 R415). -/
  stripes : Nat
  /-- Exposed sectors at early warning (13 R415). -/
  exposed : Nat
  /-- Staged blocks at early warning (13 R415). -/
  staged : Nat
  /-- CRC-32C over the index sectors (13 R415, log 102). -/
  crc : Nat
  /-- The dies that hold it (13 R415). -/
  dies : List DieId
  deriving DecidableEq, Repr, Inhabited

/-- A half-stripe of an emergency set as a flush writes it (R415, R416). -/
structure FlushStripe where
  /-- Die group (13 R413). -/
  group : Nat
  /-- Half (13 R415). -/
  half : Nat
  /-- Row (13 R415). -/
  row : Nat
  /-- Its sectors after the index sector, at most 119 (13 R415). -/
  items : List FlushItem
  /-- Columns of failed dies, skipped (13 R416). -/
  skipped : List Nat
  /-- Columns whose program failed and was made again at the next free row (13 R416). -/
  again : List Nat
  /-- Abandoned after a second failure (13 R416). -/
  abandoned : Bool
  /-- Descriptors of its index sector (13 R415). -/
  index : List FlushDesc
  /-- Flush sequence of its index sector (13 R415). -/
  seq : Nat
  /-- Boot count of its index sector (13 R415). -/
  boot : Nat
  deriving DecidableEq, Repr, Inhabited

/-- Input sensing, early warning, the flush, the bank and the cap (R408-R430, R440). -/
structure Supply where
  /-- Values in force (13 R443). -/
  prof : Profile
  /-- Values saved (13 R443). -/
  savedProf : Option Profile
  /-- VIN_MV (13 R440). -/
  vinMv : Nat
  /-- VIN_MIN_MV (13 R440). -/
  vinMinMv : Nat
  /-- BANK_MV (13 R440). -/
  bankMv : Nat
  /-- CHG_MEAS_MA (13 R440). -/
  measMa : Int
  /-- CHG_CMD_MA (13 R440). -/
  cmdMa : Nat
  /-- The comparators are armed (17 R558). -/
  armed : Bool
  /-- EW_LATCHED (13 R409). -/
  ewLatched : Bool
  /-- Device time of early warning (13 R440). -/
  ewUs : Nat
  /-- The input has fallen below HARD_MV in this event (13 R412). -/
  hardHit : Bool
  /-- FLUSHING (13 R440). -/
  flushing : Bool
  /-- What the running flush writes, in order (13 R414). -/
  flushPlan : List FlushItem
  /-- What the sealed or unsealed emergency set holds (13 R414). -/
  flushed : List FlushItem
  /-- The half-stripes of the last sealed flush, in the order of writing (13 R415, R416). -/
  stripes : List FlushStripe
  /-- The seal of the last flush, until the next start (13 R415). -/
  sealRec : Option FlushSealRec
  /-- Exposed sectors when the flush began (13 R415). -/
  ewExposed : Nat
  /-- Staged blocks when the flush began (13 R415). -/
  ewStaged : Nat
  /-- Units recorded for retirement at the next boot: die, bolt and unit (13 R416). -/
  retireDue : List (DieId × (Nat × Nat))
  /-- The last flush has its seal (13 R415). -/
  flushSealed : Bool
  /-- Restored sectors with no durable copy elsewhere yet (13 R427). -/
  restored : List Nat
  /-- Which emergency sets are fully erased (13 R413). -/
  setErased : List Bool
  /-- Set the next flush writes (13 R413). -/
  targetSet : Nat
  /-- HOLD_EN (13 R412). -/
  holdEn : Bool
  /-- HOLD_TEST (13 R423). -/
  holdTest : Bool
  /-- CHG_LIMITED (13 R420). -/
  chgLimited : Bool
  /-- Device time from which the measured current has been below 90 % (13 R420). -/
  lowUs : Option Nat
  /-- Charge count Q in microcoulombs (13 R421). -/
  qUc : Int
  /-- C_MEAS_UF (13 R440). -/
  cMeasUf : Nat
  /-- A first test has passed (13 R421). -/
  cTested : Bool
  /-- E_V_MJ (13 R440). -/
  evMj : Nat
  /-- E_Q_MJ (13 R440). -/
  eqMj : Nat
  /-- Device time from which the energies have agreed within 5 % with the charger idle (13 R421). -/
  agreeUs : Option Nat
  /-- Device time from which they have differed by more than 10 % (13 R422). -/
  disagreeUs : Option Nat
  /-- Device time from which they have agreed while the flag is set (13 R422). -/
  okUs : Option Nat
  /-- GAUGE_DISAGREE (13 R422). -/
  disagree : Bool
  /-- CAP_EFF_KIB (13 R424). -/
  capEffKib : Nat
  /-- A higher cap that waits 100 ms, with its device time (13 R424). -/
  capNext : Option (Nat × Nat)
  /-- CAP_EFF has been at CAP_SET since the last start or setting (13 R425). -/
  capReached : Bool
  /-- Device time from which CAP_EFF has been below CAP_SET (13 R425). -/
  capShortUs : Option Nat
  /-- Device time from which CAP_EFF has been below 256 KiB (13 R425). -/
  capTinyUs : Option Nat
  /-- CAP_REDUCED (13 R425). -/
  capReduced : Bool
  /-- BACKUP_FAILED (13 R423). -/
  backupFailed : Bool
  /-- Recovered without a seal and no passing test since (13 R425). -/
  noSealWarn : Bool
  /-- Device time from which a test waits for the exposed count (13 R423). -/
  testWait : Option Nat
  /-- Device time at which the running test began (TEST_RUNNING) (13 R423). -/
  testRun : Option Nat
  /-- CAPACITANCE_TEST that waits for the test (13 R442). -/
  testCmd : Option MbxCmd
  /-- Device time at which a scheduled test was given up, to be retried 60 s later (13 R423). -/
  testRetry : Option Nat
  /-- LAST_TEST_US (13 R440). -/
  lastTestUs : Nat
  /-- LAST_TEST (13 R440). -/
  lastTest : Nat
  /-- LAST_FLUSH (13 R440). -/
  lastFlush : Nat
  /-- LAST_FLUSH_US (13 R440). -/
  lastFlushUs : Nat
  /-- LAST_FLUSH_KIB (13 R440). -/
  lastFlushKib : Nat
  /-- FLUSHES (13 R440). -/
  flushes : Nat
  /-- EW_EVENTS (13 R440). -/
  ewEvents : Nat
  /-- Host ports stopped by the hard threshold or the seal (13 R412). -/
  portsStopped : Bool
  /-- The bank fell below BANK_MIN_MV before the seal and the flush was left to go on from the input (13 R419). -/
  onInput : Bool
  deriving DecidableEq, Repr, Inhabited

/-- Supply at reset. -/
def Supply.reset : Supply where
  prof := ⟨1048576, 11000, 10200, 35000, 15000, 10000, 120, 85, 24, 1000⟩
  savedProf := none
  vinMv := 0
  vinMinMv := 65535
  bankMv := 0
  measMa := 0
  cmdMa := 0
  armed := false
  ewLatched := false
  ewUs := 0
  hardHit := false
  flushing := false
  flushPlan := []
  flushed := []
  stripes := []
  sealRec := none
  ewExposed := 0
  ewStaged := 0
  retireDue := []
  flushSealed := false
  restored := []
  setErased := [false, false]
  targetSet := 0
  holdEn := false
  holdTest := false
  chgLimited := false
  lowUs := none
  qUc := 0
  cMeasUf := 0
  cTested := false
  evMj := 0
  eqMj := 0
  agreeUs := none
  disagreeUs := none
  okUs := none
  disagree := false
  capEffKib := 0
  capNext := none
  capReached := false
  capShortUs := none
  capTinyUs := none
  capReduced := false
  backupFailed := false
  noSealWarn := false
  testWait := none
  testRun := none
  testCmd := none
  testRetry := none
  lastTestUs := 0
  lastTest := 0
  lastFlush := 0
  lastFlushUs := 0
  lastFlushKib := 0
  flushes := 0
  ewEvents := 0
  portsStopped := false
  onInput := false

/-- A sanitise in progress or its last outcome (R431-R437). -/
structure Sanitise where
  /-- A sanitise runs (13 R432). -/
  running : Bool
  /-- 2 block, 4 crypto (13 R434). -/
  action : Nat
  /-- AUSE (13 R431). -/
  ause : Bool
  /-- Lowest index not done (13 R433). -/
  next : Nat
  /-- Indices to erase (13 R434). -/
  total : Nat
  /-- Dies whose unit at this index has passed (13 R433). -/
  passed : List Nat
  /-- In the failure mode (13 R433). -/
  failMode : Bool
  /-- The failure mode was entered by a restricted sanitise (13 R431). -/
  failRestricted : Bool
  /-- SSTAT status: 0 never, 1 success, 2 in progress, 3 failed (13 R437). -/
  sstat : Nat
  /-- User data written since the last sanitise (13 R437). -/
  written : Bool
  /-- SCDW10 (13 R437). -/
  dw10 : BitVec 32
  /-- Sanitise sequence (13 R434). -/
  seq : Nat
  /-- INDICES_DONE (13 R445). -/
  done : Nat
  /-- It still drains granted commands (13 R432). -/
  drain : Bool
  /-- SANITISE_START that waits for the drain (13 R444). -/
  cmd : Option MbxCmd
  /-- Sanitize that waits for the drain (13 R432). -/
  nv : Option (FnId × Nat)
  /-- How the Hem programs of its start answer (12 R382). -/
  ok : Bool
  deriving DecidableEq, Repr, Inhabited

/-- Sanitise (R431-R437). -/
structure San where
  /-- Sanitise state and journal (13 R431). -/
  s : Sanitise
  deriving DecidableEq, Repr, Inhabited

/-- San at reset. -/
def San.reset : San where
  s := ⟨false, 0, false, 0, 0, [], false, false, 0, false, 0, 0, 0, false, none, none, false⟩

/-- A step of an entry to, or exit from, a power state (R454, R458, R462). -/
inductive PowStep where
  /-- No transition. -/
  | none
  /-- Draining before an entry to PS3 or PS4. -/
  | drain
  /-- Stopping domains. -/
  | stops
  /-- VCORE step down after the last stop. -/
  | vcoreDown
  /-- VCORE step up before the first start. -/
  | vcoreUp
  /-- Starting domains. -/
  | starts
  /-- Restarting domains after a refusal. -/
  | rollback
  /-- Waiting 1 ms for the next attempt. -/
  | retryWait
  /-- A transition between operational states. -/
  | moving
  deriving DecidableEq, Repr, Inhabited

/-- Power domains, power states, VCORE, wakes (R448-R473). -/
structure Power where
  /-- State in force (14 R459). -/
  ps : Nat
  /-- Last operational state host software selected (14 R457). -/
  opPs : Nat
  /-- State being entered (14 R472). -/
  target : Option Nat
  /-- Step of the transition in progress (14 R462). -/
  step : PowStep
  /-- Domains in Stop, last stopped first (14 R448). -/
  stopped : List Nat
  /-- Domains still to be stopped, in order (14 R462). -/
  toStop : List Nat
  /-- Domains still to be started, in order (14 R462). -/
  toStart : List Nat
  /-- Attempts of the present entry (14 R463). -/
  attempts : Nat
  /-- The present entry is autonomous (14 R463). -/
  auto : Bool
  /-- A POWER_POLICY in force whose power state change waits for its completion entry to be written (02 R68). -/
  policyDue : Bool
  /-- Set Features 02h that waits for its transition (14 R459). -/
  psCmd : Option (FnId × Nat)
  /-- Latched wake: source, device time, tenant slot (14 R465). -/
  latched : Option (Nat × (Nat × Nat))
  /-- Level treated as reached (14 R466). -/
  vcore : Nat
  /-- VCORE_VID (14 R466). -/
  vid : Nat
  /-- The settling wait runs (14 R466). -/
  settling : Bool
  /-- Device time at which the last settling wait ended (01 R27). -/
  settledUs : Nat
  /-- Level before the step in progress (01 R28). -/
  oldVcore : Nat
  /-- FLASH_RATE (14 R472). -/
  flashSlow : Bool
  /-- VCORE level of PS0-PS4 in force (14 R473). -/
  levels : List Nat
  /-- Saved levels (14 R473). -/
  savedLevels : Option (List Nat)
  /-- CAP_STATE (14 R471). -/
  capState : Nat
  /-- PS3 permitted, PS4 permitted, PORT_STOP (14 R471). -/
  polFlags : Nat
  /-- MAINT_H (14 R471). -/
  maintH : Nat
  /-- MP, IDLP and ACTP of PS0-PS4 (14 R453). -/
  profile : List Nat
  /-- Saved CAP_STATE, FLAGS, MAINT_H and profile (14 R471). -/
  savedPolicy : Option (Nat × (Nat × (Nat × List Nat)))
  /-- APSTE (14 R460). -/
  apste : Bool
  /-- APST table: leading entries, the rest zero (14 R460). -/
  apst : List (BitVec 64)
  /-- Device time from which the idle timer runs (14 R461). -/
  idleUs : Nat
  /-- WAKE_LAST_US (14 R472). -/
  wakeUs : Nat
  /-- WAKE_LAST_SOURCE (14 R472). -/
  wakeSrc : Nat
  /-- WAKE_LAST_STATE (14 R472). -/
  wakeState : Nat
  /-- WAKE_LAST_FUNC (14 R472). -/
  wakeFunc : Nat
  /-- WAKES (14 R472). -/
  wakes : Nat
  /-- REFUSAL_LAST_US (14 R472). -/
  refUs : Nat
  /-- REFUSAL_DOMAIN (14 R472). -/
  refDomain : Nat
  /-- REFUSAL_TARGET (14 R472). -/
  refTarget : Nat
  /-- ROLLED_BACK (14 R472). -/
  refBack : Nat
  /-- REFUSALS (14 R472). -/
  refusals : Nat
  /-- ENTRIES (14 R472). -/
  entries : Nat
  /-- VCORE_STEPS (14 R472). -/
  vsteps : Nat
  /-- Device time at which the present entry began (14 R472). -/
  entryUs : Nat
  /-- Device time at which the present exit began (14 R472). -/
  exitUs : Nat
  /-- Device time at which the last non-operational state came in force (14 R457). -/
  napFrom : Nat
  /-- Device time at which the exit from it ended (14 R457). -/
  napTo : Nat
  /-- LAST_ENTRY_US (14 R472). -/
  lastEntryUs : Nat
  /-- LAST_EXIT_US (14 R472). -/
  lastExitUs : Nat
  /-- Residency of PS0-PS4 in µs (14 R472). -/
  residUs : List Nat
  /-- Device time from which the present state's residency counts (14 R472). -/
  psUs : Nat
  /-- Stops of each domain, saturating (14 R472). -/
  stops : List (Nat × Nat)
  /-- PS3 or PS4 requested while format, activation or a test runs (14 R461). -/
  held : Option Nat
  /-- Operational state a transition is moving to (14 R458). -/
  pendPs : Option Nat
  deriving DecidableEq, Repr, Inhabited

/-- Power at reset. -/
def Power.reset : Power where
  ps := 0
  opPs := 0
  target := none
  step := .none
  stopped := []
  toStop := []
  toStart := []
  attempts := 0
  auto := false
  policyDue := false
  psCmd := none
  latched := none
  vcore := 0
  vid := 0
  settling := false
  settledUs := 0
  oldVcore := 0
  flashSlow := false
  levels := [0, 1, 3, 3, 3]
  savedLevels := none
  capState := 0
  polFlags := 7
  maintH := 24
  profile := [3600, 950, 2400, 2500, 800, 1800, 1500, 700, 1200, 400, 400, 0, 220, 220, 0]
  savedPolicy := none
  apste := false
  apst := []
  idleUs := 0
  wakeUs := 0
  wakeSrc := 0
  wakeState := 0
  wakeFunc := 65535
  wakes := 0
  refUs := 0
  refDomain := 0
  refTarget := 0
  refBack := 0
  refusals := 0
  entries := 0
  vsteps := 0
  entryUs := 0
  exitUs := 0
  napFrom := 0
  napTo := 0
  lastEntryUs := 0
  lastExitUs := 0
  residUs := [0, 0, 0, 0, 0]
  psUs := 0
  stops := []
  held := none
  pendPs := none

/-- The source of the 25 MHz reference (R468, R469). -/
inductive ClkSrc where
  /-- Crystal. -/
  | crystal
  /-- RC, qualifying. -/
  | rcQualify
  /-- RC fallback. -/
  | rcFallback
  deriving DecidableEq, Repr, Inhabited

/-- The 25 MHz reference (R468, R469). -/
structure Clock where
  /-- CLOCK_SOURCE (14 R468). -/
  src : ClkSrc
  /-- Consecutive windows in range while qualifying, at most 8 (14 R468). -/
  run : Nat
  /-- Consecutive windows out of range after qualification (14 R468). -/
  bad : Nat
  /-- CLOCK_FAULT (14 R469). -/
  fault : Bool
  deriving DecidableEq, Repr, Inhabited

/-- Clock at reset. -/
def Clock.reset : Clock where
  src := .rcQualify
  run := 0
  bad := 0
  fault := false

/-- One on-die sensor (R474-R476). -/
structure Sensor where
  /-- Latest valid reading, in 0.125 °C (15 R476). -/
  last : Option Int
  /-- Consecutive discards (15 R476). -/
  discards : Nat
  /-- Readings discarded, counted (15 R476). -/
  discarded : Nat
  /-- Marked failed (15 R476). -/
  failed : Bool
  /-- A conversion runs (15 R475). -/
  converting : Bool
  /-- Its last reading was at or above SHUTDOWN_C (15 R485). -/
  hot : Bool
  /-- Device time at which its latest conversion started (15 R475). -/
  startUs : Option Nat
  deriving DecidableEq, Repr, Inhabited

/-- One remote diode input (R474, R478, R479, R482). -/
structure Remote where
  /-- Enabled (15 R479). -/
  enabled : Bool
  /-- Broken (15 R478). -/
  broken : Bool
  /-- Consecutive conversions without a break while broken (15 R478). -/
  good : Nat
  /-- Latest valid reading, in 0.125 °C (15 R480). -/
  last : Option Int
  /-- A conversion runs (15 R475). -/
  converting : Bool
  /-- Its comma level (15 R482). -/
  level : Nat
  /-- Device time from which its next fall by 1 counts (15 R482). -/
  lower : Option Nat
  /-- NAND_WARN condition (15 R480). -/
  warn : Bool
  /-- NAND_THROTTLE condition (15 R480). -/
  throttle : Bool
  /-- Device time at which its latest conversion started (15 R475). -/
  startUs : Option Nat
  deriving DecidableEq, Repr, Inhabited

/-- The settings of THERMAL_CONFIG (R504). -/
structure ThermSet where
  /-- WARN_C (15 R480). -/
  warnC : Nat
  /-- THROTTLE_C (15 R480). -/
  throttleC : Nat
  /-- SHUTDOWN_C (15 R480). -/
  shutdownC : Nat
  /-- NAND_WARN_C (15 R480). -/
  nandWarnC : Nat
  /-- NAND_THROTTLE_C (15 R480). -/
  nandThrottleC : Nat
  /-- DIODE_ENABLE, if set (15 R504). -/
  enable : Option (BitVec 16)
  /-- NFACTOR (15 R504). -/
  nfactor : Nat
  /-- Diode map, if set (15 R504). -/
  map : Option (List Nat)
  deriving DecidableEq, Repr, Inhabited

/-- Sensors, thresholds, commas, hold and the shutdown latch (R474-R490). -/
structure Thermal where
  /-- On-die sensors that differ from one with no reading (15 R474). -/
  sensors : List (Nat × Sensor)
  /-- Remote inputs that differ from a disabled one (15 R474). -/
  remotes : List (Nat × Remote)
  /-- Settings in force (15 R504). -/
  cfg : ThermSet
  /-- Settings saved (15 R504). -/
  saved : Option ThermSet
  /-- L_D (15 R482). -/
  ld : Nat
  /-- Device time from which the next fall of L_D counts (15 R482). -/
  ldLower : Option Nat
  /-- WARN condition (15 R480). -/
  warn : Bool
  /-- THROTTLE condition (15 R480). -/
  throttle : Bool
  /-- Device time from which L_D has been 15 without a break (15 R484). -/
  l15Us : Option Nat
  /-- Thermal hold (15 R484). -/
  hold : Bool
  /-- Part of the present ms of HOLD_MS, in µs (15 R490). -/
  holdRem : Nat
  /-- Part of the present ms of THROTTLE_MS, in µs (15 R490). -/
  throtRem : Nat
  /-- Device time up to which the times of R487 and R490 have been counted (15 R490). -/
  levelUs : Nat
  /-- Feature 04h over thresholds by TMPSEL (15 R488). -/
  overK : List Nat
  /-- Feature 04h under thresholds by TMPSEL (15 R488). -/
  underK : List Nat
  /-- A Feature 04h threshold is crossed, as last evaluated (15 R487). -/
  crossed : Bool
  /-- Which thresholds of Feature 04h are crossed: over and under of each TMPSEL in turn (15 R481, R488). -/
  crossings : List Bool
  /-- Warning Composite Temperature Time (15 R487). -/
  warnMin : Nat
  /-- Critical Composite Temperature Time (15 R487). -/
  critMin : Nat
  /-- Part of the present warning minute (15 R487). -/
  warnUs : Nat
  /-- Part of the present critical minute (15 R487). -/
  critUs : Nat
  /-- Shutdown latch; THERMTRIP_N is low while it is set (15 R486). -/
  latch : Bool
  /-- A shutdown falls due or its flush runs (15 R485). -/
  shutDue : Bool
  /-- The previous run ended in a shutdown (recorded at the next power-on) (15 R486). -/
  pastShutdown : Bool
  deriving DecidableEq, Repr, Inhabited

/-- Thermal at reset. -/
def Thermal.reset : Thermal where
  sensors := []
  remotes := []
  cfg := ⟨95, 105, 118, 75, 85, none, 10080, none⟩
  saved := none
  ld := 0
  ldLower := none
  warn := false
  throttle := false
  l15Us := none
  hold := false
  holdRem := 0
  throtRem := 0
  levelUs := 0
  overK := [368, 368, 348]
  underK := [0, 0, 0]
  crossed := false
  crossings := List.replicate 6 false
  warnMin := 0
  critMin := 0
  warnUs := 0
  critUs := 0
  latch := false
  shutDue := false
  pastShutdown := false

/-- One extreme (R493). -/
structure Extreme where
  /-- Value (15 R493). -/
  value : Int
  /-- Low 16 bits of the boot count (15 R493). -/
  boot : Nat
  /-- Device time (15 R493). -/
  us : Nat
  deriving DecidableEq, Repr, Inhabited

/-- The Pattern Book (R491-R499). -/
structure PBook where
  /-- Non-zero buckets, by histogram x 64 + bucket (15 R491). -/
  hist : List (Nat × Nat)
  /-- Extremes, by index (15 R493). -/
  extremes : List (Nat × Extreme)
  /-- Non-zero device counters, by index (15 R494). -/
  counters : List (Nat × Nat)
  /-- Histograms of the last checkpoint (15 R496). -/
  savedHist : List (Nat × Nat)
  /-- Extremes of the last checkpoint (15 R496). -/
  savedExtremes : List (Nat × Extreme)
  /-- Counters of the last checkpoint (15 R496). -/
  savedCounters : List (Nat × Nat)
  /-- Device time saved with the last checkpoint (15 R496). -/
  savedUs : Nat
  /-- Copy the last checkpoint was written to (15 R496). -/
  copy : Nat
  /-- Counts made since the last checkpoint (15 R496). -/
  dirty : Bool
  /-- Device time at which the freeze in force ends (15 R499). -/
  frozen : Option Nat
  /-- Device time of the freeze in force (15 R498). -/
  freezeUs : Nat
  /-- Samples missed in the current or last freeze (15 R498). -/
  missed : Nat
  /-- Extreme samples held by the freeze (15 R499). -/
  heldExtremes : List (Nat × Extreme)
  /-- Counter increments held by the freeze (15 R499). -/
  heldCounters : List (Nat × Nat)
  /-- Tenant counter increments held by the freeze (15 R499). -/
  heldTenant : List (Nat × (Nat × Nat))
  /-- A checkpoint that an entry to PS3 or PS4 made due is not yet written (15 R499). -/
  ckptDue : Bool
  /-- The checkpoint not yet written was deferred by a freeze (15 R505). -/
  deferred : Bool
  /-- View mapped: 0, 1, or 2 for the tenant view (15 R498). -/
  view : Nat
  /-- Tenant handle of the tenant view (15 R498). -/
  viewTenant : Nat
  /-- Device time of the last 1 ms sample (15 R492). -/
  msUs : Nat
  /-- Device time of the last 1 s samples (15 R492). -/
  secUs : Nat
  /-- Records of tenants destroyed during the freeze (15 R499). -/
  deletedRecs : List (Nat × List (Nat × Nat))
  deriving DecidableEq, Repr, Inhabited

/-- PBook at reset. -/
def PBook.reset : PBook where
  hist := []
  extremes := []
  counters := []
  savedHist := []
  savedExtremes := []
  savedCounters := []
  savedUs := 0
  copy := 0
  dirty := false
  frozen := none
  freezeUs := 0
  missed := 0
  heldExtremes := []
  heldCounters := []
  heldTenant := []
  ckptDue := false
  deferred := false
  view := 0
  viewTenant := 0
  msUs := 0
  secUs := 0
  deletedRecs := []

/-- Host time and the device-wide yardage settings (R501, R507). -/
structure Yardage where
  /-- Default LENGTH_S (15 R502). -/
  lenS : Nat
  /-- Default ALIGN (15 R507). -/
  align : Bool
  /-- Saved default LENGTH_S (15 R507). -/
  savedLenS : Nat
  /-- Saved default ALIGN (15 R507). -/
  savedAlign : Bool
  /-- OFFSET (15 R501). -/
  offset : Int
  /-- Host time is stale (15 R501). -/
  stale : Bool
  deriving DecidableEq, Repr, Inhabited

/-- Yardage at reset. -/
def Yardage.reset : Yardage where
  lenS := 3600
  align := false
  savedLenS := 3600
  savedAlign := false
  offset := 0
  stale := true

/-- One Selvedge entry (R512). -/
structure SelvEntry where
  /-- DEVICE_US (16 R512). -/
  us : Nat
  /-- BOOT (16 R512). -/
  boot : Nat
  /-- SOURCE (16 R512). -/
  source : Nat
  /-- CODE (16 R512). -/
  code : Nat
  /-- TENANT (16 R512). -/
  tenant : Nat
  /-- FUNCTION (16 R512). -/
  fn : Nat
  /-- LOCATION (16 R512). -/
  loc : Nat
  /-- DETAIL (16 R512). -/
  detail : Nat
  /-- SEQ (16 R512). -/
  seq : Nat
  /-- ANSWER (16 R512). -/
  answer : Nat
  /-- FLAGS (16 R512). -/
  flags : Nat
  deriving DecidableEq, Repr, Inhabited

/-- The Selvedge log (R511-R513). -/
structure Selvedge where
  /-- Capture queue, oldest first (16 R511). -/
  queue : List SelvEntry
  /-- Ring, oldest first (16 R511). -/
  ring : List SelvEntry
  /-- SEQ of the newest entry (16 R512). -/
  seq : Nat
  /-- LOST (16 R511). -/
  lost : Nat
  /-- Newest ring entries not yet in the Hem store (12 R388). -/
  unflushed : Nat
  /-- Device time of the last flush (12 R388). -/
  lastFlushUs : Nat
  /-- Hem copy, oldest first (12 R387). -/
  hem : List SelvEntry
  /-- Default THRESHOLD for new tenants (16 R513). -/
  threshold : Nat
  deriving DecidableEq, Repr, Inhabited

/-- Selvedge at reset. -/
def Selvedge.reset : Selvedge where
  queue := []
  ring := []
  seq := 0
  lost := 0
  unflushed := 0
  lastFlushUs := 0
  hem := []
  threshold := 256

/-- One armed rule (R519, R530). -/
structure FrayRule where
  /-- The rule as armed (16 R530). -/
  raw : BitVec 256
  /-- Matching events counted (16 R519). -/
  events : Nat
  /-- HITS (16 R519). -/
  fired : Nat
  /-- LFSR (16 R519). -/
  lfsr : BitVec 64
  deriving DecidableEq, Repr, Inhabited

/-- Debug authorisation and the Fray unit (R517-R521). -/
structure Debug where
  /-- Nonce issued, as the number of its drawing, and the device time of its issue (16 R528). -/
  nonce : Option (Nat × Nat)
  /-- Nonces drawn (16 R528). -/
  nonces : Nat
  /-- Device time at which the current authorisation ends (16 R529). -/
  authUntil : Option Nat
  /-- PERMS in force (16 R528). -/
  perms : BitVec 8
  /-- FRAY_STATUS.ARMED (16 R521). -/
  armed : Bool
  /-- TRIG_OUT of the arming (16 R521). -/
  trigOut : Bool
  /-- Rules, kept after a disarming for their HITS (16 R530). -/
  rules : List FrayRule
  /-- BALL_DROPS (16 R520). -/
  ballDrops : Nat
  deriving DecidableEq, Repr, Inhabited

/-- Debug at reset. -/
def Debug.reset : Debug where
  nonce := none
  nonces := 0
  authUntil := none
  perms := 0#8
  armed := false
  trigOut := false
  rules := []
  ballDrops := 0

/-- One host port (R34, R464, R540, R554, R555). -/
structure PortSt where
  /-- Link up (17 R540). -/
  linkUp : Bool
  /-- PERST_N asserted (17 R554). -/
  perst : Bool
  /-- Port domain not stopped by PERST_N (14 R464). -/
  domainOn : Bool
  /-- Device time of the last deassertion (17 R554). -/
  deassertUs : Option Nat
  /-- REFCLK present and the PLL locked (17 R555). -/
  refclk : Bool
  /-- Link in L1.2 (14 R464). -/
  l12 : Bool
  /-- Link width (16 R35). -/
  width : Nat
  deriving DecidableEq, Repr, Inhabited

/-- The two host ports. -/
structure Ports where
  /-- Port A (17 R547). -/
  a : PortSt
  /-- Port B (17 R547). -/
  b : PortSt
  deriving DecidableEq, Repr, Inhabited

/-- Ports at reset. -/
def Ports.reset : Ports where
  a := ⟨false, true, true, none, true, false, 4⟩
  b := ⟨false, true, true, none, true, false, 4⟩

/-- The always-on domain: device time, straps, reset state (R496, R522-R525, R546, R552). -/
structure Aon where
  /-- Device time (15 R496). -/
  us : Nat
  /-- Device time of VAON good of this start (17 R554). -/
  vaonUs : Nat
  /-- Straps as sampled (17 R546). -/
  straps : Straps
  /-- The start's boot steps have run (17 R552). -/
  booted : Bool
  /-- Core reset (17 R552). -/
  coreReset : Bool
  /-- TEST_EN was sampled at 1 (17 R546). -/
  testHold : Bool
  /-- LAST_RESET (16 R525). -/
  lastReset : Nat
  /-- WARM_CAUSE (16 R525). -/
  warmCause : Nat
  /-- CONDITION NO_MEDIA (03 R72). -/
  noMedia : Bool
  /-- CONDITION NO_DRAM (11 R349). -/
  noDram : Bool
  /-- CONDITION DRAM_RATE_REDUCED (11 R351). -/
  rateReduced : Bool
  /-- WARM_RESET that waits for executing commands (16 R524). -/
  warmCmd : Option MbxCmd
  /-- A warm device reset for a duplicated record waits for executing commands (11 R367). -/
  warmDue : Bool
  /-- A reset was requested after early warning (13 R411). -/
  superseded : Bool
  /-- LED_ACT_N held low for 50 ms after the last completion (17 R547). -/
  ledHold : Bool
  /-- An I/O command was outstanding when last looked at (17 R547). -/
  ledActive : Bool
  /-- SPDM version negotiated (10 R338). -/
  spdmVersion : Bool
  /-- SPDM algorithms negotiated (10 R338). -/
  spdmAlg : Bool
  deriving DecidableEq, Repr, Inhabited

/-- Aon at reset. -/
def Aon.reset : Aon where
  us := 0
  vaonUs := 0
  straps := ⟨0#2, 0#2, false, false, false, false⟩
  booted := false
  coreReset := true
  testHold := false
  lastReset := 0
  warmCause := 0
  noMedia := false
  noDram := false
  rateReduced := false
  warmCmd := none
  warmDue := false
  superseded := false
  ledHold := false
  ledActive := false
  spdmVersion := false
  spdmAlg := false

/-- The whole device (R2), its command queue and what it has sent. -/
structure State where
  /-- How the drive maker built the drive: part, dies and DRAM (R3, R69, R71, R76, R349). No command changes it. -/
  board : Board
  /-- The geometry record of the Hem store and what discovery found (R72). -/
  geo : Geo
  /-- The manager mailbox of the device (R36-R68). -/
  mbx : Mbx
  /-- The bolt table (R84, R166). -/
  bolts : Bolts
  /-- Every die (R69-R77). -/
  dies : Dies
  /-- The write path: Tack table, writes in flight, swatches, staging and accumulators (R105-R136). -/
  wr : WritePath
  /-- The read path: reads in progress, darns, decoders and lanes (R137-R161, R317). -/
  rd : ReadPath
  /-- Reclamation, refresh, retirement and their counters (R166-R197). -/
  recl : Reclaim
  /-- Bobbins, roles, the Weave's messages and the Tailor pairs (R198-R220). -/
  eng : Engine
  /-- The stitch gauge and the working pace (R23-R28, R222). -/
  gauge : Gauge
  /-- The channel bus arbiters and Feature C4h (R223-R229). -/
  chan : Channels
  /-- Functions, tenants, handles and the intake arbiter (R231-R309). -/
  host : HostSide
  /-- DRAM, on-die SRAM, ECC, scrubber and Shuttle (R348-R375). -/
  mem : Mem
  /-- The Hem store: banks, window, boot twins and firmware state (R376-R407). -/
  hem : Hem
  /-- Input sensing, early warning, the flush, the bank and the cap (R408-R430, R440). -/
  supply : Supply
  /-- Sanitise (R431-R437). -/
  san : San
  /-- Power domains, power states, VCORE, wakes (R448-R473). -/
  pow : Power
  /-- The 25 MHz reference (R468, R469). -/
  clk : Clock
  /-- Sensors, thresholds, commas, hold and the shutdown latch (R474-R490). -/
  therm : Thermal
  /-- The Pattern Book (R491-R499). -/
  pb : PBook
  /-- Host time and the device-wide yardage settings (R501, R507). -/
  yard : Yardage
  /-- The Selvedge log (R511-R513). -/
  selv : Selvedge
  /-- Debug authorisation and the Fray unit (R517-R521). -/
  dbg : Debug
  /-- The two host ports. -/
  port : Ports
  /-- The always-on domain: device time, straps, reset state (R496, R522-R525, R546, R552). -/
  aon : Aon
  /-- What the device has sent to its hosts, newest first (the model's own, log 9). -/
  out : List Out
  /-- The next free value to be drawn (the model's own, log 11). -/
  fresh : Nat
  /-- The commands that wait, first in, first out. -/
  pending : List Instr
  deriving DecidableEq, Repr, Inhabited

/-- Why the device stops with a fault. -/
inductive Fault where
  /-- Raised by nothing: no rule of the spec lets the block stop (safe). -/
  | unreachable
  deriving DecidableEq, Repr

/-- Why a command is refused. -/
inductive Refusal where
  /-- Raised by the dispatch arm of a command without a meaning (safe: the run stops). -/
  | notModelled (mnemonic : String)
  deriving DecidableEq, Repr

/-- The device before its first power-on: every register at its reset value, and nothing pending. -/
def State.reset : State where
  board := .reset
  geo := .reset
  mbx := .reset
  bolts := .reset
  dies := .reset
  wr := .reset
  rd := .reset
  recl := .reset
  eng := .reset
  gauge := .reset
  chan := .reset
  host := .reset
  mem := .reset
  hem := .reset
  supply := .reset
  san := .reset
  pow := .reset
  clk := .reset
  therm := .reset
  pb := .reset
  yard := .reset
  selv := .reset
  dbg := .reset
  port := .reset
  aon := .reset
  out := []
  fresh := 0
  pending := []

end Sys2Proof.Machine
end

