-- ==== Sys2Proof/Machine/Ops.lean ====
section
/-! DEFINITION. Named operations over tables, memories, device time, the Selvedge log and the Pattern Book. -/

namespace Sys2Proof.Machine

/-! Sparse tables: entries by a rising number; a number with no entry holds the table's default. -/

/-- The entry of `k`, or `d`. -/
def Tab.get {α : Type} (d : α) : List (Nat × α) → Nat → α
  | [], _ => d
  | (j, v) :: r, k => if j = k then v else Tab.get d r k

/-- The entry of `k`, if any. -/
def Tab.find {α : Type} : List (Nat × α) → Nat → Option α
  | [], _ => none
  | (j, v) :: r, k => if j = k then some v else Tab.find r k

/-- The table with entry `k` set to `v`. -/
def Tab.set {α : Type} : List (Nat × α) → Nat → α → List (Nat × α)
  | [], k, v => [(k, v)]
  | (j, w) :: r, k, v =>
    if k < j then (k, v) :: (j, w) :: r else if j = k then (k, v) :: r else (j, w) :: Tab.set r k v

/-- The table without entry `k`. -/
def Tab.del {α : Type} (t : List (Nat × α)) (k : Nat) : List (Nat × α) := t.filter (fun p => p.1 ≠ k)

/-- Entry `k` changed by `f`, from the default `d` where there is none. -/
def Tab.upd {α : Type} (d : α) (t : List (Nat × α)) (k : Nat) (f : α → α) : List (Nat × α) :=
  Tab.set t k (f (Tab.get d t k))

/-- `n` added to counter `k`, saturating at 64 bits. -/
def Tab.bump (t : List (Nat × Nat)) (k n : Nat) : List (Nat × Nat) :=
  Tab.upd 0 t k (fun v => min (v + n) (2 ^ 64 - 1))

/-- An element put into a sorted list, before its equals. -/
def insertOn {α : Type} (le : α → α → Bool) (a : α) : List α → List α
  | [] => [a]
  | b :: r => if le a b then a :: b :: r else b :: insertOn le a r

/-- A list in ascending order, equals in the order they stand in. -/
def sortOn {α : Type} (le : α → α → Bool) : List α → List α
  | [] => []
  | a :: r => insertOn le a (sortOn le r)

/-- Number `i` of a list of counters raised by `n`. -/
def bumpAt : List Nat → Nat → Nat → List Nat
  | [], _, _ => []
  | v :: r, 0, n => min (v + n) (2 ^ 64 - 1) :: r
  | v :: r, i + 1, n => v :: bumpAt r i n

/-- The lowest number below `n`, counted from `k`, that is not in `used` (R56: lowest free). -/
def lowestFree (used : List Nat) (k : Nat) : Nat → Option Nat
  | 0 => none
  | n + 1 => if used.contains k then lowestFree used (k + 1) n else some k

/-- Whether a list meets another. -/
def meets (xs ys : List Nat) : Bool := xs.any ys.contains

/-- `x` appended unless it is already there. -/
def addOnce (xs : List Nat) (x : Nat) : List Nat := if xs.contains x then xs else xs ++ [x]

/-- The smallest of a list, if any. -/
def minOf : List Nat → Option Nat
  | [] => none
  | x :: r => match minOf r with
    | none => some x
    | some y => some (min x y)

/-- The largest of a list, if any. -/
def maxOf : List Nat → Option Nat
  | [] => none
  | x :: r => match maxOf r with
    | none => some x
    | some y => some (max x y)

/-- The set bits of a mask, lowest first. -/
def bitsOf (mask : Nat) (n : Nat) : List Nat := (List.range n).filter mask.testBit

/-- The mask with the bits of a list set. -/
def maskOf (xs : List Nat) : Nat := xs.eraseDups.foldl (fun m i => m + 2 ^ i) 0

/-! Functions. -/

/-- The table number of a function. -/
def fnKey (f : FnId) : Nat := (match f.port with | .a => 0 | .b => 1024) + f.vf

/-- The state of a function. -/
def State.fn (s : State) (f : FnId) : Fn := Tab.get default s.host.fns (fnKey f)

/-- The manager physical function (R36, R38). -/
def State.managerFn (s : State) : FnId := ⟨s.mbx.manager, 0⟩

/-! Memories in canonical form. -/

/-- Addresses strictly rising from above `lo`, and no byte that reads as an unlisted one. -/
def Memory.wfFrom : Option Nat → Memory → Bool
  | _, [] => true
  | lo, (a, b) :: r =>
    (match lo with
      | none => true
      | some l => decide (l < a)) && decide (b ≠ 0#8) && Memory.wfFrom (some a) r

/-- The canonical form of a memory. -/
def Memory.wf (m : Memory) : Bool := Memory.wfFrom none m

/-- The byte at an address; an unlisted one reads 0 (log 8). -/
def Memory.read : Memory → Nat → Byte
  | [], _ => 0#8
  | (j, b) :: r, a => if j = a then b else Memory.read r a

/-- The memory with one byte written. -/
def Memory.write : Memory → Nat → Byte → Memory
  | [], a, b => if b = 0#8 then [] else [(a, b)]
  | (j, c) :: r, a, b =>
    if a < j then (if b = 0#8 then (j, c) :: r else (a, b) :: (j, c) :: r)
    else if j = a then (if b = 0#8 then r else (a, b) :: r)
    else (j, c) :: Memory.write r a b

/-- `n` bytes from an address. -/
def Memory.readBytes (m : Memory) (a : Nat) : Nat → List Byte
  | 0 => []
  | n + 1 => m.read a :: Memory.readBytes m (a + 1) n

/-- Bytes written from an address upwards. -/
def Memory.writeBytes (m : Memory) (a : Nat) : List Byte → Memory
  | [] => m
  | b :: bs => Memory.writeBytes (m.write a b) (a + 1) bs

/-- The little-endian number of `n` bytes from an address. -/
def Memory.num (m : Memory) (a n : Nat) : Nat := numLE (m.readBytes a n)

/-! Output and free values. -/

/-- What the device sends is recorded, newest first. -/
def State.push (s : State) (o : Out) : State := { s with out := o :: s.out }

/-- The next free number and the state after drawing it (log 11). -/
def State.draw (s : State) : Nat × State := (Config.freeNat s.fresh, { s with fresh := s.fresh + 1 })

/-! The Fray unit's rules (R518, R519). -/

/-- Whether an event of a target, selector and class is one of those that a rule counts (R519, R530). -/
def FrayRule.counts (r : FrayRule) (target sel cls : Nat) : Bool :=
  decide (fieldLE r.raw 0 1 = target ∧ fieldLE r.raw 1 1 = sel ∧ (fieldLE r.raw 14 1 = 0 ∨ fieldLE r.raw 14 1 = cls))

/-- Whether a rule has not reached its LIMIT (R519). -/
def FrayRule.live (r : FrayRule) : Bool := decide (fieldLE r.raw 8 4 = 0 ∨ r.fired < fieldLE r.raw 8 4)

/-- Whether a rule's trigger fires at its present count of events and LFSR value (R519). -/
def FrayRule.trips (r : FrayRule) : Bool :=
  let n := fieldLE r.raw 4 4
  match fieldLE r.raw 3 1 with
  | 1 => decide (r.events % n = 0)
  | 2 => decide (r.events = n)
  | _ => decide (r.lfsr.toNat % 2 ^ n = 0)

/-- One rule meets an event that it counts: its action if it fires, with HITS counted and the trigger pulse sent (R519,
R520). The LFSR's next value is a free one (log 11). -/
def State.frayRule (s : State) (i : Nat) (r : FrayRule) : Option Nat × State :=
  let (v, s) := s.draw
  let r := { r with events := r.events + 1, lfsr := BitVec.ofNat 64 v }
  if r.live && r.trips then
    let s := { s with dbg.rules := s.dbg.rules.set i { r with fired := r.fired + 1 } }
    (some (fieldLE r.raw 2 1), if s.dbg.trigOut ∧ fieldLE r.raw 13 1 % 2 = 1 then s.push (.pin 6 0) else s)
  else (none, { s with dbg.rules := s.dbg.rules.set i r })

/-- An event that the Fray unit may meet: the actions of the rules that fire, and the state with them counted (R519). -/
def State.fray (s : State) (target sel cls : Nat) : List Nat × State :=
  if s.dbg.armed then
    s.dbg.rules.zipIdx.foldl (fun (p : List Nat × State) e =>
      if e.1.counts target sel cls then
        let (a, s) := p.2.frayRule e.2 e.1
        (p.1 ++ a.toList, s)
      else p) ([], s)
  else ([], s)

/-- The port and the TLP class of R530 of what is sent to a host: 1 for a memory write, 3 for an MSI-X message. -/
def Out.tlp : Out → Option (Port × Nat)
  | .cqe f _ _ _ _ _ => some (f.port, 1)
  | .msix f _ => some (f.port, 3)
  | .mbx p _ _ => some (p, 1)
  | .data f _ _ _ => some (f.port, 1)
  | .mem p _ _ => some (p, 1)
  | _ => none

/-- The state after the device has sent `o`; a TLP that the Fray unit drops is not sent (R518), and none is sent once the
host ports are stopped (R412). -/
def State.emit (s : State) (o : Out) : State :=
  match o.tlp with
  | none => s.push o
  | some (p, cls) =>
    if s.supply.portsStopped then s else
    let (acts, s) := s.fray 4 (match p with | .a => 0 | .b => 1) cls
    if acts.contains 1 then s else s.push o

/-- The number of a part: its bit in PARTS (R389), and what the security record measures (R339). -/
def Part.no : Part → Nat
  | .tmy9632e => 0
  | .tmy9632n => 1
  | .tmy9616e => 2
  | .tmy9616n => 3

/-! CRC-8 of R383 (polynomial 0x07, initial value 0). -/

/-- One CRC-8 step per remaining bit. -/
def crc8Bits : Nat → Nat → Nat
  | 0, c => c
  | n + 1, c => crc8Bits n (if c.testBit 7 then Nat.xor (c * 2 % 256) 7 else c * 2 % 256)

/-- CRC-8 of a list of bytes from a running value. -/
def crc8 : Nat → List Byte → Nat
  | c, [] => c
  | c, b :: bs => crc8 (crc8Bits 8 (Nat.xor c b.toNat)) bs

/-! Device time (R496). -/

/-- Device time, in µs. -/
def State.now (s : State) : Nat := s.aon.us

/-- Device time moved on to `t`; it never runs back (R496, log 12). -/
def State.atTime (s : State) (t : Nat) : State := { s with aon.us := max s.aon.us t }

/-- The low 16 bits of the boot count. -/
def State.boot16 (s : State) : Nat := s.hem.bootCount % 65536

/-! The Selvedge log (R511, R512). -/

/-- What a Selvedge entry says, but for the time, boot and sequence that capture adds. -/
structure Viol where
  source : Nat
  code : Nat
  tenant : Nat := 0
  fn : Nat := 0xFFFF
  loc : Nat := 0
  detail : Nat := 0
  answer : Nat := 0
  flags : Nat := 0

/-- One violation posted to the capture queue; dropped and counted in LOST where the queue is full (R511). -/
def State.selvedge (s : State) (v : Viol) : State :=
  if s.selv.queue.length < 64 then
    let e : SelvEntry := ⟨s.now, s.boot16, v.source, v.code, v.tenant, v.fn, v.loc, v.detail % 2 ^ 32, s.selv.seq + 1,
      v.answer, v.flags⟩
    { s with selv.queue := s.selv.queue ++ [e], selv.seq := s.selv.seq + 1 }
  else { s with selv.lost := min (s.selv.lost + 1) (2 ^ 32 - 1) }

/-- The second failure of a Hem program or erase: HEM_DEGRADED and a Selvedge entry (R382). -/
def State.hemFailed (s : State) : State :=
  ({ s with hem.degraded := true } : State).selvedge { source := 4, code := 0x43, answer := 1 }

/-- A die's location field (R512). -/
def dieLoc (d : DieId) : Nat := d.ch * 256 + d.pos

/-! The Pattern Book (R491-R499). -/

/-- Whether a Pattern Book freeze is in force (R499). -/
def State.pbFrozen (s : State) : Bool := s.pb.frozen.isSome

/-- Device counter `i` raised by `n` (R494), held during a freeze (R499). -/
def State.pbCount (s : State) (i n : Nat) : State :=
  if n = 0 then s
  else if s.pbFrozen then { s with pb.heldCounters := s.pb.heldCounters ++ [(i, n)] }
  else { s with pb.counters := Tab.bump s.pb.counters i n, pb.dirty := true }

/-- Whether extreme `i` keeps the lowest value (R493). -/
def extremeLow (i : Nat) : Bool := [1, 3, 5, 6, 16].contains i

/-- Extreme `i` offered a sample; only a strictly more extreme value replaces it (R493). -/
def State.pbExtremeNow (s : State) (i : Nat) (x : Extreme) : State :=
  let better := match Tab.find s.pb.extremes i with
    | none => true
    | some e => if extremeLow i then decide (x.value < e.value) else decide (e.value < x.value)
  if better then { s with pb.extremes := Tab.set s.pb.extremes i x, pb.dirty := true } else s

/-- Extreme `i` offered the value `v`, held during a freeze (R499). -/
def State.pbExtreme (s : State) (i : Nat) (v : Int) : State :=
  let x : Extreme := ⟨v, s.boot16, s.now⟩
  if s.pbFrozen then { s with pb.heldExtremes := s.pb.heldExtremes ++ [(i, x)] } else s.pbExtremeNow i x

/-- Bucket of scheme Q: quarter octaves, from the exact fourth power (R491). -/
def bucketQ (v : Nat) : Nat := if v = 0 then 0 else min 63 (Nat.log2 (v ^ 4) + 1)

/-- Bucket of scheme T for a reading in 0.125 °C (R491). -/
def bucketT (r : Int) : Nat := if r < 0 then 0 else min 63 (r.toNat / 16 + 1)

/-- Bucket of scheme V for a voltage in mV (R491). -/
def bucketV (v : Nat) : Nat := if v < 8000 then 0 else min 63 ((v - 8000) / 100 + 1)

/-- Bucket of scheme Cw (R491). -/
def bucketC (w v : Nat) : Nat := min 63 (v / w)

/-- Tenant counter `i` of R497 raised by `n`, held during a freeze. -/
def State.pbTenant (s : State) (slot i n : Nat) : State :=
  if n = 0 then s
  else if s.pbFrozen then { s with pb.heldTenant := s.pb.heldTenant ++ [(slot, (i, n))] }
  else match Tab.find s.host.tenants slot with
    | none => s
    | some t => { s with host.tenants := Tab.set s.host.tenants slot { t with pb := Tab.bump t.pb (1024 + i) n } }

/-- One sample of histogram `h` in bucket `b` (R492), of a tenant's own record too where it is a tenant's (R497); during
a freeze it is discarded and counted as missed (R499). -/
def State.pbSample (s : State) (tenant : Option Nat) (h b : Nat) : State :=
  if s.pbFrozen then
    let s := ({ s with pb.missed := s.pb.missed + 1 } : State).pbCount 10 1
    match tenant with
    | none => s
    | some slot => s.pbTenant slot 6 1
  else
    let s : State := { s with pb.hist := Tab.bump s.pb.hist (h * 64 + b) 1, pb.dirty := true }
    match tenant with
    | none => s
    | some slot => match Tab.find s.host.tenants slot with
      | none => s
      | some t => { s with host.tenants := Tab.set s.host.tenants slot { t with pb := Tab.bump t.pb (h * 64 + b) 1 } }

end Sys2Proof.Machine
end

