-- ==== Sys2Proof/Machine/Operands.lean ====
section
/-! DEFINITION. Operand forms of the mailbox commands: the fields of a slot (R43), reserved runs (R44, R565), handles
(R55-R58), buffers (R44), and the order of the status codes (R60). -/

namespace Sys2Proof.Machine

/-! Claind status codes (R59). -/

def stOk : Nat := 0x00
def stBusyRetry : Nat := 0x01
def stBadOpcode : Nat := 0x02
def stBadField : Nat := 0x03
def stStale : Nat := 0x04
def stPoolEmpty : Nat := 0x05
def stQuota : Nat := 0x06
def stNotPermitted : Nat := 0x07
def stFrozen : Nat := 0x08
def stRoleMoved : Nat := 0x09
def stLocked : Nat := 0x0A
def stMediaFault : Nat := 0x0B
def stAuthFail : Nat := 0x0C
def stTimeout : Nat := 0x0D
def stConflict : Nat := 0x0E
def stPowerLimited : Nat := 0x0F

/-- The place of a status in the order of R60; the three that arise only during execution come last. -/
def statusRank (st : Nat) : Nat :=
  [stBadOpcode, stBadField, stStale, stNotPermitted, stAuthFail, stFrozen, stLocked, stConflict, stQuota, stPoolEmpty,
    stPowerLimited, stBusyRetry].idxOf st

/-- The first status, in the order of R60, whose condition holds. -/
def firstStatus : List (Bool × Nat) → Option Nat
  | [] => none
  | (c, st) :: r =>
    match c, firstStatus r with
    | false, o => o
    | true, none => some st
    | true, some o => if statusRank st ≤ statusRank o then some st else some o

/-- The lowest of the offsets of the offences present (R565). -/
def lowestOffset : List (Option Nat) → Option Nat
  | [] => none
  | none :: r => lowestOffset r
  | some o :: r => match lowestOffset r with
    | none => some o
    | some p => some (min o p)

/-- An offence at an offset, where its condition holds. -/
def badIf (c : Bool) (off : Nat) : Option Nat := if c then some off else none

/-- What the execution of a mailbox command answers: the new state, its status (none while it goes on executing), its
FIELD_OFFSET, its RESULT_HANDLE and its RESULT as a little-endian number. -/
structure MbxRes where
  state : State
  status : Option Nat
  offset : Nat := 0xFFFF
  handle : Nat := 0
  result : Nat := 0

/-- The command completes with a status and changes nothing. -/
def MbxRes.err (s : State) (st : Nat) : MbxRes := { state := s, status := some st }

/-- The command completes with BAD_FIELD at an offset. -/
def MbxRes.bad (s : State) (off : Nat) : MbxRes := { state := s, status := some stBadField, offset := off }

/-- The command completes with OK. -/
def MbxRes.ok (s : State) (handle : Nat := 0) (result : Nat := 0) : MbxRes :=
  { state := s, status := some stOk, handle := handle, result := result }

/-- The command goes on executing. -/
def MbxRes.goesOn (s : State) : MbxRes := { state := s, status := none }

/-- A RESULT field: `len` bytes at completion offset `off` (20-31). -/
def fld (off len v : Nat) : Nat := v % 2 ^ (8 * len) * 2 ^ (8 * (off - 20))

/-! Fields of a slot. -/

end Sys2Proof.Machine

namespace Sys2Proof

open Machine

/-- The field of `len` bytes at slot offset `off` in PARAMS. -/
def MbxReq.p (r : MbxReq) (off len : Nat) : Nat := fieldLE r.params (off - 16) len

/-- The first nonzero byte of a reserved run of PARAMS. -/
def MbxReq.rsv (r : MbxReq) (off len : Nat) : Option Nat := (firstNonzero r.params (off - 16) len).map (· + 16)

/-- Bits of a PARAMS byte that must be zero from bit `bit` up. -/
def MbxReq.rsvBits (r : MbxReq) (off bit : Nat) : Option Nat := badIf (decide (2 ^ bit ≤ r.p off 1)) off

/-- One flag bit of PARAMS. -/
def MbxReq.bit (r : MbxReq) (off bit : Nat) : Bool := (r.p off 1).testBit bit

/-- ORDERED. -/
def MbxReq.ordered (r : MbxReq) : Bool := r.flags.getLsbD 0

/-- NO_IRQ. -/
def MbxReq.noIrq (r : MbxReq) : Bool := r.flags.getLsbD 1

/-- The offences in the part of a slot that every command shares (R43, R44). -/
def MbxReq.common (r : MbxReq) : List (Option Nat) :=
  [badIf (decide (4 ≤ r.flags.toNat)) 4, (firstNonzero r.rsvA 0 3).map (· + 5), (firstNonzero r.rsvB 0 4).map (· + 12)]

end Sys2Proof

namespace Sys2Proof.Machine

/-- The bytes of a slot, as the host writes them. -/
def slotBytes (op : BitVec 16) (r : MbxReq) : List Byte :=
  bytesLE 2 op.toNat ++ bytesLE 2 r.tag.toNat ++ bytesLE 1 r.flags.toNat ++ bytesLE 3 r.rsvA.toNat ++
    bytesLE 4 r.target.toNat ++ bytesLE 4 r.rsvB.toNat ++ bytesLE 48 r.params.toNat

/-! Handles (R55-R58). -/

/-- A handle of a kind, slot and generation. -/
def mkHandle (kind slot gen : Nat) : Nat := kind * 2 ^ 28 + slot * 2 ^ 12 + gen

/-- Slots of a kind (R56). -/
def kindSlots : Nat → Nat
  | 1 => 1024
  | 2 => 8192
  | 3 => 65536
  | 4 => 2048
  | 5 => 16384
  | 6 => 64
  | _ => 0

/-- The generation of a slot. -/
def State.gen (s : State) (kind slot : Nat) : Nat := Tab.get 1 s.host.gens (kind * 65536 + slot)

/-- The handle of the object in a slot. -/
def State.handleOf (s : State) (kind slot : Nat) : Nat := mkHandle kind slot (s.gen kind slot)

/-- The slot's generation advanced by one, from 4,095 to 1 (R58). -/
def State.bumpGen (s : State) (kind slot : Nat) : State :=
  { s with host.gens := Tab.set s.host.gens (kind * 65536 + slot) (if s.gen kind slot = 4095 then 1 else s.gen kind slot + 1) }

/-- The tenant in a slot, if any. -/
def State.tenant (s : State) (slot : Nat) : Option Tenant := Tab.find s.host.tenants slot

/-- A tenant with nothing. -/
def Tenant.nothing : Tenant := default

/-- The tenant in a slot; one with nothing where the slot is empty. -/
def State.tenantD (s : State) (slot : Nat) : Tenant := (s.tenant slot).getD Tenant.nothing

/-- The slot part of a handle. -/
def handleSlot (h : Nat) : Nat := h / 2 ^ 12 % 2 ^ 16

/-- The tenant that owns the object in a slot of a kind, where the object exists (R53, R56). -/
def State.ownerOf (s : State) (kind slot : Nat) : Option Nat :=
  match kind with
  | 1 => (s.tenant slot).map (fun _ => slot)
  | 2 => (s.host.tenants.find? (fun p => p.2.qpairs.any (fun q => decide (q.slot = slot) && !q.revoked))).map (·.1)
  | 3 => match s.tenant (slot / 64) with
    | some t => if t.placements.any (fun p => decide (p.index = slot % 64)) then some (slot / 64) else none
    | none => none
  | 4 => (s.tenant (slot / 2)).map (fun _ => slot / 2)
  | 5 => (s.host.tenants.find? (fun p => p.2.blocks.any (fun b => decide (handleSlot b.handle = slot)))).map (·.1)
  | 6 => (s.host.snaps.find? (fun x => decide (x.slot = slot) && x.held)).map (·.tenant)
  | _ => none

/-- What the check of a handle finds (R57). -/
inductive HandleCheck where
  | bad
  | stale
  | valid (slot owner : Nat)
  deriving DecidableEq, Repr

/-- The check of a handle against one kind (R57). -/
def State.checkHandle (s : State) (kind h : Nat) : HandleCheck :=
  if h / 2 ^ 28 ≠ kind then .bad
  else if kindSlots kind ≤ handleSlot h || h % 2 ^ 12 = 0 then .bad
  else match s.ownerOf kind (handleSlot h) with
    | none => .stale
    | some o => if s.gen kind (handleSlot h) = h % 2 ^ 12 then .valid (handleSlot h) o else .stale

/-- Whether a handle fails step 1 or 2 of R57. -/
def State.handleBad (s : State) (kind h : Nat) : Bool :=
  match s.checkHandle kind h with
  | .bad => true
  | _ => false

/-- Whether a handle is stale (R57). -/
def State.handleStale (s : State) (kind h : Nat) : Bool :=
  match s.checkHandle kind h with
  | .stale => true
  | _ => false

/-- The tenant that owns what a handle of any kind names, where it is valid. -/
def State.handleOwner (s : State) (h : Nat) : Option Nat :=
  match s.checkHandle (h / 2 ^ 28) h with
  | .valid _ o => some o
  | _ => none

/-! Buffers (R44). -/

end Sys2Proof.Machine

namespace Sys2Proof

open Machine

/-- The offences of a buffer's address and length fields. -/
def MbxReq.bufOffences (r : MbxReq) (addrOff lenOff minLen : Nat) : List (Option Nat) :=
  [badIf (decide (r.p addrOff 8 % 64 ≠ 0)) addrOff,
    badIf (decide (r.p lenOff 4 = 0 ∨ r.p lenOff 4 > 2 ^ 20 ∨ r.p lenOff 4 < minLen)) lenOff]

end Sys2Proof

namespace Sys2Proof.Machine

/-- The outcome of the first condition that stops a command, BAD_FIELD offences first (R60). -/
def mbxVerdict (bad : List (Option Nat)) (rest : List (Bool × Nat)) : Option (Nat × Nat) :=
  match lowestOffset bad with
  | some off => some (stBadField, off)
  | none => (firstStatus rest).map (fun st => (st, 0xFFFF))

end Sys2Proof.Machine

namespace Sys2Proof

open Machine

/-- A command that its checks stop, or what it does once they pass. -/
def MbxReq.guard (r : MbxReq) (s : State) (bad : List (Option Nat)) (rest : List (Bool × Nat)) (act : Unit → MbxRes) :
    MbxRes :=
  match mbxVerdict (r.common ++ bad) rest with
  | some (st, off) => { state := s, status := some st, offset := off }
  | none => act ()

/-- The checks of a command whose TARGET must be 0 (R61). -/
def MbxReq.guard0 (r : MbxReq) (s : State) (bad : List (Option Nat)) (rest : List (Bool × Nat)) (act : Unit → MbxRes) :
    MbxRes :=
  r.guard s (badIf (decide (r.target ≠ 0#32)) 8 :: bad) rest act

/-- The checks of a command whose TARGET is an object of a kind (R57, R61); with `frozenOk` unset, one of a frozen
tenant completes with FROZEN (R66). -/
def MbxReq.guardH (r : MbxReq) (s : State) (kind : Nat) (frozenOk : Bool) (bad : List (Option Nat))
    (rest : Nat → Tenant → List (Bool × Nat)) (act : Nat → Nat → Tenant → MbxRes) : MbxRes :=
  let h := r.target.toNat
  let owner := (s.handleOwner h).getD 0
  let t := s.tenantD owner
  r.guard s (badIf (s.handleBad kind h) 8 :: bad)
    ((s.handleStale kind h, stStale) :: (!frozenOk && t.frozen, stFrozen) :: rest (handleSlot h) t)
    (fun _ => act (handleSlot h) owner t)

/-- A command that writes the Hem store: POWER_LIMITED once early warning has latched (R411), and MEDIA_FAULT and nothing of
its own changed where its program fails (R382). -/
def MbxReq.hem (r : MbxReq) (s : State) (act : Unit → MbxRes) : MbxRes :=
  if s.supply.ewLatched then MbxRes.err s stPowerLimited
  else if r.env.hemOk then act () else MbxRes.err s.hemFailed stMediaFault

/-- The conditions of a command that is no query: BUSY_RETRY while a sanitise runs (R432). -/
def Machine.State.acts (s : State) : List (Bool × Nat) := [(s.san.s.running, stBusyRetry)]

/-- The conditions of a command that writes NAND or the Hem store: POWER_LIMITED once early warning has latched (R411), and
those of every command that is no query. -/
def Machine.State.writes (s : State) : List (Bool × Nat) := (s.supply.ewLatched, stPowerLimited) :: s.acts

/-- Bus Master Enable of the manager function. -/
def Machine.State.bme (s : State) : Bool := (s.fn s.managerFn).bme

/-- The condition of a command that names a buffer: NOT_PERMITTED while Bus Master Enable is clear (R44). -/
def Machine.State.buffers (s : State) : List (Bool × Nat) := [(!s.bme, stNotPermitted)]

/-- An offence found in a buffer that the device can read: the host refuses its read, or what it holds (R44). -/
def MbxReq.badInput (r : MbxReq) (s : State) (wrong : Bool) (off : Nat) : Option Nat :=
  badIf (s.bme && (!r.env.bufOk || wrong)) off

/-- A buffer access that the host answers with an error completes with BAD_FIELD at the address field (R44). -/
def MbxReq.buffer (r : MbxReq) (s : State) (addrOff : Nat) (act : Unit → MbxRes) : MbxRes :=
  if r.env.bufOk then act () else MbxRes.bad s addrOff

/-- The bytes of a command's input buffer, cut or padded with zeros to its length. -/
def MbxReq.input (r : MbxReq) (len : Nat) : List Byte := r.env.buf.take len ++ List.replicate (len - r.env.buf.length) 0#8

/-- Bytes written to the manager's buffer, as many as it holds. -/
def MbxReq.output (r : MbxReq) (s : State) (addrOff lenOff : Nat) (bytes : List Byte) : State :=
  s.emit (.mem s.mbx.manager (r.p addrOff 8) (bytes.take (r.p lenOff 4)))

end Sys2Proof

namespace Sys2Proof.Machine

/-- The number of a run of bytes of an input buffer. -/
def bufNum (bs : List Byte) (off len : Nat) : Nat := numLE ((bs.drop off).take len)

end Sys2Proof.Machine
end

