-- ==== Sys2Proof/Machine/Flags.lean ====
section
/-! DEFINITION. Status and flag computations: the NVMe status values (type x 256 + code) with the DNR bit of R564, the
classes of commands, and their QoS class bounds (R247). The NVMe codes themselves are NVMe 2.0's (log 35). -/

namespace Sys2Proof.Machine

def nvOk : Nat := 0x000
def nvBadOpcode : Nat := 0x001
def nvBadField : Nat := 0x002
def nvCidConflict : Nat := 0x003
def nvTransferError : Nat := 0x004
def nvInternal : Nat := 0x006
def nvAborted : Nat := 0x007
def nvSqDeleted : Nat := 0x008
def nvBadNs : Nat := 0x00B
def nvSequence : Nat := 0x00C
def nvSglCount : Nat := 0x00E
def nvSglLength : Nat := 0x00F
def nvSglType : Nat := 0x011
def nvPrpOffset : Nat := 0x013
def nvSanitizeFailed : Nat := 0x01C
def nvSanitizing : Nat := 0x01D
def nvLbaRange : Nat := 0x080
def nvFormatting : Nat := 0x084
def nvCqInvalid : Nat := 0x100
def nvBadQid : Nat := 0x101
def nvBadQsize : Nat := 0x102
def nvAerLimit : Nat := 0x105
def nvFwSlot : Nat := 0x106
def nvFwImage : Nat := 0x107
def nvBadVector : Nat := 0x108
def nvBadLog : Nat := 0x109
def nvBadFormat : Nat := 0x10A
def nvFwReset : Nat := 0x10B
def nvBadDeletion : Nat := 0x10C
def nvNotSaveable : Nat := 0x10D
def nvNotPerNs : Nat := 0x10F
def nvFwProhibited : Nat := 0x113
def nvOverlap : Nat := 0x114
def nvZoneBoundary : Nat := 0x1B8
def nvZoneFull : Nat := 0x1B9
def nvZoneReadOnly : Nat := 0x1BA
def nvZoneOffline : Nat := 0x1BB
def nvZoneInvalidWrite : Nat := 0x1BC
def nvTooManyActive : Nat := 0x1BD
def nvZoneTransition : Nat := 0x1BF
def nvUnrecovered : Nat := 0x281
def nvAccessDenied : Nat := 0x286
def nvQuarantined : Nat := 0x780
def nvStagingFull : Nat := 0x781
def nvAuthFailed : Nat := 0x782
def nvThermalHold : Nat := 0x784

/-- DNR of a status, where the rule that gives it does not set it itself (R261, R564). -/
def dnrOf (status : Nat) : Bool :=
  !([nvOk, nvTransferError, nvAborted, nvSqDeleted, nvSequence, nvSanitizing, nvFormatting, nvTooManyActive, nvFwReset,
    nvStagingFull, nvThermalHold].contains status)

/-- The QoS class bound in µs of a command kind and class; admin commands carry none (R34, R247). -/
def classBound (kind cls : Nat) : Option Nat :=
  match kind, cls with
  | 0, 0 => some 600
  | 0, 1 => some 800
  | 0, 2 => some 1000
  | 0, _ => some 10000
  | 1, _ => some 10000
  | 2, 0 => some 200
  | 2, 1 => some 300
  | 2, 2 => some 400
  | 2, _ => some 10000
  | 3, _ => some 20000
  | _, _ => none

/-- The class of a command of a queue: its QPRIO under weighted round robin (CC.AMS 1), Medium under round robin
(R242, R247). -/
def queueClass (ams prio : Nat) : Nat := if ams = 1 then min prio 3 else 2

/-- Parts of CC. -/
def ccEn (cc : BitVec 32) : Bool := cc.getLsbD 0

/-- CC.AMS. -/
def ccAms (cc : BitVec 32) : Nat := (cc.extractLsb' 11 3).toNat

/-- CC.SHN. -/
def ccShn (cc : BitVec 32) : Nat := (cc.extractLsb' 14 2).toNat

/-- Feature 08h THR and TIME. -/
def coalThr (c : BitVec 16) : Nat := c.toNat % 256

/-- Feature 08h TIME, in units of 100 µs. -/
def coalTime (c : BitVec 16) : Nat := c.toNat / 256

end Sys2Proof.Machine
end

