-- ==== Sys2Proof/Machine/Function.lean ====
section
/-! DEFINITION. PCIe functions: their queues, interrupts, events, error log and completions (R231-R271, R563), and the
count of host violations with quarantine (R250, R280, R281, R513). -/

namespace Sys2Proof.Machine

/-- The function of a table number. -/
def fnOfKey (k : Nat) : FnId := if k < 1024 then ⟨.a, k⟩ else ⟨.b, k - 1024⟩

/-- A port's number. -/
def portNo : Port → Nat
  | .a => 0
  | .b => 1

/-- The port of a number. -/
def portOf (n : Nat) : Port := if n = 0 then .a else .b

/-- The other port. -/
def otherPort : Port → Port
  | .a => .b
  | .b => .a

/-- The FUNCTION field of a Selvedge entry (R512). -/
def fnField (f : FnId) : Nat := portNo f.port * 32768 + f.vf

/-- The state with a function replaced. -/
def State.setFn (s : State) (f : FnId) (x : Fn) : State := { s with host.fns := Tab.set s.host.fns (fnKey f) x }

/-- The state with a function changed. -/
def State.updFn (s : State) (f : FnId) (g : Fn → Fn) : State := s.setFn f (g (s.fn f))

/-- The state with a tenant replaced. -/
def State.setTenant (s : State) (slot : Nat) (t : Tenant) : State :=
  { s with host.tenants := Tab.set s.host.tenants slot t }

/-- The state with a tenant, if it exists, changed. -/
def State.updTenant (s : State) (slot : Nat) (g : Tenant → Tenant) : State :=
  match s.tenant slot with
  | none => s
  | some t => s.setTenant slot (g t)

/-- The slot of the tenant bound to a function (R264). -/
def State.tenantOf (s : State) (f : FnId) : Option Nat :=
  (s.host.tenants.find? (fun p => decide (p.2.fn = some f))).map (·.1)

/-- Whether a function is the manager physical function. -/
def State.isManager (s : State) (f : FnId) : Bool := decide (f = s.managerFn)

/-- A slot that holds a base tenant (R264). -/
def isBase (slot : Nat) : Bool := decide (slot < 2)

/-- The base tenant of the manager function. -/
def State.managerBase (s : State) : Nat := portNo s.mbx.manager

/-! Queues. -/

/-- A submission queue by identifier. -/
def Fn.sq (x : Fn) (qid : Nat) : Option Sq := x.sqs.find? (fun q => decide (q.qid = qid))

/-- A completion queue by identifier. -/
def Fn.cq (x : Fn) (qid : Nat) : Option Cq := x.cqs.find? (fun q => decide (q.qid = qid))

/-- The function with one submission queue changed. -/
def Fn.updSq (x : Fn) (qid : Nat) (g : Sq → Sq) : Fn :=
  { x with sqs := x.sqs.map (fun q => if q.qid = qid then g q else q) }

/-- The function with one completion queue changed. -/
def Fn.updCq (x : Fn) (qid : Nat) (g : Cq → Cq) : Fn :=
  { x with cqs := x.cqs.map (fun q => if q.qid = qid then g q else q) }

/-- Whether a completion queue has a free entry (R241). -/
def Cq.hasRoom (q : Cq) : Bool := decide (q.size ≠ 0 ∧ (q.tail + 1) % q.size ≠ q.head)

/-- Posted and unconsumed entries of a completion queue. -/
def Cq.used (q : Cq) : Nat := (q.tail + q.size - q.head) % q.size

/-- I/O commands of a function that are granted and not complete. -/
def Fn.ioOut (x : Fn) : Nat := (x.granted.filter (fun o => decide (o.sqid ≠ 0))).length

/-- Admin commands of a function that are outstanding: fetched, executing, awaiting an event, or with a completion that has not
been written (R243). -/
def Fn.adminOut (x : Fn) : Nat :=
  (x.granted.filter (fun o => decide (o.sqid = 0))).length + x.aers.length +
    (match x.sq 0 with | none => 0 | some q => q.pre.length + q.fetching) +
    (match x.cq 0 with | none => 0 | some q => (q.waiting.filter (fun e => decide (e.sqid = 0))).length)

/-! Interrupts (R269-R271). -/

/-- The vector block that covers an entry. -/
def Tenant.blockOf (t : Tenant) (v : Nat) : Option VecBlock :=
  t.blocks.find? (fun b => decide (b.base ≤ v ∧ v < b.base + b.count))

/-- The vector block that covers an entry of a function's table. -/
def State.blockOf (s : State) (f : FnId) (v : Nat) : Option VecBlock :=
  match s.tenantOf f with
  | none => none
  | some t => (s.tenantD t).blockOf v

/-- A MSI-X entry as a grant or an FLR leaves it: masked, with no address or data (R269, R276). -/
def MsixEntry.fresh : MsixEntry := { (default : MsixEntry) with mask := true }

/-- A MSI-X entry of a function. -/
def Fn.entry (x : Fn) (v : Nat) : MsixEntry := Tab.get MsixEntry.fresh x.msix v

/-- A message issued on a vector: sent, or held in the PBA bit while the vector or the function is masked (R270). -/
def State.issueMsix (s : State) (f : FnId) (v : Nat) : State :=
  let x := s.fn f
  if x.msixEn then
    let e := x.entry v
    if e.mask || x.fmask then
      s.setFn f { x with msix := Tab.set x.msix v { e with pba := true, unsig := 0, gap := false } }
    else
      (s.setFn f { x with msix := Tab.set x.msix v { e with unsig := 0, lastUs := some s.now, gap := false } }).emit
        (.msix f v)
  else s

/-- Whether the minimum gap of a vector's block has passed since its last message (R271). -/
def State.gapOver (s : State) (f : FnId) (v : Nat) : Bool :=
  match s.blockOf f v, ((s.fn f).entry v).lastUs with
  | some b, some l => decide (l + b.minGapUs ≤ s.now)
  | _, _ => true

/-- A vector coalesces: it is not entry 0, and neither the tenant nor its block disables it (R270, R271). -/
def State.coalesces (s : State) (f : FnId) (v : Nat) : Bool :=
  decide (v ≠ 0) && !(s.fn f).cds.contains v &&
    !(match s.blockOf f v with | none => false | some b => b.forceCd)

/-- The effective aggregation time of a vector in µs (R271). -/
def State.aggTime (s : State) (f : FnId) (v : Nat) : Nat :=
  100 * (match s.blockOf f v with
    | none => coalTime (s.fn f).coal
    | some b => min (coalTime (s.fn f).coal) b.timeCap)

/-- The message of a vector is due: issued at once, or at the end of its block's minimum gap (R271). -/
def State.dueMsix (s : State) (f : FnId) (v : Nat) : State :=
  if s.gapOver f v then s.issueMsix f v
  else
    let x := s.fn f
    s.setFn f { x with msix := Tab.set x.msix v { x.entry v with gap := true } }

/-- A completion has been written to a queue with IEN = 1: its vector signals it now or later (R270). -/
def State.signal (s : State) (f : FnId) (v : Nat) : State :=
  let x := s.fn f
  let e := x.entry v
  let e := { e with unsig := e.unsig + 1, firstUs := if e.unsig = 0 then s.now else e.firstUs }
  let s := s.setFn f { x with msix := Tab.set x.msix v e }
  if !s.coalesces f v || decide (coalThr x.coal + 1 ≤ e.unsig) || decide (e.firstUs + s.aggTime f v ≤ s.now) then
    s.dueMsix f v
  else s

/-! Fetching (R234-R237). -/

/-- Fetch tags of a port in use. -/
def State.fetchTags (s : State) : Port → Nat
  | .a => s.host.fetchTagsA
  | .b => s.host.fetchTagsB

/-- The state with the fetch tags of a port changed. -/
def State.setTags (s : State) (p : Port) (n : Nat) : State :=
  match p with
  | .a => { s with host.fetchTagsA := n }
  | .b => { s with host.fetchTagsB := n }

/-- Entries the next fetch of a queue takes: contiguous entries from the fetch pointer to the tail, as many as there
are free prefetch slots (R236). -/
def Sq.fetchCount (q : Sq) : Nat :=
  let ahead := if q.fetchPtr ≤ q.tail then q.tail - q.fetchPtr else q.size - q.fetchPtr
  min ahead (4 - (q.pre.length + q.fetching))

/-- Whether early warning has latched or a thermal shutdown is under way: no commit is reached and nothing new is written
(R410, R485). -/
def State.lastCall (s : State) : Bool := s.supply.ewLatched || s.therm.shutDue

/-- Whether an entry to PS3 or PS4, or its rollback, is under way (R454, R463). -/
def State.entering (s : State) : Bool :=
  (match s.pow.target with | none => false | some t => decide (3 ≤ t)) &&
    (match s.pow.step with | .drain => true | .stops => true | .vcoreDown => true | .rollback => true | _ => false)

/-- Whether the bobbin groups do no work: in PS3 and PS4 until the end of the exit, and from the end of the entry's drain
to the end of its rollback (R451, R462, R463). -/
def State.asleep (s : State) : Bool :=
  decide (3 ≤ s.pow.ps) ||
    (s.entering && (match s.pow.step with | .drain => false | _ => true))

/-- Whether an exit from PS3 or PS4 is under way (R457). -/
def State.exiting (s : State) : Bool :=
  decide (3 ≤ s.pow.ps) && (match s.pow.step with | .vcoreUp => true | .starts => true | _ => false)

/-- Whether intake fetches at all: not after early warning, in a thermal shutdown, in an entry to PS3 or PS4 or in those
states before their exit, in the drain of a sanitise, while a warm device reset waits, or once the last Tailor pair is retired
(R220, R410, R432, R454, R457, R485, R524). -/
def State.fetchable (s : State) : Bool :=
  !s.lastCall && !s.entering && (decide (s.pow.ps < 3) || s.exiting) &&
    !(s.san.s.running && s.san.s.drain) && !s.eng.dead && s.aon.warmCmd.isNone && !s.aon.warmDue

/-- The entries that a fetch of a queue takes; the admin queue keeps to 16 outstanding commands (R236, R243). -/
def Fn.fetchSize (x : Fn) (q : Sq) : Nat := if q.qid = 0 then min q.fetchCount (16 - x.adminOut) else q.fetchCount

/-- Whether the fetch comma has passed: 100 ns at each level of L_D since the last fetch, in whole µs of device time (R483; log 99). -/
def State.fetchFree (s : State) : Bool :=
  decide (s.therm.ld = 0 ∨ s.host.lastFetchUs * 10 + s.therm.ld ≤ s.now * 10)

/-- Whether a queue's own conditions of R234 hold. Fetching stops at early warning, in a thermal shutdown and during a shutdown
notification (R410, R485, R523). -/
def State.mayFetch (s : State) (f : FnId) (q : Sq) : Bool :=
  decide (q.st = .active ∧ (s.fn f).fetchSize q ≠ 0 ∧ s.fetchTags f.port < 128 ∧ (s.fn f).shst = 0) && s.fetchable && s.fetchFree

/-- A fetch issued: the fetch comma counts from it (R483). -/
def State.fetched (s : State) : State := { s with host.lastFetchUs := s.now }

/-- Issues one fetch for a queue where its conditions hold. -/
def State.fetchOnce (s : State) (f : FnId) (qid : Nat) : State :=
  let x := s.fn f
  match x.sq qid with
  | none => s
  | some q =>
    let n := x.fetchSize q
    if s.mayFetch f q then
      ((s.setFn f (x.updSq qid (fun q =>
          { q with fetchPtr := (q.fetchPtr + n) % q.size, fetching := q.fetching + n, tags := q.tags + 1,
                   asked := q.asked ++ [s.now] }))).setTags f.port
        (s.fetchTags f.port + 1)).fetched.emit (.fetch f qid q.fetchPtr n)
    else s

/-- Issues the fetches of a queue: the entries after a wrap take a read of their own (R236). -/
def State.tryFetch (s : State) (f : FnId) (qid : Nat) : State := (s.fetchOnce f qid).fetchOnce f qid

/-- The queue among those of some functions whose doorbell landed first, of those that may be fetched from (R234, R235). -/
def State.firstWaiting (s : State) (fs : List FnId) : Option (FnId × Sq) :=
  let qs : List (FnId × Sq) := fs.flatMap (fun f => ((s.fn f).sqs.filter (s.mayFetch f)).map (fun q => (f, q)))
  qs.foldl (fun (best : Option (FnId × Sq)) p =>
    match best with
    | none => some p
    | some b => if p.2.capture < b.2.capture then some p else some b) none

/-- Issues the fetches of the queues of some functions, in the order in which their doorbells landed (R234). -/
def State.fetchIn : Nat → State → List FnId → State
  | 0, s, _ => s
  | n + 1, s, fs =>
    match s.firstWaiting fs with
    | none => s
    | some p => State.fetchIn n (s.fetchOnce p.1 p.2.qid) fs

/-- Issues the fetches of a function's queues. -/
def State.tryFetchAll (s : State) (f : FnId) : State := State.fetchIn (4 * (s.fn f).sqs.length) s [f]

/-- A queue put into a state; one that returns to ACTIVE is fetched from again (R237). -/
def State.setSqSt (s : State) (f : FnId) (qid : Nat) (st : QSt) : State :=
  (s.updFn f (fun x => x.updSq qid (fun q => { q with st := st }))).tryFetch f qid

/-! Completions (R241, R254, R255, R523). -/

/-- The index of the oldest entry of a queue that is fetched and not granted, or next to be fetched (R283). -/
def Sq.head (q : Sq) : Nat :=
  match q.pre with
  | e :: _ => e.index
  | [] => if q.size = 0 then 0 else (q.fetchPtr + q.size - q.fetching % q.size) % q.size

/-- A granted command by queue and identifier. -/
def Fn.outOf (x : Fn) (sqid cid : Nat) : Option Outst :=
  x.granted.find? (fun o => decide (o.sqid = sqid ∧ o.cid = cid))

/-- The write parked in a queue's hold slot, if any (R116, R181). -/
def State.parkedIn (s : State) (f : FnId) (qid : Nat) : Option Wr :=
  s.wr.writes.find? (fun w => decide (w.fn = f ∧ w.sqid = qid ∧ (w.stage = .parked ∨ w.stage = .gated)))

/-- The SQ Head Pointer that a completion reports: it passes neither a fetched entry that has not been granted nor a parked
one (R283). -/
def State.sqHead (s : State) (f : FnId) (qid : Nat) : Nat :=
  let x := s.fn f
  match x.sq qid, (s.parkedIn f qid).bind (fun w => x.outOf qid w.cid) with
  | _, some o => o.index
  | some q, none => q.head
  | none, none => 0

/-- A completion written into a free entry of its queue, the message following (R270). -/
def State.writeCqe (s : State) (f : FnId) (qid : Nat) (e : Cqe) : State :=
  let x := s.fn f
  match x.cq qid with
  | none => s
  | some q =>
    let head := s.sqHead f e.sqid
    let wrap := decide ((q.tail + 1) % q.size = 0)
    let x := x.updCq qid (fun q => { q with tail := (q.tail + 1) % q.size, phase := if wrap then !q.phase else q.phase })
    let s := (s.setFn f x).emit (.cqe f qid e q.phase q.tail head)
    if q.ien then s.signal f q.iv else s

/-- A completion posted, or made to wait for space behind those that wait already (R241). -/
def State.postCqe (s : State) (f : FnId) (qid : Nat) (e : Cqe) : State :=
  match (s.fn f).cq qid with
  | none => s
  | some q =>
    if q.waiting.isEmpty && q.hasRoom then s.writeCqe f qid e
    else s.updFn f (fun x => x.updCq qid (fun q => { q with waiting := q.waiting ++ [e] }))

/-- The completion queue of a submission queue. -/
def Fn.cqOf (x : Fn) (sqid : Nat) : Nat := match x.sq sqid with | none => 0 | some q => q.cqid

/-- Log 01h receives an entry (R563). -/
def State.errorLog (s : State) (f : FnId) (sqid cid status : Nat) (nsid : BitVec 32) (lba : Nat) : State :=
  let s := s.updFn f (fun x =>
    { x with errCount := x.errCount + 1, errs := (⟨x.errCount + 1, sqid, cid, status, nsid, lba⟩ :: x.errs).take 256 })
  match s.tenantOf f with
  | none => s
  | some t => s.updTenant t (fun x => { x with smart := bumpAt x.smart 5 1 })

/-- A completion of an NVMe command: what it says and what it is for. -/
structure Cpl where
  sqid : Nat
  cid : Nat
  status : Nat := 0
  dnr : Bool := false
  crd : Nat := 0
  dw0 : BitVec 32 := 0#32
  dw1 : BitVec 32 := 0#32
  nsid : BitVec 32 := 0#32
  lba : Nat := 0

/-- Deletes whose queue has nothing left to complete (R254). -/
def Fn.doneDeletes (x : Fn) : List (Nat × Nat) :=
  x.deleting.filter (fun p =>
    !(x.granted.any (fun o => decide (o.sqid = p.1))) &&
      (match x.sq p.1 with | none => true | some q => decide (q.fetching = 0)) &&
      !(x.cqs.any (fun q => q.waiting.any (fun e => decide (e.sqid = p.1)))))

/-- The part of a span of time, from `a` to now, that lies between the start of the last stay in PS3 or PS4 and the end of the exit
from it (R457). -/
def State.napSince (s : State) (a : Nat) : Nat :=
  (if s.pow.ps < 3 then s.pow.napTo else s.now) - max a (if s.pow.ps < 3 then s.pow.napFrom else s.pow.psUs)

/-- The time that a command has taken since its doorbell landed, host time excluded (R492). -/
def State.latency (s : State) (o : Outst) : Nat := s.now - o.landedUs - o.hostUs

/-- What counts of it against its bound: a stay in PS3 or PS4 and the exit from it do not (R247, R457). -/
def State.countedUs (s : State) (o : Outst) : Nat := s.now - o.landedUs - (o.hostUs + s.napSince o.landedUs - o.napUs)

/-- The samples, meters and counters of one completed command (R248, R260, R492, R497, R500). -/
def State.sampleDone (s : State) (slot : Nat) (o : Outst) (status : Nat) : State :=
  let lat := s.latency o
  let counted := s.countedUs o
  let b := bucketQ lat
  if o.kind = 4 then s.pbSample none 18 b
  else
    let h := match o.kind with
      | 0 => 2 * o.cls
      | 1 => 2 * o.cls + 1
      | 2 => 8 + o.cls
      | _ => 12 + o.cls
    let s := s.pbSample (some slot) h b
    let s : State := if o.darned then s.pbSample none 16 b else s
    let s : State := if o.staged then s.pbSample none 17 b else s
    let s := s.pbExtreme (9 + o.cls) (lat : Int)
    let s := s.updTenant slot (fun t => { t with meters := bumpAt t.meters 4 1 })
    let s : State := if status = nvThermalHold then s.pbTenant slot 5 1 else s
    match classBound o.kind o.cls with
    | none => s
    | some bound => if bound < counted then (s.pbTenant slot 2 1).pbCount 9 1 else s

/-- Counts time with a command outstanding up to now (R260, R500). -/
def Tenant.accrue (t : Tenant) (now : Nat) : Tenant :=
  match t.activeFrom with
  | none => t
  | some a =>
    let us := t.smartBusyUs + (now - a)
    { t with activeFrom := some now,
             meters := bumpAt t.meters 5 (now - a),
             smart := bumpAt t.smart 4 (us / 60000000),
             smartBusyUs := us % 60000000 }

/-- With no I/O command outstanding on any function, the device's busy time stops and the activity LED is held (R260, R547). -/
def State.quiet (s : State) : State :=
  if s.host.fns.all (fun p => decide (p.2.ioOut = 0)) then
    let us := match s.host.busyFrom with | none => 0 | some a => s.now - a
    { s with
      host.busyFrom := none
      host.busyUs := s.host.busyUs + us
      aon.ledHold := s.aon.ledHold || s.aon.ledActive
      aon.ledActive := false }
  else s

/-- A granted command has completed: it leaves the outstanding list, and what waited for it settles: activity time, the
activity LED, and a shutdown notification (R500, R523, R547). -/
def State.retire (s : State) (f : FnId) (sqid cid status : Nat) : State :=
  let x := s.fn f
  match x.granted.find? (fun o => decide (o.sqid = sqid ∧ o.cid = cid)) with
  | none => s
  | some o =>
    let x := { x with granted := x.granted.filter (fun o => !decide (o.sqid = sqid ∧ o.cid = cid)) }
    let x := { x with shst := if x.shst = 1 ∧ x.granted = [] then 2 else x.shst }
    let s := s.setFn f x
    let slot := s.tenantOf f
    let s := s.sampleDone (slot.getD 1024) o status
    let s : State := match slot with
      | none => s
      | some k => s.updTenant k (fun t =>
          let t := t.accrue s.now
          if x.ioOut = 0 then { t with activeFrom := none } else t)
    { (if sqid = 0 then s else s.quiet) with pow.idleUs := s.now }

/-- Completes the Deletes of a function that nothing holds back any more (R254). -/
def State.settleDeletes (s : State) (f : FnId) : State :=
  (s.fn f).doneDeletes.foldl (fun s p =>
    let s := s.updFn f (fun x =>
      { x with sqs := x.sqs.filter (fun q => decide (q.qid ≠ p.1)), deleting := x.deleting.filter (fun d => !decide (d = p)) })
    (s.postCqe f 0 ⟨0, p.2, nvOk, false, 0, 0#32, 0#32⟩).retire f 0 p.2 nvOk) s

/-- The identifier of a command that a reset has cut off: it completes unseen (R277). -/
def orphanId : Nat := 65536

/-- A command completes (R241, R255, R563); one that a reset of its function has cut off completes unseen (R277). -/
def State.complete (s : State) (f : FnId) (c : Cpl) : State :=
  if c.sqid = orphanId ∨ c.cid = orphanId then s else
  let s := s.postCqe f ((s.fn f).cqOf c.sqid) ⟨c.sqid, c.cid, c.status, c.dnr, c.crd, c.dw0, c.dw1⟩
  let s : State := if c.status = nvOk then s else s.errorLog f c.sqid c.cid c.status c.nsid c.lba
  let s := (s.retire f c.sqid c.cid c.status).settleDeletes f
  if c.sqid = 0 then s.tryFetch f 0 else s

/-- A command fails with a status, DNR as R261 and R564 set it. -/
def State.failCmd (s : State) (f : FnId) (c : NvmeCmd) (status : Nat) (lba : Nat := 0) : State :=
  let acre := (s.fn f).acre
  s.complete f { sqid := c.sqid, cid := c.cid, status := status, dnr := dnrOf status,
                 crd := if status = nvThermalHold ∧ acre then 1 else 0, nsid := c.nsid, lba := lba }

/-- A command succeeds. -/
def State.okCmd (s : State) (c : NvmeCmd) (dw0 : BitVec 32 := 0#32) (dw1 : BitVec 32 := 0#32) : State :=
  s.complete c.fn { sqid := c.sqid, cid := c.cid, dw0 := dw0, dw1 := dw1, nsid := c.nsid }

/-- A fetched entry completes without a grant (R236): its completion is written, and I/O is counted in COMMANDS (R500). -/
def State.completeFetched (s : State) (f : FnId) (sqid : Nat) (c : NvmeCmd) (status : Nat) : State :=
  let s := (s.postCqe f ((s.fn f).cqOf sqid) ⟨sqid, c.cid, status, dnrOf status, 0, 0#32, 0#32⟩).errorLog f sqid c.cid status c.nsid 0
  let s : State := match s.tenantOf f with
    | none => s
    | some k => if sqid = 0 then s else s.updTenant k (fun t => { t with meters := bumpAt t.meters 4 1 })
  s.settleDeletes f

/-! Asynchronous events (R250, R256, R262). -/

/-- The mask key of an event: its type, and a notice's information. -/
def aenKey (typ info : Nat) : Nat := typ * 256 + (if typ = 2 then info else 0)

/-- Dword 0 of an event completion. -/
def aenDw0 (typ info lid : Nat) : BitVec 32 := BitVec.ofNat 32 (typ + info * 256 + lid * 65536)

/-- An asynchronous event of a function: delivered to an outstanding request, or held until one arrives; further events
of its kind are masked until its log page is read (R250). -/
def State.asyncEvent (s : State) (f : FnId) (typ info lid : Nat) : State :=
  let x := s.fn f
  if x.masked.contains (aenKey typ info) then s
  else
    let x := { x with masked := x.masked ++ [aenKey typ info] }
    match x.aers with
    | [] => s.setFn f { x with held := x.held ++ [(typ, (info, lid))] }
    | cid :: r => (s.setFn f { x with aers := r }).complete f { sqid := 0, cid := cid, dw0 := aenDw0 typ info lid }

/-- The log page whose read unmasks an event key. -/
def unmasks (lid key : Nat) : Bool :=
  match lid with
  | 0x01 => decide (key / 256 = 0)
  | 0x02 => decide (key / 256 = 1)
  | 0xC7 => decide (key / 256 = 7)
  | 0x04 => decide (key = aenKey 2 0)
  | 0x03 => decide (key = aenKey 2 1)
  | 0xBF => decide (key = aenKey 2 0xEF)
  | _ => false

/-- A read of a log page with RAE = 0 unmasks its events; held events of that kind are acknowledged (R250). -/
def State.ackLog (s : State) (f : FnId) (lid : Nat) : State :=
  s.updFn f (fun x =>
    { x with masked := x.masked.filter (fun k => !unmasks lid k),
             held := x.held.filter (fun e => !unmasks lid (aenKey e.1 e.2.1)) })

/-- A vendor event on one function, where its Feature C6h bit enables it (R262). -/
def State.vendorEvent (s : State) (f : FnId) (bit aei group tenant : Nat) : State :=
  let x := s.fn f
  if x.vec.getLsbD bit then
    let x := { x with vcount := x.vcount + 1,
                      vevents := if x.vevents.length < 15 then x.vevents ++ [⟨aei, group, tenant, s.now⟩] else x.vevents }
    if x.vpend then s.setFn f x else (s.setFn f { x with vpend := true }).asyncEvent f 7 aei 0xC7
  else s

/-- A vendor event on every function that enables it (R152, R484). -/
def State.vendorEventAll (s : State) (bit aei group tenant : Nat) : State :=
  s.host.fns.foldl (fun s p => s.vendorEvent (fnOfKey p.1) bit aei group tenant) s

/-- A SMART / Health event on every function that enables it in Feature 0Bh (R28, R487). -/
def State.smartEventAll (s : State) (bit info : Nat) : State :=
  s.host.fns.foldl (fun s p => if p.2.aec.getLsbD bit then s.asyncEvent (fnOfKey p.1) 1 info 0x02 else s) s

/-- A notice on one function, where its Feature 0Bh bit enables it. -/
def State.notice (s : State) (f : FnId) (bit info lid : Nat) : State :=
  if (s.fn f).aec.getLsbD bit then s.asyncEvent f 2 info lid else s

/-! Quarantine (R280, R281) and counted violations (R250, R513). -/

/-- The effects of entering quarantine (R281): the I/O queues go to HELD, their fetched entries complete with 0x80, and
event 80h is raised on the manager. -/
def State.quarantineEffects (s : State) (slot : Nat) : State :=
  let s : State := match (s.tenantD slot).fn with
    | none => s
    | some f =>
      let io := (s.fn f).sqs.filter (fun q => decide (q.qid ≠ 0))
      let s := s.updFn f (fun x =>
        { x with sqs := x.sqs.map (fun q =>
            if q.qid = 0 then q
            else { q with st := if q.st = .deleting then .deleting else .held, pre := [] }) })
      io.foldl (fun s q => q.pre.foldl (fun s e =>
        s.completeFetched f q.qid e.sqe.cmd nvQuarantined) s) s
  s.vendorEvent s.managerFn 0 0x80 0xFFFF (s.handleOf 1 slot)

/-- A tenant enters quarantine: at once, or at its thaw if it is frozen (R280). -/
def State.quarantine (s : State) (slot : Nat) : State :=
  let t := s.tenantD slot
  let s := s.setTenant slot { t with quarantined := true }
  if t.frozen then s else s.quarantineEffects slot

/-- Whether a tenant's count has reached its threshold (R513); the manager function's base tenant is never quarantined
(R252). -/
def State.overThreshold (s : State) (slot : Nat) (t : Tenant) : Bool :=
  decide (t.threshold ≠ 0 ∧ t.threshold ≤ t.violations) && !t.quarantined && !decide (slot = s.managerBase)

/-- A counted host violation of a function (R250, R513): recorded, added to its tenant's count, and its tenant
quarantined where the count reaches the threshold. -/
def State.hostViolation (s : State) (f : FnId) (code loc detail answer : Nat) : State :=
  match s.tenantOf f with
  | none => s.selvedge { source := 1, code := code, fn := fnField f, loc := loc, detail := detail, answer := answer }
  | some slot =>
    let t := s.tenantD slot
    let t := { t with violations := min (t.violations + 1) (2 ^ 32 - 1) }
    let enter := s.overThreshold slot t
    let s := (s.setTenant slot t).selvedge
      { source := 1, code := code, tenant := s.handleOf 1 slot, fn := fnField f, loc := loc, detail := detail,
        answer := answer, flags := if enter then 3 else 1 }
    if enter then s.quarantine slot else s

/-- A violation that is recorded and not counted (R252, R265, R514). -/
def State.hostNote (s : State) (f : FnId) (code loc detail answer : Nat) : State :=
  s.selvedge { source := 1, code := code, fn := fnField f, loc := loc, detail := detail, answer := answer }

end Sys2Proof.Machine
end

