-- ==== Sys2Proof/Machine/Media.lean ====
section
/-! DEFINITION. Media geometry (R69-R79), bolts and their states (R76, R166-R167), spares (R77), erased-bolt counts
(R176), the log state (R177), and a tenant's usage and reservations (R88-R89). -/

namespace Sys2Proof.Machine

/-! Die types (R69, R144, R191). Times are in µs. -/

/-- The figures of one die type. -/
structure DieParams where
  unitMib : Nat
  u : Nat
  rows : Nat
  units : Nat
  positions : Nat
  tR : Nat
  tProg : Nat
  tErase : Nat
  tSlc : Nat
  tSuspend : Nat
  readSusp : Nat
  spareBolts : Nat
  zoneCap : Nat
  zoneSize : Nat
  ratedUser : Nat
  retries : Nat
  pagesPerPlane : Nat

/-- The row of R69 for a type code. -/
def dieParams : Nat → DieParams
  | 1 => ⟨48, 24, 512, 2760, 2730, 40, 1400, 10000, 140, 25, 43, 187, 368640, 524288, 3000, 12, 3⟩
  | 2 => ⟨64, 32, 512, 4136, 4096, 48, 2800, 12000, 160, 30, 50, 280, 491520, 524288, 1500, 15, 4⟩
  | 3 => ⟨96, 32, 768, 5504, 5461, 52, 3000, 15000, 180, 30, 56, 373, 737280, 1048576, 1500, 15, 4⟩
  | _ => ⟨0, 0, 0, 0, 0, 0, 0, 0, 0, 0, 0, 0, 0, 0, 0, 0, 0⟩

/-- Flash channels of a part (R3, R18). -/
def Part.channels : Part → Nat
  | .tmy9632e => 32
  | .tmy9632n => 32
  | .tmy9616e => 16
  | .tmy9616n => 16

/-- Whether a part has the Seam cipher (R5). -/
def Part.cipher : Part → Bool
  | .tmy9632e => true
  | .tmy9632n => false
  | .tmy9616e => true
  | .tmy9616n => false

/-- Flash channels. -/
def State.channels (s : State) : Nat := s.board.part.channels

/-- Whether this is an E variant. -/
def State.cipher (s : State) : Bool := s.board.part.cipher

/-- The drive's die figures; all zero without media (R72). -/
def State.dp (s : State) : DieParams := if s.geo.media then dieParams s.geo.dieType else dieParams 0

/-- Die groups G, absent ones included (R73). -/
def State.groups (s : State) : Nat := if s.geo.media then (if s.channels = 32 then s.geo.n else s.geo.n / 2) else 0

/-- The groups that are not absent. -/
def State.presentGroups (s : State) : List Nat := (List.range s.groups).filter (fun g => !s.geo.absent.contains g)

/-- Log bolts per group (R78). -/
def State.logPerGroup (s : State) : Nat := if s.groups = 0 then 0 else 256 / s.groups

/-- The first user bolt index of a group (R78). -/
def State.firstUser (s : State) : Nat := 6 + s.logPerGroup + s.dp.spareBolts

/-- User bolts per group (R78). -/
def State.userPerGroup (s : State) : Nat := s.dp.positions - s.firstUser

/-- U of R79. -/
def State.userBolts (s : State) : Nat := s.presentGroups.length * s.userPerGroup

/-- The conventional-region limit (R79). -/
def State.convLimit (s : State) : Nat := s.userBolts / 50

/-- The bolt number of a group and index (R74). -/
def boltNo (g i : Nat) : Nat := g * 8192 + i

/-- The group of a bolt. -/
def boltGroup (b : Nat) : Nat := b / 8192

/-- The index of a bolt in its group. -/
def boltIndex (b : Nat) : Nat := b % 8192

/-- The parity column index of a bolt (R74). -/
def parityCol (b : Nat) : Nat := (boltGroup b + boltIndex b) % 16

/-- The die of a column of a group (R73). -/
def State.dieOf (s : State) (g col : Nat) : DieId :=
  if s.channels = 32 then ⟨col, g⟩ else ⟨col % 16, if col < 16 then g else g + s.geo.n / 2⟩

/-- The group of a die. -/
def State.groupOf (s : State) (d : DieId) : Nat := if s.channels = 32 then d.pos else d.pos % (s.geo.n / 2)

/-- The column of a die in its group. -/
def State.colOf (s : State) (d : DieId) : Nat :=
  if s.channels = 32 then d.ch else if d.pos < s.geo.n / 2 then d.ch else d.ch + 16

/-- The table number of a die. -/
def dieKey (d : DieId) : Nat := d.ch * 32 + d.pos

/-- The die of a table number. -/
def dieOfKey (k : Nat) : DieId := ⟨k / 32, k % 32⟩

/-- The entry of a die. -/
def State.die (s : State) (d : DieId) : Die := Tab.get default s.dies.table (dieKey d)

/-- The state with a die replaced. -/
def State.setDie (s : State) (d : DieId) (x : Die) : State := { s with dies.table := Tab.set s.dies.table (dieKey d) x }

/-- The state with a die changed. -/
def State.updDie (s : State) (d : DieId) (g : Die → Die) : State := s.setDie d (g (s.die d))

/-! Where a sector lies (R75). -/

/-- A place in a bolt: its column, row, sector of the program unit, plane, page and codeword. -/
structure Place where
  column : Nat
  row : Nat
  sector : Nat
  plane : Nat
  page : Nat
  cw : Nat
  deriving DecidableEq, Repr

/-- The column that a chunk of a bolt is programmed to (R75). -/
def chunkColumn (b k : Nat) : Nat :=
  let j := k % 30
  let d := j / 2
  16 * (j % 2) + (if d < parityCol b then d else d + 1)

/-- The row of a chunk (R75). -/
def chunkRow (k : Nat) : Nat := k / 30

/-- The half of a chunk (R75). -/
def chunkHalf (k : Nat) : Nat := k % 30 % 2

/-- The place of sector offset `o` of a bolt with program units of `u` sectors (R75). -/
def placeOf (b u o : Nat) : Place :=
  let k := o / u
  let x := o % u
  ⟨chunkColumn b k, chunkRow k, x, x / (u / 2), x % (u / 2) / 4, x % 4⟩

/-- The table number of a NAND sector. -/
def nandKey (b o : Nat) : Nat := b * 2 ^ 20 + o

/-- The table number of a sector of a tenant. -/
def secKey (tenant nsid lba : Nat) : Nat := (tenant * 4 + nsid) * 2 ^ 48 + lba

/-- The tenant of a sector's table number. -/
def keyTenant (k : Nat) : Nat := k / 2 ^ 48 / 4

/-- The namespace of a sector's table number. -/
def keyNsid (k : Nat) : Nat := k / 2 ^ 48 % 4

/-- The LBA of a sector's table number. -/
def keyLba (k : Nat) : Nat := k % 2 ^ 48

/-! Bolts. -/

/-- Whether a bolt is programmed in SLC mode (R86, R78). -/
def State.isSlc (s : State) (b : Nat) : Bool := decide (boltIndex b < 6 + s.logPerGroup)

/-- The state of a group's bolts that have no entry (R72, R560). -/
def State.dfltSt (s : State) (g : Nat) : BoltSt := if s.bolts.fresh.contains g then .released else s.bolts.dflt

/-- A bolt with no entry. At first initialisation the erases of the system, emergency and log bolts are urgent items (R560), and at a
boot those of every released bolt (R175). -/
def State.boltDflt (s : State) (b : Nat) : Bolt :=
  let st := s.dfltSt (boltGroup b)
  { (default : Bolt) with
    st := st
    ec := s.bolts.dfltEc + (if boltIndex b < s.bolts.wiped then 1 else 0)
    urgent := decide (st = .released) && (s.isSlc b || s.bolts.dfltUrgent) }

/-- The entry of a bolt. -/
def State.bolt (s : State) (b : Nat) : Bolt := Tab.get (s.boltDflt b) s.bolts.table b

/-- The state with a bolt replaced. -/
def State.setBolt (s : State) (b : Nat) (x : Bolt) : State := { s with bolts.table := Tab.set s.bolts.table b x }

/-- The state with a bolt changed. -/
def State.updBolt (s : State) (b : Nat) (f : Bolt → Bolt) : State := s.setBolt b (f (s.bolt b))

/-- Whether an index is a user bolt's. -/
def State.isUser (s : State) (i : Nat) : Bool := decide (s.firstUser ≤ i ∧ i < s.dp.positions)

/-- Whether an index is a log bolt's. -/
def State.isLog (s : State) (i : Nat) : Bool := decide (6 ≤ i ∧ i < 6 + s.logPerGroup)

/-- Sectors of a program unit of a bolt (R69, R86). -/
def State.unitSectors (s : State) (b : Nat) : Nat := if s.isSlc b then 8 else s.dp.u

/-- The table entries of a group's user bolts. -/
def State.userEntries (s : State) (g : Nat) : List (Nat × Bolt) :=
  s.bolts.table.filter (fun p => decide (boltGroup p.1 = g) && s.isUser (boltIndex p.1))

/-- User bolts of a group in a state. -/
def State.countUser (s : State) (g : Nat) (st : BoltSt) : Nat :=
  let es := s.userEntries g
  (es.filter (fun p => decide (p.2.st = st))).length +
    (if s.dfltSt g = st ∧ s.presentGroups.contains g then s.userPerGroup - es.length else 0)

/-- E of R176. -/
def State.erasedCount (s : State) (g : Nat) : Nat := s.countUser g .erased

/-- The lowest user index of a group that has no table entry. -/
def State.firstDefault (s : State) (g : Nat) : Option Nat :=
  lowestFree ((s.userEntries g).map (fun p => boltIndex p.1)) s.firstUser (s.userPerGroup)

/-- The better of two candidates for a binding: the lower erase count, then the lower number (R92). -/
def betterBolt (x y : Option (Nat × Nat)) : Option (Nat × Nat) :=
  match x, y with
  | none, y => y
  | x, none => x
  | some (e, b), some (f, c) => if f < e ∨ (f = e ∧ c < b) then some (f, c) else some (e, b)

/-- The erased user bolt of a group with the lowest erase count (R92). -/
def State.pickErased (s : State) (g : Nat) : Option Nat :=
  let best := (s.userEntries g).foldl (fun acc p => if p.2.st = .erased then betterBolt acc (some (p.2.ec, p.1)) else acc) none
  let dflt := if s.dfltSt g = .erased then (s.firstDefault g).map (fun i => (s.bolts.dfltEc, boltNo g i)) else none
  (betterBolt best dflt).map (·.2)

/-- A user bolt of a group in the relocation float (R167). -/
def State.pickFloat (s : State) (g : Nat) : Option Nat :=
  ((s.userEntries g).find? (fun p => decide (p.2.st = .float))).map (·.1)

/-- Free log bolts of a group. -/
def State.freeLogs (s : State) (g : Nat) : List Nat :=
  if s.presentGroups.contains g then
    (((List.range s.logPerGroup).map (fun j => boltNo g (6 + j))).filter (fun b =>
      decide ((s.bolt b).st = .erased)))
  else []

/-- F of R177. -/
def State.freeLogCount (s : State) : Nat := s.presentGroups.foldl (fun n g => n + (s.freeLogs g).length) 0

/-- Whether a die is failed (R72). -/
def State.dieFailed (s : State) (d : DieId) : Bool := (s.die d).failed

/-- The failed columns of a group. -/
def State.failedCols (s : State) (g : Nat) : List Nat := (List.range 32).filter (fun c => s.dieFailed (s.dieOf g c))

/-- Whether a group holds a failed die (R72). -/
def State.degraded (s : State) (g : Nat) : Bool := !(s.failedCols g).isEmpty

/-- The physical unit of a column of a bolt (R76). -/
def State.unitOf (s : State) (b col : Nat) : Nat := Tab.get (boltIndex b) (s.bolt b).units col

/-! Spares (R77, R188). -/

/-- Whether a unit of a die is factory-marked bad. -/
def State.factoryBad (s : State) (d : DieId) (u : Nat) : Bool := s.board.factoryBad.any (fun p => decide (p.1 = d ∧ p.2 = u))

/-- Unit `j` of a die's spare order: the units of the spare bolts, then those above the bolt positions (R77). -/
def State.spareUnit (s : State) (j : Nat) : Nat :=
  if j < s.dp.spareBolts then 6 + s.logPerGroup + j else s.dp.positions + (j - s.dp.spareBolts)

/-- Spare units of a die type, factory-bad ones included. -/
def State.spareTotal (s : State) : Nat := s.dp.spareBolts + (s.dp.units - s.dp.positions)

/-- Spares of a die from place `j` of its order that are usable. -/
def State.sparesFrom (s : State) (d : DieId) (j : Nat) : List Nat :=
  ((List.range s.spareTotal).drop j).filter (fun k =>
    !s.factoryBad d (s.spareUnit k) && !(s.die d).retired.contains (s.spareUnit k))

/-- The length of a die's spare list at first initialisation (R77, R193). -/
def State.spareInitial (s : State) (d : DieId) : Nat :=
  s.spareTotal - ((List.range s.spareTotal).filter (fun k => s.factoryBad d (s.spareUnit k))).length

/-- The length of a die's current spare list. -/
def State.spareLeft (s : State) (d : DieId) : Nat := (s.sparesFrom d (s.die d).nextSpare).length

/-- The next spare of a die taken from its list. -/
def State.takeSpare (s : State) (d : DieId) : Option (Nat × State) :=
  match s.sparesFrom d (s.die d).nextSpare with
  | [] => none
  | k :: _ => some (s.spareUnit k, s.updDie d (fun x => { x with nextSpare := k + 1 }))

/-! A tenant's usage and reservations (R88, R89). -/

/-- The share of an amount that a group gets in a set (R89). -/
def shareOf (groups : List Nat) (amount g : Nat) : Nat :=
  let gs := sortOn (· ≤ ·) groups
  match gs.idxOf? g with
  | none => 0
  | some j => amount / gs.length + (if j < amount % gs.length then 1 else 0)

/-- Bolts of a group bound to a tenant's zones. -/
def State.zoneUse (s : State) (slot g : Nat) : Nat :=
  (s.bolts.table.filter (fun p => decide (boltGroup p.1 = g ∧ p.2.st = .bound) &&
    (match p.2.use with | .zone t _ => decide (t = slot) | _ => false))).length

/-- Bolts of a group bound to a tenant's region. -/
def State.regionUse (s : State) (slot g : Nat) : Nat :=
  (s.bolts.table.filter (fun p => decide (boltGroup p.1 = g ∧ p.2.st = .bound) &&
    (match p.2.use with | .region t _ => decide (t = slot) | _ => false))).length

/-- User and region bolts that a tenant holds in a group. -/
def State.heldIn (s : State) (slot g : Nat) : Nat := s.zoneUse slot g + s.regionUse slot g

/-- User and region bolts that a tenant holds. -/
def State.boltsHeld (s : State) (slot : Nat) : Nat :=
  (s.bolts.table.filter (fun p => decide (p.2.st = .bound) &&
    (match p.2.use with | .zone t _ => decide (t = slot) | .region t _ => decide (t = slot) | _ => false))).length

/-- Log bolts that a tenant holds. -/
def State.logsHeld (s : State) (slot : Nat) : Nat :=
  (s.bolts.table.filter (fun p => decide (p.2.st = .bound ∧ p.2.use = .log slot))).length

/-- A tenant's reservation in a group, zones and region together (R89). -/
def reservedBy (t : Tenant) (g : Nat) : Nat := shareOf t.groups t.quota g + shareOf t.groups t.conv g

/-- What a tenant counts for in a group's fit: the greater of its reservation and its holding (R89). -/
def State.fitCount (s : State) (slot : Nat) (t : Tenant) (g : Nat) : Nat := max (reservedBy t g) (s.heldIn slot g)

/-- Whether the reservations of every tenant fit in every group, the float counted (R89, R167), with `slot` as `t`. -/
def State.fits (s : State) (slot : Nat) (t : Tenant) : Bool :=
  (List.range s.groups).all (fun g =>
    decide ((Tab.set s.host.tenants slot t).foldl (fun n p => n + s.fitCount p.1 p.2 g) 0 + 2 ≤ s.userPerGroup) ||
      decide (s.fitCount slot t g = 0))

/-- Region bolts assigned to all tenants. -/
def State.convAssigned (s : State) : Nat := s.host.tenants.foldl (fun n p => n + p.2.conv) 0

/-! Erase marks and the log state (R176, R177). -/

/-- Foreground erase of a group re-evaluated (R176). -/
def State.updFgErase (s : State) (g : Nat) : State :=
  let e := s.erasedCount g
  if e < s.recl.eraseLow then { s with bolts.fgErase := addOnce s.bolts.fgErase g }
  else if s.recl.eraseHigh ≤ e then { s with bolts.fgErase := s.bolts.fgErase.filter (· ≠ g) }
  else s

/-- The log state re-evaluated; on a change the merges that are not urgent take its urgency (R169, R177); the
idle timer restarts where that leaves none of them waiting as foreground work (R461). -/
def State.updLogState (s : State) : State :=
  let f := s.freeLogCount
  let st := if s.recl.logHigh ≤ f then 0
    else if f < s.recl.logLow then 2
    else if s.recl.logState = 2 then 2 else 1
  let urg : Urgency := if st = 2 then .foreground else .background
  let items := s.recl.items.map (fun i => match i.kind with
    | .merge _ _ _ => if i.urg = .urgent then i else { i with urg := urg }
    | _ => i)
  if st = s.recl.logState then s
  else { s with recl.logState := st, recl.items := items, pow.idleUs := if urg = .background then s.now else s.pow.idleUs }

/-- The next number of the order in which bolts are released and used. -/
def State.nextSeq (s : State) : Nat × State := (s.bolts.seq + 1, { s with bolts.seq := s.bolts.seq + 1 })

/-- A bolt put into its group's erase queue (R166), once nothing pins it (R110). -/
def State.releaseBolt (s : State) (b : Nat) : State :=
  let x := s.bolt b
  let owner := match x.use with
    | .zone t _ => s.handleOf 1 t
    | .region t _ => s.handleOf 1 t
    | .log t => s.handleOf 1 t
    | _ => x.owner
  if x.pins = 0 then
    let (q, s) := s.nextSeq
    s.setBolt b { x with st := .released, use := .none, closed := false, releasePending := false, relSeq := q,
                         passed := [], deferred := false, fillSeq := 0, owner := owner, newUnits := [], relUs := s.now,
                         patrolUs := none }
  else s.setBolt b { x with use := .none, releasePending := true, owner := owner }

/-- One pin of a bolt given back; a release that waited for it takes place (R110). -/
def State.unpin (s : State) (b : Nat) : State :=
  let x := s.bolt b
  let x := { x with pins := x.pins - 1 }
  let s := s.setBolt b x
  if x.releasePending ∧ x.pins = 0 then s.releaseBolt b else s

/-- One pin of a bolt taken (R110). -/
def State.pin (s : State) (b : Nat) : State := s.updBolt b (fun x => { x with pins := x.pins + 1 })

/-! Swatches (R110, R112-R116). -/

/-- The swatch pool sizes by class, Host, Reclamation, System, at a DRAM population in GiB (R112, R360): 3/4, 3/16 and
1/16 of the pool. -/
def swatchPool (gib : Nat) : Nat :=
  match gib with
  | 4 => 262144
  | 8 => 1048576
  | 16 => 2097152
  | 32 => 4194304
  | _ => 0

/-- The Host class. -/
def State.hostClass (s : State) : Nat := if s.mem.up then swatchPool s.board.dramGib * 3 / 4 else 0

/-- The Reclamation class. -/
def State.reclClass (s : State) : Nat := if s.mem.up then swatchPool s.board.dramGib * 3 / 16 else 0

/-- The System class. -/
def State.sysClass (s : State) : Nat := if s.mem.up then swatchPool s.board.dramGib / 16 else 0

/-- Lowers the low-water mark of a swatch class (R375). -/
def State.noteLow (s : State) (cls free : Nat) : State :=
  { s with mem.classLow := s.mem.classLow.set cls (min (s.mem.classLow.getD cls 0) free) }

/-- Whether the host class and a tenant's quota can both supply `n` swatches (R114). -/
def State.canAlloc (s : State) (slot n : Nat) : Bool :=
  decide ((s.tenantD slot).swatchHeld + n ≤ (s.tenantD slot).swatchQuota ∧ s.wr.hostUsed + n ≤ s.hostClass)

/-- `n` host swatches allocated to a tenant. -/
def State.allocSwatches (s : State) (slot n : Nat) : State :=
  let s := { s with wr.hostUsed := s.wr.hostUsed + n }
  (s.updTenant slot (fun t => { t with swatchHeld := t.swatchHeld + n })).noteLow 0 (s.hostClass - s.wr.hostUsed)

/-- `n` host swatches of a tenant returned to the pool, with a free event for the tenant (R115). -/
def State.returnSwatches (s : State) (slot n : Nat) : State :=
  if n = 0 then s
  else
    let s := { s with wr.hostUsed := s.wr.hostUsed - n, wr.freed := addOnce s.wr.freed slot }
    s.updTenant slot (fun t => { t with swatchHeld := t.swatchHeld - n })

/-- Whether a read holds the swatch of a sector (R110). -/
def State.swPinned (s : State) (k : Nat × Nat) : Bool := s.wr.swPins.any (fun p => decide (p.1 = k))

/-- The swatches of some sectors of a tenant freed: those that no read holds return to the pool, the others do so when their pins
reach zero (R110, R115). -/
def State.freeSwatches (s : State) (slot : Nat) (keys : List (Nat × Nat)) : State :=
  let held := keys.filter s.swPinned
  ({ s with wr.swFreed := s.wr.swFreed ++ held.map (fun k => (k, slot)) } : State).returnSwatches slot
    (keys.length - held.length)

/-- One pin taken on a swatch. -/
def pinOnce : List ((Nat × Nat) × Nat) → Nat × Nat → List ((Nat × Nat) × Nat)
  | [], k => [(k, 1)]
  | p :: r, k => if p.1 = k then (k, p.2 + 1) :: r else p :: pinOnce r k

/-- The swatches of some sectors pinned by a read (R110). -/
def State.pinSwatches (s : State) (keys : List (Nat × Nat)) : State :=
  { s with wr.swPins := keys.foldl pinOnce s.wr.swPins }

/-- One pin of a swatch given back: a swatch freed meanwhile returns to the pool at its last (R110, R115). -/
def State.unpinSwatch (s : State) (k : Nat × Nat) : State :=
  let pins := (s.wr.swPins.map (fun p => if p.1 = k then (p.1, p.2 - 1) else p)).filter (fun p => decide (p.2 ≠ 0))
  let s := { s with wr.swPins := pins }
  if s.swPinned k then s
  else
    let due := s.wr.swFreed.filter (fun p => decide (p.1 = k))
    due.foldl (fun s p => s.returnSwatches p.2 1) { s with wr.swFreed := s.wr.swFreed.filter (fun p => decide (p.1 ≠ k)) }

/-- The pins of a read given back. -/
def State.unpinSwatches (s : State) (keys : List (Nat × Nat)) : State := keys.foldl State.unpinSwatch s

/-- Owners in the chain of a swatch (R115). -/
inductive SwOwner where
  /-- The Seam lane, or the host port on N variants. -/
  | lane
  /-- The parity accumulator. -/
  | accumulator
  /-- The flash channel that programs it. -/
  | channel
  deriving DecidableEq, Repr

/-- The named last owner of a sector's swatch: the flash channel of its column, or the accumulator where the die of that column has
failed (R115). -/
def lastOwner (dieFailed : Bool) : SwOwner := if dieFailed then .accumulator else .channel

/-- A free request of an owner for the swatches of some sectors: refused, and counted in the Selvedge log, unless it is the last
owner's (R115). -/
def State.freeBy (s : State) (owner last : SwOwner) (slot : Nat) (keys : List (Nat × Nat)) : State :=
  if owner = last then s.freeSwatches slot keys
  else s.selvedge { source := 4, code := 0x4A, tenant := s.handleOf 1 slot }

/-- The order in which a group's erase queue is taken: system, emergency and log bolts of the first initialisation
first, then by release, then by index (R560). -/
def eraseBefore (s : State) (a b : Nat) : Bool :=
  let x := s.bolt a
  let y := s.bolt b
  if s.isSlc a && !s.isSlc b then true
  else if !s.isSlc a && s.isSlc b then false
  else if x.urgent && !y.urgent then true
  else if !x.urgent && y.urgent then false
  else decide (x.relSeq < y.relSeq ∨ (x.relSeq = y.relSeq ∧ a < b))

/-- Exposed-data count in sectors (R124). -/
def State.exposed (s : State) : Nat := s.wr.expo.length

/-- The cap in sectors (R424). -/
def State.capSectors (s : State) : Nat := s.supply.capEffKib / 4

end Sys2Proof.Machine
end

