-- ==== Sys2Proof/Machine/DramMap.lean ====
section
/-! DEFINITION. Where a usable DRAM address lies (R356), what the bursts of a channel row hold: data, check bytes and the unused burst
(R354), what the DRAM ports accept (R355), the regions of the DRAM (R360), and the words and partitions of the Spool (R364, R365). -/

namespace Sys2Proof.Machine

/-- A place of the DRAM: channel, rank, bank, row and the data burst's slot in the row (R356). -/
structure DramPlace where
  ch : Nat
  rank : Nat
  bank : Nat
  row : Nat
  col : Nat
  deriving DecidableEq, Repr

/-- Rows of a bank: 64 KiB of each row number lies in the 16 banks of a channel, of `gib` GiB in four channels (R348, R354). -/
def dramRows (gib : Nat) : Nat := gib * 4096

/-- The rank of a row: the highest bit of the row number on two-rank populations (R356). -/
def rankOf (gib ranks row : Nat) : Nat := if ranks = 2 then row / (dramRows gib / 2) else 0

/-- The place of a usable address under an order (R356). -/
def dramPlace (gib ranks order a : Nat) : DramPlace :=
  let b := a / 64
  let ch := b / 4 % 4
  let b' := b / 16 * 4 + b % 4
  let q := b' / 56
  match order with
  | 0 => ⟨ch, rankOf gib ranks (q / 16), q % 16, q / 16, b' % 56⟩
  | 1 => ⟨ch, rankOf gib ranks (b' / 896), b' % 16, b' / 896, b' / 16 % 56⟩
  | _ => ⟨ch, rankOf gib ranks (q / 16), (q % 16) ^^^ (q / 16 % 16), q / 16, b' % 56⟩

/-- The usable address of the data burst at a place: what R356 says, read backwards. -/
def dramAddr (order : Nat) (p : DramPlace) : Nat :=
  let b' := match order with
    | 0 => (p.row * 16 + p.bank) * 56 + p.col
    | 1 => p.row * 896 + p.col * 16 + p.bank
    | _ => (p.row * 16 + (p.bank ^^^ (p.row % 16))) * 56 + p.col
  64 * (b' / 4 * 16 + p.ch * 4 + b' % 4)

/-- The burst of the row that holds the check bytes of data burst `d`, and their byte offset there (R354). -/
def checkPlace (d : Nat) : Nat × Nat := (56 + d / 8, 8 * (d % 8))

/-- The place of a usable address under the order in force (R357). -/
def State.dramPlaceOf (s : State) (a : Nat) : DramPlace := dramPlace s.board.dramGib s.board.dramRanks s.mem.mapOrder.toNat a

/-- The data burst at a place, as a number. -/
def State.dataBurst (s : State) (p : DramPlace) : Nat := s.mem.dram.num (dramAddr s.mem.mapOrder.toNat p) 64

/-- The 8 check bytes of the data burst at a place, one for each 64-bit word; the code's matrix is not stated (R354, log 11). -/
def State.checkBytes (s : State) (p : DramPlace) : List Byte :=
  (List.range 8).map (fun i => BitVec.ofNat 8 (Config.secded (s.dataBurst p / 2 ^ (64 * i) % 2 ^ 64)))

/-- Burst `slot` of the row of a place: data, check bytes, or the unused burst, which reads as zero (R354). -/
def State.rowBurst (s : State) (p : DramPlace) (slot : Nat) : Burst :=
  if slot < 56 then BitVec.ofNat 512 (s.dataBurst { p with col := slot })
  else if slot < 63 then
    BitVec.ofNat 512 (numLE ((List.range 8).flatMap (fun i => s.checkBytes { p with col := 8 * (slot - 56) + i })))
  else 0#512

/-- A write at a DRAM port: one that is not whole aligned bursts is refused with a bus error, `none`. Its data bursts are in place,
and their check bytes with them (R355). -/
def State.dramWrite (s : State) (a : Nat) (bs : List Byte) : Option State :=
  if a % 64 ≠ 0 ∨ bs.length % 64 ≠ 0 then none else some { s with mem.dram := s.mem.dram.writeBytes a bs }

/-! Regions of the usable DRAM (R360). -/

/-- A region of the usable DRAM, in the order of R360. -/
inductive DramRegion where
  | swatches | sideRecords | mapping | accumulators | staging | mapJournal | checkpoints | tenants | working
  deriving DecidableEq, Repr

/-- The regions with their sizes in MiB at a population in GiB. -/
def dramRegions (gib : Nat) : List (DramRegion × Nat) :=
  let pick := fun (a b c d : Nat) => if gib = 4 then a else if gib = 8 then b else if gib = 16 then c else d
  [(.swatches, pick 1024 4096 8192 16384), (.sideRecords, pick 10 40 80 160), (.mapping, pick 256 512 1024 1024),
    (.accumulators, 1152), (.staging, 65), (.mapJournal, 128), (.checkpoints, 128), (.tenants, 64),
    (.working, pick 757 983 3503 9567)]

/-! The Spool (R364, R365). -/

/-- A partition of the Spool, in the order of R364. -/
inductive SpoolPart where
  | readStaging | parityCache | zoneMapCache | darnAccumulators | tailorJournal | roleTable | rings | firmware
  deriving DecidableEq, Repr

/-- The partitions with their sizes in KiB. -/
def spoolParts : List (SpoolPart × Nat) :=
  [(.readStaging, 6144), (.parityCache, 6144), (.zoneMapCache, 2048), (.darnAccumulators, 512), (.tailorJournal, 512),
    (.roleTable, 256), (.rings, 128), (.firmware, 640)]

/-- The majority of the three copies of a valid bit. -/
def majority (v : BitVec 3) : Bool := (v.getLsbD 0 && v.getLsbD 1) || (v.getLsbD 0 && v.getLsbD 2) || (v.getLsbD 1 && v.getLsbD 2)

/-- Whether a Spool word is valid. -/
def State.spoolWordValid (s : State) (w : Nat) : Bool := majority (Tab.get 0#3 s.mem.spoolValid w)

/-- A Spool byte: zero in a word that is not valid. -/
def State.spoolByte (s : State) (a : Nat) : Byte := if s.spoolWordValid (a / 8) then s.mem.spool.read a else 0#8

/-- `n` bytes of the Spool. -/
def State.spoolRead (s : State) (a n : Nat) : List Byte := (List.range n).map (fun i => s.spoolByte (a + i))

/-- A word of the Spool made valid by its first write; the bytes that are not written become zero. -/
def State.spoolTouch (s : State) (w : Nat) : State :=
  if s.spoolWordValid w then s
  else { s with
    mem.spool := s.mem.spool.writeBytes (8 * w) (bytesLE 8 0)
    mem.spoolValid := Tab.set s.mem.spoolValid w 7#3 }

/-- Bytes written to the Spool. -/
def State.spoolWrite (s : State) (a : Nat) (bs : List Byte) : State :=
  if bs.isEmpty then s
  else
    let s := (List.range ((a + bs.length - 1) / 8 - a / 8 + 1)).foldl (fun s i => s.spoolTouch (a / 8 + i)) s
    { s with mem.spool := s.mem.spool.writeBytes a bs }

/-- A region of the Spool cleared by its valid bits, word by word. -/
def State.spoolClear (s : State) (w n : Nat) : State :=
  { s with mem.spoolValid := s.mem.spoolValid.filter (fun p => !decide (w ≤ p.1 ∧ p.1 < w + n)) }

/-- The check bits of a valid Spool byte; a word that is not valid has none evaluated (log 11). -/
def State.spoolCheck (s : State) (a : Nat) : Option (BitVec 5) :=
  if s.spoolWordValid (a / 8) then some (BitVec.ofNat 5 (Config.secded13 (s.spoolByte a).toNat)) else none

end Sys2Proof.Machine
end

