-- ==== Sys2Proof/Machine/Die.lean ====
section
/-! DEFINITION. One die: its queues and what its bobbin starts next (R128, R129, R141, R142, R145, R168), the program
tokens of a half (R142), the requests it raises at its channel's arbiter (R223), and the reclamation items (R168). -/

namespace Sys2Proof.Machine

/-! Roles (R203) and channel requests (R223). -/

/-- The role that holds a die (R200, R203). -/
def roleOf (d : DieId) : Nat := d.ch * 4 + d.pos / 8

/-- A role table entry; one with no entry is with its home bobbin at epoch 1 (R203). -/
def State.role (s : State) (r : Nat) : Role := Tab.get ⟨r, 1, .active, 0⟩ s.eng.roles r

/-- Whether the role of a die is in spare adoption (R147, R203). -/
def State.adopting (s : State) (d : DieId) : Bool := decide ((s.role (roleOf d)).st = .adopting)

/-- An arbiter with nothing raised and a new window (R225). -/
def Chan.idle (quota : Nat) : Chan := { (default : Chan) with quota := quota }

/-- A channel's arbiter. -/
def State.channel (s : State) (c : Nat) : Chan := Tab.get (Chan.idle s.chan.hpQuota) s.chan.table c

/-- The state with a channel's arbiter replaced. -/
def State.setChan (s : State) (c : Nat) (x : Chan) : State := { s with chan.table := Tab.set s.chan.table c x }

/-! Commas (R482, R483). -/

/-- A remote input. -/
def State.remote (s : State) (i : Nat) : Remote := Tab.get default s.therm.remotes i

/-- Whether an input covers a die group (R479). -/
def State.covers (s : State) (i g : Nat) : Bool :=
  match s.therm.cfg.map with
  | none => decide (g % 16 = i)
  | some m => (m.getD i 0).testBit g

/-- The effective media level of a die group (R482). -/
def State.groupLevel (s : State) (g : Nat) : Nat :=
  (List.range 16).foldl (fun n i =>
    let x := s.remote i
    if x.enabled && s.covers i g then max n x.level else n) s.therm.ld

/-- The level at which a bobbin pauses before a die of a group: the drain of R454 takes no commas (R483). -/
def State.commaLevel (s : State) (g : Nat) : Nat :=
  if (match s.pow.step with | .drain => true | _ => false) then 0 else s.groupLevel g

/-- Whether a comma still holds a request back: a program or erase confirm for 200 µs a level, and a read command for 4 µs a level,
from the end of the die's previous array operation (R483; log 99). -/
def State.commaHolds (s : State) (r : BusReq) : Bool :=
  let d := dieOfKey r.die
  let len := match r.what with
    | .progConfirm => 200
    | .eraseConfirm => 200
    | .readCmd => 4
    | _ => 0
  decide (s.now < (s.die d).opEndUs + len * s.commaLevel (s.groupOf d))

/-- A request raised at the arbiter of a die's channel (R223). -/
def State.busRaise (s : State) (d : DieId) (lvl : BusLevel) (op : BusOp) : State :=
  let x := s.channel d.ch
  s.setChan d.ch { x with reqs := x.reqs ++ [⟨d.pos / 8, lvl, dieKey d, op, (s.role (roleOf d)).owner⟩] }

/-! Reclamation items (R168-R170). -/

/-- The age limit of an item in µs, after which it is urgent (R168). -/
def ageLimit (mergeAgeS : Nat) : ItemKind → Option Nat
  | .merge _ _ _ => some (mergeAgeS * 1000000)
  | .refreshNormal => some 600000000
  | .degraded => some 3600000000
  | .patrol => some 86400000000
  | _ => none

/-- The urgency with which an item is queued (R168). -/
def queuedUrgency (logState : Nat) : ItemKind → Urgency
  | .merge _ _ _ => if logState = 2 then .foreground else .background
  | .refreshUrgent => .urgent
  | .rebuild _ _ _ => .urgent
  | .parityRebuild _ => .urgent
  | _ => .background

/-- An item queued for a bolt (R168). -/
def State.queueItem (s : State) (kind : ItemKind) (b : Nat) : State :=
  let it : Item := ⟨s.recl.nextItem, kind, b, queuedUrgency s.recl.logState kind, s.now, false, 0, 0, [], [], [], [], 0, 0, false⟩
  { s with recl.items := s.recl.items ++ [it], recl.nextItem := s.recl.nextItem + 1 }

/-- The urgency of a reclamation item by its number; work of no item is background work (R168). -/
def State.urgOf (s : State) (item : Nat) : Urgency :=
  match s.recl.items.find? (fun i => decide (i.id = item)) with
  | none => .background
  | some i => i.urg

/-- Counts a promotion to urgent (R168, R170, R197). -/
def State.countPromotion (s : State) : State :=
  ({ s with recl.urgentPromotions := s.recl.urgentPromotions + 1 } : State).pbCount 0 1

/-- Whether an item is a refresh. -/
def ItemKind.isRefresh : ItemKind → Bool
  | .refreshNormal => true
  | .refreshUrgent => true
  | _ => false

/-- Whether a bolt holds a zone or a region, which a refresh relocates (R166, R183). -/
def BoltUse.refreshes : BoltUse → Bool
  | .zone _ _ => true
  | .region _ _ => true
  | _ => false

/-- A refresh of a zone's or a region's bolt queued on the evidence of a read, raised where it is queued already, never for a deferred
bolt (R183-R185). -/
def State.queueRefresh (s : State) (b : Nat) (urgent : Bool) : State :=
  let x := s.bolt b
  if x.deferred ∨ x.st ≠ .bound ∨ !x.use.refreshes then s
  else if s.recl.items.any (fun i => decide (i.bolt = b) && i.kind.isRefresh) then
    if urgent && s.recl.items.any (fun i => decide (i.bolt = b ∧ i.kind = .refreshNormal)) then
      ({ s with recl.items := s.recl.items.map (fun i =>
          if i.bolt = b ∧ i.kind = .refreshNormal then { i with kind := .refreshUrgent, urg := .urgent } else i) } :
        State).countPromotion
    else s
  else s.queueItem (if urgent then .refreshUrgent else .refreshNormal) b

/-! Program tokens (R142). -/

/-- Whether a queued program takes a token: every one but a tail spill (R124, R142). -/
def ProgOp.takesToken (p : ProgOp) : Bool := decide (p.kind ≠ .spill)

/-- Whether a program is reclamation work (R168). -/
def ProgOp.isRecl (p : ProgOp) : Bool := decide (p.kind = .reloc)

/-- The ready backlog of a half: its queued program units that take tokens (R142). -/
def State.backlog (s : State) (g h : Nat) : Nat :=
  (List.range 16).foldl (fun n c => n + ((s.die (s.dieOf g (16 * h + c))).progs.filter ProgOp.takesToken).length) 0

/-- The most tokens that the power state lets a half hold (R451). -/
def State.tokenLimit (s : State) : Nat :=
  match s.pow.ps with
  | 0 => 16
  | 1 => 8
  | _ => 2

/-- T of a half (R142), within the limit of the power state (R451). -/
def State.tokenCount (s : State) (g h : Nat) : Nat :=
  min s.tokenLimit <|
  if s.capSectors ≤ 2 * s.exposed ∧ s.exposed ≠ 0 then 16
  else if s.backlog g h ≤ 32 then 1
  else min 16 (1 + s.backlog g h / 32)

/-- Whether a darn of the half has component reads not yet issued (R142). -/
def State.darnUnissued (s : State) (g h : Nat) : Bool :=
  s.rd.darns.any (fun n => decide (boltGroup n.target.bolt = g ∧ n.target.column / 16 = h ∧ n.unissued ≠ 0))

/-- The columns of a half in rotation order after the last granted one (R142). -/
def State.tokenOrder (s : State) (g h : Nat) : List Nat :=
  let last := Tab.get 15 s.dies.tokenRr (g * 2 + h)
  (List.range 16).map (fun j => 16 * h + (last + 1 + j) % 16)

/-- Grants the free tokens of a half in rotation to its dies that have a ready program, an urgent one first (R142, R170). -/
def State.grantTokens (s : State) (g h : Nat) : State :=
  if s.darnUnissued g h then s
  else
    let held := ((List.range 16).filter (fun c => (s.die (s.dieOf g (16 * h + c))).token)).length
    let ready := (s.tokenOrder g h).filter (fun c =>
      let x := s.die (s.dieOf g c)
      !x.token && !x.failed && !x.recovering && x.progs.any ProgOp.takesToken)
    let urgent := fun (c : Nat) => (s.die (s.dieOf g c)).progs.any (fun p => decide (s.urgOf p.item = .urgent))
    ((ready.filter urgent ++ ready.filter (fun c => !urgent c)).take (s.tokenCount g h - held)).foldl (fun s c =>
      let s := s.updDie (s.dieOf g c) (fun x => { x with token := true, tokenForced := false })
      { s with dies.tokenRr := Tab.set s.dies.tokenRr (g * 2 + h) (c % 16) }) s

/-! What a die starts next (R141). -/

/-- Whether an internal read belongs to an urgent item (R170). -/
def DieRead.urgentInternal (r : DieRead) : Bool := decide (r.cls = .internal) && r.waited2ms

/-- The step of R141 at which a read is served. -/
def DieRead.serveStep (r : DieRead) : Nat :=
  match r.cls with
  | .latency => 1
  | .component => 1
  | .bulk => if r.waited2ms then 1 else 3
  | .internal => if r.urgentInternal then 1 else 4

/-- The read with the earliest latest start time among those of a step, ties in arrival order (R141). -/
def earliestRead : List DieRead → Option DieRead
  | [] => none
  | r :: rs => match earliestRead rs with
    | none => some r
    | some x => if x.lst < r.lst then some x else some r

/-- The next of some reads of a step: at step 1 by latest start time, bulk and internal reads in arrival order. -/
def nextOfStep (rs : List DieRead) (step : Nat) : Option DieRead :=
  let rs := rs.filter (fun r => decide (r.serveStep = step))
  if step = 1 then earliestRead rs else rs.head?

/-- Extra sense levels of a soft read (R156). -/
def DieRead.levels (r : DieRead) : Nat := if r.step = 3 then 1 else if r.step = 4 then 3 else 0

/-- The die time of a read, or of a multi-plane pair, in ns: tR with 12 µs for each extra sense level, then the data-outs, which
grow by one codeword length for each level (R31, R141, R156). -/
def State.readNs (s : State) (rs : List DieRead) : Nat :=
  s.dp.tR * 1000 + 12000 * rs.foldl (fun n r => max n r.levels) 0 +
    rs.foldl (fun n r => n + r.sectors.length * (1 + r.levels) * 1280) 0

/-- Whether some reads, with the grant of the erase resume command that follows them, can end within 300 µs of the
suspension of the die's erase, where it is suspended (R145). -/
def State.fitsWindow (s : State) (x : Die) (rs : List DieRead) : Bool :=
  match x.erase with
  | none => true
  | some e => decide ((s.now - e.resumedUs) * 1000 + s.readNs rs + 100 ≤ 300000)

/-- The next read of a step at a die among those that can end in time (R141, R145). -/
def State.nextRead (s : State) (x : Die) (step : Nat) : Option DieRead :=
  nextOfStep (x.reads.filter (fun r => s.fitsWindow x [r])) step

/-- The partner of a read in a multi-plane read: the next of the same step on another plane that can end in time beside it
(R141). -/
def State.partner (s : State) (x : Die) (r : DieRead) : List DieRead :=
  (nextOfStep (x.reads.filter (fun q => decide (q.plane ≠ r.plane) && s.fitsWindow x [r, q])) r.serveStep).toList

/-- Whether host operations wait at a die (R168). -/
def Die.hostWaits (x : Die) : Bool :=
  x.reads.any (fun r => decide (r.cls ≠ .internal)) || x.progs.any (fun p => !p.isRecl)

/-- A host operation queued at a die, or taken from its queue: its group is not idle at this moment (R177). -/
def State.noteHost (s : State) (d : DieId) (host : Bool) : State :=
  if host then { s with recl.hostUs := Tab.set s.recl.hostUs (s.groupOf d) s.now } else s

/-- The count after an operation is started at a die: a reclamation operation begins it again, a host operation, which was waiting
there, adds to it (R168). -/
def Die.countOp (x : Die) (recl : Bool) : Die := { x with hostOps := if recl then 0 else min 7 (x.hostOps + 1) }

/-- Whether an item of an urgency is due at a die by its share: after 7 host operations in the background, after 1 in the
foreground (R168). -/
def Die.shareDue (x : Die) : Urgency → Bool
  | .background => decide (7 ≤ x.hostOps)
  | _ => decide (1 ≤ x.hostOps)

/-- A program or an erase starts or resumes at a die: whether to darn the reads that wait there is decided again (R147). -/
def Die.undecide (x : Die) : Die := { x with reads := x.reads.map (fun r => { r with decided := false }) }

/-- A read, or a multi-plane pair, started at a die (R141). -/
def State.startRead (s : State) (d : DieId) (r : DieRead) : State :=
  let x := s.die d
  let rs := r :: s.partner x r
  let x := { x with
    reads := x.reads.filter (fun q => !rs.contains q)
    reading := rs
    dataOut := false
    ledger := .readIssued }
  ((s.noteHost d (decide (r.cls ≠ .internal))).setDie d (x.countOp (decide (r.cls = .internal)))).busRaise d .normal .readCmd

/-- The read command of a die's reads has ended on the channel: the components read for the first time among them are
issued (R142), retries are counted (R165), and each read is charged to its tenant's die time (R151). -/
def State.readIssued (s : State) (d : DieId) : State :=
  let rs := (s.die d).reading
  let done := (rs.filter (fun q => decide (q.darn ≠ 0 ∧ q.step = 1))).map (·.darn)
  let s := { s with rd.darns := s.rd.darns.map (fun n =>
      if done.contains n.id then { n with unissued := n.unissued - done.count n.id } else n) }
  rs.foldl (fun s q =>
    let s : State := if q.step = 2 then s.updTenant q.tenant (fun t => { t with c4 := bumpAt t.c4 11 1 }) else s
    if q.tenant < 1024 then { s with rd.dieTime := Tab.bump s.rd.dieTime q.tenant 1 } else s) s

/-- Whether a transaction of a die is raised, decided or in progress at its channel's arbiter. -/
def State.busPending (s : State) (d : DieId) (op : BusOp) : Bool :=
  let x := s.channel d.ch
  let q : BusReq → Bool := fun r => decide (r.die = dieKey d ∧ r.what = op)
  x.reqs.any q || (match x.granted with | none => false | some r => q r) ||
    (match x.decided with | none => false | some r => q r)

/-- Every request of a die withdrawn from its channel's arbiter (R227). -/
def State.busDrop (s : State) (d : DieId) : State :=
  let x := s.channel d.ch
  s.setChan d.ch { x with reqs := x.reqs.filter (fun r => decide (r.die ≠ dieKey d)) }

/-- A status poll of a die that is still raised goes as the status is read (R223). -/
def State.busDropStatus (s : State) (d : DieId) : State :=
  let x := s.channel d.ch
  s.setChan d.ch { x with reqs := x.reqs.filter (fun r => !decide (r.die = dieKey d ∧ r.what = .status)) }

/-- Whether an unsuspended die may start the program at the head of its queue now (R142). -/
def Die.mayProgram (x : Die) : Bool :=
  match x.progs with
  | [] => false
  | p :: _ =>
    (x.token || !p.takesToken) &&
      (x.tokenForced || !x.reads.any (fun r => decide (r.serveStep = 1))) &&
      !x.reads.any (fun r => decide (r.cls = .latency) && r.sinceProgram)

/-- The program at the head of a die's queue started (R126, R128): its data-in and its confirm are requested, and the
ledger records them (R210). -/
def State.startProg (s : State) (d : DieId) : State :=
  let x := (s.die d).undecide
  match x.progs with
  | [] => s
  | p :: r =>
    let x := { x with
      progs := r
      prog := some p
      progUs := s.now
      ledger := .dataIn
      tokenForced := false
      erase := x.erase.map (fun (e : EraseRun) => { e with progsInWindow := e.progsInWindow + 1 }) }
    let s := ((s.noteHost d (!p.isRecl)).setDie d (x.countOp p.isRecl)).busRaise d .normal .progCmd
    let grants := if p.slc then 4 else (s.dp.u + 1) / 2
    ((List.range grants).foldl (fun s _ => s.busRaise d .normal .dataIn) s).busRaise d .normal .progConfirm

/-- The erase at the head of a die's queue started (R141 step 5, R173). -/
def State.startErase (s : State) (d : DieId) : State :=
  let x := (s.die d).undecide
  match x.eraseQ with
  | [] => s
  | e :: r =>
    let x := { x with
      eraseQ := r
      erase := some { e with resumedUs := s.now }
      ledger := .eraseConfirm }
    ((s.setDie d (x.countOp true)).busRaise d .normal .eraseCmd).busRaise d .normal .eraseConfirm

/-- A suspended erase resumed (R129, R145). -/
def State.resumeErase (s : State) (d : DieId) : State :=
  let x := (s.die d).undecide
  match x.erase with
  | none => s
  | some e =>
    (s.setDie d { x with
      hostOps := 0
      erase := some { e with suspended := false, segmentDone := false, progsInWindow := 0, resumedUs := s.now }
      ledger := .eraseConfirm }).busRaise d .normal .resume

/-- Whether a die may take a new operation: it is in service and idle, or its erase is suspended. -/
def Die.free (x : Die) : Bool :=
  !x.failed && !x.recovering && x.reading.isEmpty && x.prog.isNone &&
    (match x.erase with | none => true | some e => e.suspended)

/-- Whether an erase of a die may be started: one is queued, early warning has not latched, and no entry to PS3 or PS4 is
under way (R410, R454). -/
def State.mayErase (s : State) (x : Die) : Bool :=
  !x.eraseQ.isEmpty && !s.lastCall && !s.entering

/-- The urgency of an erase: a released bolt's by its own and its group's state (R168, R176), a spare unit's that of its
column rebuild (R170). -/
def State.eraseUrg (s : State) (d : DieId) (e : EraseRun) : Urgency :=
  if e.bolt < 2 ^ 18 then
    (if (s.bolt e.bolt).urgent then .urgent else if s.bolts.fgErase.contains (s.groupOf d) then .foreground else .background)
  else s.urgOf (e.bolt - 2 ^ 18)

/-- The internal read that the reclamation share makes due at a die, if any (R168). -/
def State.dueRead (s : State) (x : Die) : Option DieRead :=
  nextOfStep (x.reads.filter (fun r => s.fitsWindow x [r] && x.shareDue (s.urgOf r.cmd))) 4

/-- The die with the first reclamation program that the share makes due at the head of its program queue, where the die holds a
token (R168). -/
def State.dueProg (s : State) (x : Die) : Option Die :=
  match x.progs.find? (fun p => p.isRecl && x.shareDue (s.urgOf p.item)) with
  | none => none
  | some p =>
    if x.token && !x.reads.any (fun r => decide (r.cls = .latency) && r.sinceProgram) then
      some { x with progs := p :: x.progs.erase p }
    else none

/-- Starts the next operation of a free die in the order of R141, with the reclamation share of R168; none is started
on a die that is busy, failed or in recovery. -/
def State.serve (s : State) (d : DieId) : State :=
  let x := s.die d
  if !x.free || s.adopting d || s.asleep then s
  else
    let inWindow := x.erase.isSome
    let windowProg : Bool := match x.erase with | none => true | some e => decide (e.progsInWindow < 2)
    let progOk := x.mayProgram && !s.lastCall && windowProg
    let startOk := !inWindow && s.mayErase x
    let resumeOk := inWindow && !s.lastCall && !s.entering
    let headUrg : Option Urgency := match x.erase, x.eraseQ with
      | some e, _ => some (s.eraseUrg d e)
      | none, e :: _ => some (s.eraseUrg d e)
      | none, [] => none
    let eraseDue : Bool := match headUrg with | none => false | some u => x.shareDue u
    let dueRead : Option DieRead := if s.entering then none else s.dueRead x
    let dueProg : Option Die := if s.lastCall || !windowProg then none else s.dueProg x
    match dueRead, dueProg with
    | some r, _ => s.startRead d r
    | none, some y => (s.setDie d y).startProg d
    | none, none =>
      if eraseDue && startOk then s.startErase d
      else if eraseDue && resumeOk then s.resumeErase d
      else if x.tokenForced && progOk then s.startProg d
      else match s.nextRead x 1 with
        | some r => s.startRead d r
        | none =>
          if startOk && decide (headUrg = some .urgent) then s.startErase d
          else if progOk then s.startProg d
          else match s.nextRead x 3, (if s.entering then none else s.nextRead x 4) with
            | some r, _ => s.startRead d r
            | none, some r => s.startRead d r
            | none, none =>
              if resumeOk then s.resumeErase d
              else if startOk then s.startErase d else s

/-- Whether a queued read asks for the suspension of an erase: a latency-class read does, a bulk read once it has waited 2 ms, a
component as the read that it serves, an internal read where its item is urgent or due by its share (R137, R145, R168). -/
def State.suspends (s : State) (x : Die) (r : DieRead) : Bool :=
  match r.serves with
  | .latency => true
  | .bulk => r.waited2ms
  | .component => false
  | .internal => r.waited2ms || x.shareDue (s.urgOf r.cmd)

/-- The suspensions of an erase that programs may use (R144). -/
def State.progShare (s : State) : Nat := (s.dp.tErase + 1999) / 2000

/-- Issues the erase suspend command where a queued read or a ready program asks for it (R129, R145), or, uncounted, for an
entry to PS3 or PS4 (R454). -/
def State.trySuspend (s : State) (d : DieId) : State :=
  let x := s.die d
  match x.erase with
  | none => s
  | some e =>
    if e.suspended ∨ e.suspending ∨ x.failed ∨ x.recovering ∨ s.adopting d then s
    else
      let byRead := x.reads.any (s.suspends x) && e.segmentDone && decide (e.readSusp < s.dp.readSusp)
      let byProg := x.mayProgram && !s.lastCall && decide (e.progSusp < s.progShare) &&
        (decide (e.progSusp + e.readSusp = 0) || decide (e.resumedUs + 2000 ≤ s.now))
      let s : State := if byRead then
          (match x.reads.find? (s.suspends x) with
            | none => s
            | some r => s.updTenant r.tenant (fun t => { t with c4 := bumpAt t.c4 16 1 }))
        else s
      if byRead ∨ byProg ∨ (s.entering ∧ e.segmentDone) then
        (s.setDie d { x with
          erase := some { e with
            suspending := true
            readSusp := e.readSusp + (if byRead then 1 else 0)
            progSusp := e.progSusp + (if byProg && !byRead then 1 else 0) }
          ledger := .eraseSuspended }).busRaise d .normal .suspend
      else s

/-- The die is looked at again: it is served, or its erase is suspended for what waits. -/
def State.kick (s : State) (d : DieId) : State := (s.serve d).trySuspend d

/-- A program unit put into the queue of a die (R128). -/
def State.enqProg (s : State) (d : DieId) (p : ProgOp) : State :=
  ((s.noteHost d (!p.isRecl)).updDie d (fun x => { x with progs := x.progs ++ [p] })).grantTokens (s.groupOf d) (s.colOf d / 16)

/-- A program of an urgent item put into the queue of a die ahead of host programs (R170). -/
def State.enqUrgentProg (s : State) (d : DieId) (p : ProgOp) : State :=
  let urgent := fun (q : ProgOp) => q.isRecl && decide (s.urgOf q.item = .urgent)
  (s.updDie d (fun x => { x with progs := x.progs.filter urgent ++ p :: x.progs.filter (fun q => !urgent q) })).grantTokens
    (s.groupOf d) (s.colOf d / 16)

/-- A read put into the queue of a die, behind those that came before it (R141). -/
def State.enqRead (s : State) (d : DieId) (r : DieRead) : State :=
  let s := (s.noteHost d (decide (r.cls ≠ .internal))).updDie d (fun x => { x with
    reads := x.reads ++ [{ r with sinceProgram := x.prog.isSome, atUs := s.now, decided := false, arr := s.dies.nextArr }] })
  { s with dies.nextArr := s.dies.nextArr + 1 }

/-- A read put back into its place in the queue of a die (R149). -/
def State.putBack (s : State) (d : DieId) (r : DieRead) : State :=
  s.updDie d (fun x => { x with
    reads := x.reads.takeWhile (fun q => decide (q.arr < r.arr)) ++
      { r with decided := true } :: x.reads.dropWhile (fun q => decide (q.arr < r.arr)) })

/-- An erase put into the queue of a die (R173). -/
def State.enqErase (s : State) (d : DieId) (e : EraseRun) : State :=
  s.updDie d (fun x => { x with eraseQ := x.eraseQ ++ [e] })

/-- A fresh erase run of a unit. -/
def EraseRun.fresh (bolt col unit src opId : Nat) : EraseRun :=
  ⟨bolt, col, unit, false, 0, 0, 0, false, false, 0, 0, src, opId, false⟩

/-! Bobbin messages (R199-R206). -/

/-- The endpoint address of intake (R198; log 22). -/
def intakeAddr : Nat := 196

/-- The endpoint addresses of the Tailor pairs (R198; log 22). -/
def pairAddrs : List Nat := [197, 198, 199, 200]

/-- The request entries on credit that a bobbin input holds for a sender (R199). -/
def credit (src : Nat) : Nat := if src = intakeAddr then 256 else if pairAddrs.contains src then 16 else 8

/-- Whether a sender has credit at a receiver (R199). -/
def State.hasCredit (s : State) (src dest : Nat) : Bool :=
  decide ((s.eng.msgs.filter (fun q => decide (q.src = src ∧ q.dest = dest))).length < credit src)

/-- A request put on the request plane, or kept by its sender behind those it keeps for the same bobbin (R199). -/
def State.sendReq (s : State) (m : BMsg) : State :=
  if s.hasCredit m.src m.dest && !s.eng.unsent.any (fun q => decide (q.src = m.src ∧ q.dest = m.dest)) then
    { s with eng.msgs := s.eng.msgs ++ [m] }
  else { s with eng.unsent := s.eng.unsent ++ [m] }

/-- A response put on the response plane, into the slot that its request reserved (R199). -/
def State.sendRsp (s : State) (m : BMsg) : State := { s with eng.rsps := s.eng.rsps ++ [m] }

/-- A broadcast of the role supervisor (R201). -/
def State.sendCtrl (s : State) (m : BMsg) : State := { s with eng.ctrl := s.eng.ctrl ++ [m] }

/-- The bobbin that holds the role of a request, which answers it. -/
def State.holder (s : State) (role : Nat) : Nat := (s.role role).owner

/-- The final response to the request that a die operation serves (R201): DATA_READY before the DONE of a read, DONE, or
FAULT, with the corrected-bit count or the cause as OBJECT (log 22). -/
def State.respond (s : State) (op : Nat) (ok : Bool) (obj : Nat) : State :=
  match s.eng.reqs.find? (fun q => decide (q.op = op ∧ q.op ≠ 0)) with
  | none => s
  | some q =>
    let s := { s with eng.reqs := s.eng.reqs.map (fun (x : Req) =>
      if x.op = op then { x with op := 0, answered := true } else x) }
    let m : BMsg := ⟨q.src, s.holder q.role, if ok then 0x20 else 0x24, q.role, q.epoch, q.opId,
      BitVec.ofNat 128 (if ok then q.bits * 256 else obj)⟩
    let s := if ok ∧ (q.verb = 1 ∨ q.verb = 2) then s.sendRsp { m with verb := 0x21, object := 0#128 } else s
    s.sendRsp m

/-- Whether a read is still under way somewhere: queued, in progress, in decoding, or replaced by a darn. -/
def State.opAlive (s : State) (id : Nat) : Bool :=
  let q : DieRead → Bool := fun r => decide (r.id = id)
  s.dies.table.any (fun p => p.2.reads.any q || p.2.reading.any q) || s.rd.decodes.any (fun p => q p.2) ||
    s.rd.ldpc.any (fun p => q p.2.2) || s.rd.darns.any (fun n => q n.target) || s.rd.queuedDarns.any (fun n => q n.target)

/-- The next OP_ID of the device. -/
def State.newOp (s : State) : Nat × State := (s.dies.nextOp, { s with dies.nextOp := s.dies.nextOp + 1 })

end Sys2Proof.Machine
end

