-- ==== Sys2Proof/Machine/Payload.lean ====
section
/-! DEFINITION. The bytes of a sector in a swatch, in the staging region and on NAND (R30, R31, R310-R314, R340), and those of a
parity unit (R74). The cipher and the LDPC code are symbolic (log 7): State holds what a sector was sealed from, and the
definitions below give the bytes that stand for it, ciphertext and tag among them, in terms of constants that have no body. -/

namespace Sys2Proof.Machine

/-! The fields that seal a sector (R310-R314). -/

/-- The IV (R313). -/
def Sealed.iv (x : Sealed) : List Byte :=
  bytesLE 1 (x.keySlot % 2 + 2 * x.nsid) ++ bytesLE 5 x.lba ++
    (if x.nsid = 1 then bytesLE 4 x.gen ++ bytesLE 2 0 else bytesLE 6 x.gen)

/-- The additional authenticated data that a sector was sealed with: the tenant's handle, the namespace, the LBA, and the zone
generation or the region generation (R312, R315). -/
def Sealed.aad (x : Sealed) : List Byte :=
  bytesLE 4 x.handle ++ bytesLE 4 x.nsid ++ bytesLE 8 x.lba ++ bytesLE 4 (if x.nsid = 1 then x.gen else x.region)

/-- KEY_REF: its mark in bits [15:13] on a lost sector, zero on N variants (R310, R340, R368). -/
def State.keyRef (s : State) (x : Sealed) : Nat :=
  if x.lost then 7 * 2 ^ 13
  else if s.cipher then x.keySlot % 2 + 2 * (x.keyGen % 4096) + 2 ^ 13 else 0

/-- WRITE_SEQ: the write sequence of a sector of NSID 2, zero on NSID 1 (R310, R314, R340). -/
def Sealed.writeSeq (x : Sealed) : Nat := if x.nsid = 2 then x.gen else 0

/-- The 4,104 bytes of plaintext: the sector and its host metadata (R310). -/
def Sealed.plain (x : Sealed) : Nat := x.data.toNat + 2 ^ 32768 * x.metadata.toNat

/-! The payload and the codeword. -/

/-- The ciphertext of a sector: its plaintext on N variants (R310, R340). -/
def State.cipherText (s : State) (x : Sealed) : Nat :=
  if s.cipher then Config.gcmText x.keySlot x.keyGen x.iv x.aad x.plain else x.plain

/-- The tag of a sector: zeros on N variants (R310, R340). -/
def State.sectorTag (s : State) (x : Sealed) : Nat :=
  if s.cipher then Config.gcmTag x.keySlot x.keyGen x.iv x.aad x.plain else 0

/-- The 4,128-byte payload of a sector, the same in the swatch, in the staging region and in the codeword (R310, R311); of a lost
one zero but for its mark (R368). -/
def State.payload (s : State) (x : Sealed) : Payload :=
  if x.lost then BitVec.ofNat 33024 (2 ^ 33008 * s.keyRef x)
  else BitVec.ofNat 33024 (s.cipherText x % 2 ^ 32768 + 2 ^ 32768 * (s.sectorTag x % 2 ^ 128) +
    2 ^ 32896 * (s.cipherText x / 2 ^ 32768 % 2 ^ 64) + 2 ^ 32960 * (x.writeSeq % 2 ^ 48) + 2 ^ 33008 * s.keyRef x)

/-- The 4,608-byte codeword of a payload: 480 bytes of LDPC parity follow it (R31). -/
def codeword (p : Payload) : BitVec 36864 :=
  BitVec.ofNat 36864 (p.toNat + 2 ^ 33024 * (Config.ldpc p.toNat % 2 ^ 3840))

/-! Parity (R74, R75). -/

/-- The zone offset of sector `x` of data column `d` of a half and row, with program units of `u` sectors (R75). -/
def dataOff (u half row d x : Nat) : Nat := (30 * row + 2 * d + half) * u + x

/-- The payload that lies at an offset of a bolt; a filler sector's is not stated (R122, log 11). -/
def State.stored (s : State) (b o : Nat) : Payload :=
  match Tab.find s.dies.nand (nandKey b o) with
  | some x => s.payload x
  | none => BitVec.ofNat 33024 (Config.filler (nandKey b o))

/-- The byte-wise XOR of sector `x` of some data columns of a half-stripe. -/
def State.xorOf (s : State) (b half row x : Nat) (cols : List Nat) : Payload :=
  cols.foldl (fun (acc : Payload) d => acc ^^^ s.stored b (dataOff (s.unitSectors b) half row d x)) 0#33024

/-- Sector `x` of the parity unit of a half-stripe: the XOR of the 15 data units, spare area included (R74). -/
def State.parityOf (s : State) (b half row x : Nat) : Payload := s.xorOf b half row x (List.range 15)

/-- What a darn builds for sector `x` of data column `d`: the XOR of the other 14 data units and the parity unit (R149). -/
def State.darned (s : State) (b half row d x : Nat) : Payload :=
  s.xorOf b half row x ((List.range 15).erase d) ^^^ s.parityOf b half row x

end Sys2Proof.Machine
end

