-- ==== Sys2Proof/Machine/ReadPath.lean ====
section
/-! DEFINITION. The read path: the working pace and the service estimate (R26), darning (R147-R153), Seam lanes (R317),
what becomes of each sector (R138-R140, R158-R160, R319, R325), and what a die's read queue does when its die changes. -/

namespace Sys2Proof.Machine

/-! Pace and estimates (R24-R27). -/

/-- The pace floor of a VCORE level (R24). -/
def paceFloor : Nat → Nat
  | 0 => 775
  | 1 => 650
  | 2 => 570
  | _ => 500

/-- The VCORE level that floors are taken for: the lower of the old and the new one until the settling wait has elapsed (R28). -/
def State.levelNow (s : State) : Nat := if s.pow.settling then max s.pow.oldVcore s.pow.vid else s.pow.vcore

/-- The working pace in stitches/µs: the lowest of the last 8 readings, the value held for a VCORE step, or the floor while
the gauge is faulty (R26, R27, R222); minimum pace before the first reading (log 15). -/
def State.pace (s : State) : Nat :=
  match s.gauge.hold with
  | some h => h
  | none => if s.gauge.fault then paceFloor s.levelNow else (minOf s.gauge.last8).getD 500

/-- An estimate in µs, rounded up, of a Weave cost in stitches and a clocked time in ns, at the working pace but never above the
bound at minimum pace (R26). -/
def State.estimate (s : State) (stitches ns : Nat) : Nat := (stitches * 1000 / max 500 s.pace + ns + 999) / 1000

/-- The Weave cost of the Seam lanes for `n` sectors: the pipeline fill, then the sectors over 32 lanes; none on N variants
(R29, R31, R317). -/
def State.seamStitches (s : State) (n : Nat) : Nat := if s.cipher then 20 + 512 * ((n + 31) / 32) else 0

/-- The points of a read at which its latest start time is computed (R26, R31). -/
inductive ReadStage where
  /-- At the arbiter. -/
  | arbiter
  /-- At the bobbin of its die. -/
  | die
  /-- Before a decode lane. -/
  | decode
  /-- Before a Seam lane. -/
  | lane
  deriving DecidableEq, Repr

/-- The remaining service estimate of a Read of `n` sectors at a stage, its slowest sub-read having `k` codewords: the stages
of R31 still to be passed (R26). -/
def State.readEstimate (s : State) (st : ReadStage) (k n : Nat) : Nat :=
  let lane := s.seamStitches 1 + 12
  match st with
  | .arbiter => s.estimate (14 + 9 + 7 + 16 + 1152 + lane) (200 + s.dp.tR * 1000 + 1280 * k + 137 * n)
  | .die => s.estimate (1152 + lane) (200 + s.dp.tR * 1000 + 1280 * k + 137 * n)
  | .decode => s.estimate (1152 + lane) (137 * n)
  | .lane => s.estimate lane (137 * n)

/-- The remaining service estimate of a write of `n` sectors, from the arbiter or from its lanes on: the stages of R29 still to be
passed, with the DRAM drain (R26). -/
def State.writeEstimate (s : State) (atLane : Bool) (n : Nat) : Nat :=
  s.estimate ((if atLane then 0 else 14 + 9 + 6 + 3 + 5) + s.seamStitches n + 8 + 12) 60

/-- The latest start time of a granted command with a remaining service estimate: the moment of its promotion, otherwise its
landing and its class bound less the estimate (R246, R247). -/
def Outst.latest (o : Outst) (est : Nat) : Nat :=
  match o.promotedUs with
  | some t => t
  | none => o.landedUs + (classBound o.kind o.cls).getD 0 - est

/-- The granted command of a queue. -/
def State.outstAt (s : State) (f : FnId) (sqid cid : Nat) : Option Outst :=
  (s.fn f).granted.find? (fun o => decide (o.sqid = sqid ∧ o.cid = cid))

/-- The latest start time of a Read at a stage, its slowest sub-read having `k` codewords (R26, R247). -/
def State.readLst (s : State) (st : ReadStage) (k : Nat) (r : Rd) : Nat :=
  match s.outstAt r.fn r.sqid r.cid with
  | none => s.now
  | some o => o.latest (s.readEstimate st k r.res.length)

/-! Counters of a tenant. -/

/-- Counter `i` of log C4h (R165), in its order there. -/
def State.c4 (s : State) (slot i n : Nat) : State := s.updTenant slot (fun t => { t with c4 := bumpAt t.c4 i n })

/-- Counter `i` of log C8h (R341): AUTH_FAILURES, ACCESS_DENIED, KEY_CHANGES. -/
def State.c8 (s : State) (slot i : Nat) : State := s.updTenant slot (fun t => { t with c8 := bumpAt t.c8 i 1 })

/-- Counter `i` of the open yardage epoch (R500). -/
def State.meter (s : State) (slot i n : Nat) : State :=
  s.updTenant slot (fun t => { t with meters := bumpAt t.meters i n })

/-! Key slots (R321, R325). -/

/-- Key slot `k` (0 or 1) of a tenant. -/
def Tenant.key (t : Tenant) (k : Nat) : KeySlot := t.keys.getD k default

/-- The index of the slot in WRITE, if any (R321). -/
def Tenant.writeSlot (t : Tenant) : Option Nat := [0, 1].find? (fun k => decide ((t.key k).st = .write))

/-- Whether data sealed under a key slot (as a device number, tenant x 2 + index) and generation may be read (R325). -/
def State.keyReadable (s : State) (keySlot keyGen : Nat) : Bool :=
  decide (((s.tenantD (keySlot / 2)).key (keySlot % 2)).st ≠ .empty ∧ s.gen 4 keySlot = keyGen)

/-! The outcome of a sector (R140). -/

/-- A read command by number. -/
def State.readCmd (s : State) (id : Nat) : Option Rd := s.rd.reads.find? (fun r => decide (r.id = id))

/-- Whether sector `i` of a read is still to be served. -/
def State.sectorPending (s : State) (id i : Nat) : Bool :=
  match s.readCmd id with
  | none => false
  | some r => decide (r.res[i]? = some .pending)

/-- The status of the failing sector with the lowest LBA, with its place (R140). -/
def firstFailure : List SecRes → Nat → Option (Nat × Nat)
  | [], _ => none
  | .failed st :: _, i => some (st, i)
  | _ :: r, i => firstFailure r (i + 1)

/-- Sectors of a read that reach the host (R500). -/
def servedCount (rs : List SecRes) : Nat :=
  (rs.filter (fun r => match r with | .data _ => true | .unwritten => true | _ => false)).length

/-- The number under which sector `x` of the parity unit of a half and row of a bolt is read, above every sector's offset (log
7). -/
def parityOff (half row x : Nat) : Nat := 983040 + (half * 1024 + row) * 32 + x

/-- The page that a sector of a bolt lies on, as column, row, plane and page (R74, R75, R140). -/
def State.pageOf (s : State) (b o : Nat) : Nat × (Nat × (Nat × Nat)) :=
  let u := s.unitSectors b
  if o < 983040 then
    let p := placeOf b u o
    (p.column, (p.row, (p.plane, p.page)))
  else
    let y := o - 983040
    let x := y % 32
    (16 * (y / 32768) + parityCol b, (y / 32 % 1024, (x / (u / 2), x % (u / 2) / 4)))

/-- Whether two sectors of a read belong to one sub-read: both on NAND, on one page (R140). -/
def State.samePart (s : State) (r : Rd) (i j : Nat) : Bool :=
  let p := r.src.getD i 0
  let q := r.src.getD j 0
  decide (i = j ∨ (p ≠ 0 ∧ q ≠ 0 ∧ p / 2 ^ 20 = q / 2 ^ 20 ∧
    s.pageOf (p / 2 ^ 20) (p % 2 ^ 20) = s.pageOf (q / 2 ^ 20) (q % 2 ^ 20)))

/-- The data of the sub-read of sector `i`, where its last sector has been settled, goes to the host (R140). -/
def State.sendPart (s : State) (r : Rd) (i : Nat) : State :=
  let part := (List.range r.res.length).filter (s.samePart r i)
  let out := part.map (fun j => (j, r.res.getD j .pending))
  if out.any (fun p => decide (p.2 = .pending)) then s
  else s.emit (.data r.fn r.sqid r.cid (out.filter (fun p => match p.2 with | .failed _ => false | _ => true)))

/-- The host buffer of a Read that has failed: undefined, but for the part of a sector that failed its tag compare, which is
not written (R140, R319; log 11). -/
def State.spoilBuffer (s : State) (r : Rd) : State :=
  let out := (r.res.zipIdx.filter (fun p => decide (p.1 ≠ .failed nvAuthFailed))).map (fun p =>
    (p.2, SecRes.data { (default : Sealed) with data := Config.freeSector (s.fresh + p.2) }))
  ({ s with fresh := s.fresh + r.res.length } : State).emit (.data r.fn r.sqid r.cid out)

/-- A read whose last sector has been settled completes (R140). -/
def State.finishRead (s : State) (r : Rd) : State :=
  let s := { s with rd.reads := s.rd.reads.filter (fun q => decide (q.id ≠ r.id)) }
  let s := r.pins.foldl State.unpin s
  let s := s.unpinSwatches r.swPins
  let n := servedCount r.res
  let s := (s.meter r.tenant 0 n).updTenant r.tenant (fun t => { t with smart := bumpAt (bumpAt t.smart 0 (8 * n)) 2 1 })
  let nsid := BitVec.ofNat 32 r.nsid
  match firstFailure r.res 0 with
  | none => s.complete r.fn { sqid := r.sqid, cid := r.cid, nsid := nsid }
  | some (st, i) =>
    let s : State := if st = nvAccessDenied then s.c8 r.tenant 1 else s
    (s.spoilBuffer r).complete r.fn { sqid := r.sqid, cid := r.cid, status := st, dnr := true, nsid := nsid, lba := r.lba + i }

/-- Sector `i` of a read settled; a sector already settled keeps its outcome (R158). -/
def State.setRes (s : State) (id i : Nat) (res : SecRes) : State :=
  match s.readCmd id with
  | none => s
  | some r =>
    if r.res[i]? = some .pending then
      let r := { r with res := r.res.set i res }
      let s := ({ s with rd.reads := s.rd.reads.map (fun q => if q.id = id then r else q) } : State).sendPart r i
      if r.res.all (fun x => decide (x ≠ .pending)) then s.finishRead r else s
    else s

/-- A sector served, with the counters of R165. -/
def State.sectorOk (s : State) (id i : Nat) (x : Sealed) (fromNand viaDarn forTag : Bool) : State :=
  match s.readCmd id with
  | none => s
  | some r =>
    if s.sectorPending id i then
      let s := s.c4 r.tenant (if fromNand then 0 else 1) 1
      let s : State := if viaDarn then s.c4 r.tenant (if forTag then 15 else 13) 1 else s
      s.setRes id i (.data x)
    else s

/-- A sector failed (R159, R319, R325). -/
def State.sectorFail (s : State) (id i status : Nat) (bolt : Option Nat) : State :=
  match s.readCmd id with
  | none => s
  | some r =>
    if s.sectorPending id i then
      let s : State := if status = nvUnrecovered then
          let s := (s.c4 r.tenant 14 1).updTenant r.tenant (fun t => { t with smart := bumpAt t.smart 6 1 })
          (match bolt with
            | none => s
            | some b => s.queueRefresh b true)
        else if status = nvAuthFailed then s.c8 r.tenant 0 else s
      s.setRes id i (.failed status)
    else s

/-! Seam lanes (R317). -/

/-- The waiting job with the earliest latest start time, ties in arrival order. -/
def earliestJob : List SeamJob → Option SeamJob
  | [] => none
  | j :: r => match earliestJob r with
    | none => some j
    | some x => if x.lst < j.lst then some x else some j

/-- Gives a free lane to the earliest waiting sector. -/
def State.seamOne (s : State) : State :=
  match lowestFree (s.rd.lanes.map (·.1)) 0 32, earliestJob s.rd.seamQ with
  | some lane, some j =>
    { s with rd.lanes := Tab.set s.rd.lanes lane j, rd.seamQ := s.rd.seamQ.erase j }
  | _, _ => s

/-- Gives free lanes to waiting sectors, in latest-start order (R317). -/
def State.seamAssign (s : State) : State := (List.range 32).foldl (fun s _ => s.seamOne) s

/-- A sector put before the Seam lanes. -/
def State.seamPush (s : State) (j : SeamJob) : State :=
  ({ s with rd.seamQ := s.rd.seamQ ++ [j] } : State).seamAssign

/-- The payload of a sector on its way to the host: the key check of R325, then a lane; on N variants straight to the
host port. A lost sector reads as unrecovered (R368). -/
def State.toHost (s : State) (r : Rd) (i : Nat) (x : Sealed) (fromNand viaDarn forTag fixed : Bool) (die : Nat)
    (src : DieRead) : State :=
  let bolt := if fromNand then some src.bolt else none
  if x.lost then s.sectorFail r.id i nvUnrecovered bolt
  else if s.cipher then
    if s.keyReadable x.keySlot x.keyGen then
      s.seamPush { isRead := true, cmd := r.id, sector := i, payload := x, viaDarn := viaDarn, forTag := forTag,
                   fixed := fixed, lst := s.readLst .lane 1 r, die := die, src := src }
    else s.sectorFail r.id i nvAccessDenied none
  else s.sectorOk r.id i x fromNand viaDarn forTag

/-- The place in a read of the sector whose copy lies at a place on NAND. -/
def Rd.sectorAt (r : Rd) (place : Nat) : Option Nat :=
  let i := r.src.idxOf place
  if i < r.src.length then some i else none

/-- The payload at a sector's number in a bolt: a parity unit's sector is the XOR of its half-stripe (R74, log 7). -/
def State.payloadAt (s : State) (b o : Nat) : Payload :=
  if o < 983040 then s.stored b o
  else s.parityOf b ((o - 983040) / 32768) ((o - 983040) / 32 % 1024) ((o - 983040) % 32)

/-- A sector of a READ message's read put at its BUFFER, the page's codewords 4 KiB apart (R202; log 22). -/
def State.fillBuffer (s : State) (r : DieRead) (o : Nat) : State :=
  { s with eng.filled := Tab.set s.eng.filled (r.buffer + 4096 * r.sectors.idxOf o) (s.payloadAt r.bolt o) }

/-- A sector of a sub-read has been decoded or reconstructed: it goes to its host Read, or to its reclamation item. A
sector that was never programmed reads as unwritten (R139). -/
def State.deliver (s : State) (d : DieId) (r : DieRead) (o : Nat) (viaDarn forTag fixed : Bool) : State :=
  let place := nandKey r.bolt o
  if r.src ≠ 256 then
    let s := s.fillBuffer r o
    if s.opAlive r.id then s else s.respond r.id true 0
  else if r.cls = .internal then
    { s with recl.inbox := s.recl.inbox ++ [(r.cmd, (place, true))] }
  else match s.readCmd r.cmd with
    | none => s
    | some q => match q.sectorAt place with
      | none => s
      | some i => match Tab.find s.dies.nand place with
        | some x => s.toHost q i x true viaDarn forTag fixed (dieKey d) r
        | none => if s.sectorPending q.id i then (s.c4 q.tenant 2 1).setRes q.id i .unwritten else s

/-- A sector of a sub-read cannot be served (R159, R319). -/
def State.undeliver (s : State) (r : DieRead) (o status : Nat) : State :=
  let place := nandKey r.bolt o
  if r.src ≠ 256 then s.respond r.id false status
  else if r.cls = .internal then { s with recl.inbox := s.recl.inbox ++ [(r.cmd, (place, false))] }
  else match s.readCmd r.cmd with
    | none => s
    | some q => match q.sectorAt place with
      | none => s
      | some i => s.sectorFail q.id i status (some r.bolt)

/-- Whether a sub-read still has a sector that is wanted. -/
def State.wanted (s : State) (r : DieRead) (o : Nat) : Bool :=
  if r.src ≠ 256 then s.eng.reqs.any (fun q => decide (q.op = r.id))
  else if r.cls = .internal then
    s.recl.items.any (fun it => decide (it.id = r.cmd) && it.cur.any (fun e => decide (e.2 = nandKey r.bolt o)) &&
      !it.got.contains (nandKey r.bolt o))
  else match s.readCmd r.cmd with
    | none => false
    | some q => match q.sectorAt (nandKey r.bolt o) with
      | none => false
      | some i => decide (q.res[i]? = some .pending)

/-! The darning bucket (R150-R153), in billionths of a codeword. -/

/-- A full bucket. -/
def State.fullBucket (s : State) : Bucket := ⟨(s.rd.depth * 10 ^ 9 : Nat), s.now, false, 0, [], false⟩

/-- The bucket of a group refilled to the present moment (R150). -/
def State.bucket (s : State) (g : Nat) : Bucket :=
  let b := Tab.get s.fullBucket s.rd.buckets g
  let gain := (s.now - b.atUs) * s.rd.pct * 7812500 * s.channels / max 1 s.groups
  { b with level := min (s.rd.depth * 10 ^ 9 : Nat) (b.level + gain), atUs := s.now }

/-- The state with the bucket of a group replaced. -/
def State.setBucket (s : State) (g : Nat) (b : Bucket) : State := { s with rd.buckets := Tab.set s.rd.buckets g b }

/-- The tenants whose die-group set includes a group. -/
def State.tenantsOfGroup (s : State) (g : Nat) : List (Nat × Tenant) :=
  s.host.tenants.filter (fun p => p.2.groups.contains g)

/-- The event of R152 raised: on the manager function and on each tenant whose set includes the group, counted for each tenant
to which it is delivered (R165). -/
def State.exhaustEvent (s : State) (g : Nat) : State :=
  let fns := (s.tenantsOfGroup g).filterMap (fun p => p.2.fn.map (fun f => (p.1, f)))
  let s := s.vendorEvent s.managerFn 1 0x83 g 0
  fns.foldl (fun s p =>
    let s : State := if (s.fn p.2).vec.getLsbD 1 then s.c4 p.1 17 1 else s
    if s.isManager p.2 then s else s.vendorEvent p.2 1 0x83 g (s.handleOf 1 p.1)) s

/-- The entry of a group into overdraft, counted for each tenant of the group and in the Pattern Book (R153). -/
def State.enterOverdraft (s : State) (g : Nat) : State :=
  let b := s.bucket g
  if s.degraded g && decide (b.level < 0) && !b.inOver then
    ((s.tenantsOfGroup g).foldl (fun s p => s.c4 p.1 10 1) (s.setBucket g { b with inOver := true })).pbCount 1 1
  else s

/-- `n` codewords charged to a group's bucket for a tenant, with exhaustion (R152) and overdraft (R153). -/
def State.chargeDarn (s : State) (g n tenant : Nat) : State :=
  let b := s.bucket g
  let low : Int := -((s.rd.depth * 10 ^ 9 : Nat) : Int)
  let raw := b.level - ((n * 10 ^ 9 : Nat) : Int)
  let level := max low raw
  let excess := (low - min low raw).toNat / 10 ^ 9
  let exhausted := b.exhausted || decide (level < 15 * 10 ^ 9)
  let s := s.setBucket g { b with level := level, overdraft := b.overdraft + excess, exhausted := exhausted,
                                  charges := Tab.bump b.charges tenant n }
  (if exhausted && !b.exhausted then s.exhaustEvent g else s).enterOverdraft g

/-- The allowance of a tenant in a shared group for one window, in billionths of a codeword (R151). -/
def State.darnAllowance (s : State) (g tenant : Nat) : Nat :=
  let ws := s.tenantsOfGroup g
  let total := ws.foldl (fun n p => n + p.2.contract.weight) 0
  let refill := 10000 * s.rd.pct * 7812500 * s.channels / max 1 s.groups
  refill * (s.tenantD tenant).contract.weight / max 1 total

/-- Whether the budget admits an optional darn of cost `n` (R150-R152). -/
def State.budgetAdmits (s : State) (g n tenant : Nat) : Bool :=
  let b := s.bucket g
  !b.exhausted && decide (((n * 10 ^ 9 : Nat) : Int) ≤ b.level) &&
    (decide ((s.tenantsOfGroup g).length < 2) || decide (((s.rd.depth * 10 ^ 9 : Nat) : Int) ≤ 2 * b.level) ||
      decide (Tab.get 0 b.charges tenant * 10 ^ 9 < s.darnAllowance g tenant))

/-! Conditions of a darn (R147, R148). -/

/-- The remaining program time of a die in µs (R147). -/
def State.progLeft (s : State) (x : Die) : Nat :=
  match x.prog with
  | none => 0
  | some p => (if p.slc then s.dp.tSlc else s.dp.tProg) - (s.now - x.progUs)

/-- The remaining erase time of a die in µs (R145). -/
def State.eraseLeft (s : State) (x : Die) : Nat :=
  match x.erase with
  | none => 0
  | some e => s.dp.tErase - (e.ranUs + (if e.suspended then 0 else s.now - e.resumedUs))

/-- The condition of R147 that holds for a read at its die, if any. -/
def State.darnCondition (s : State) (d : DieId) (r : DieRead) : Option DarnKind :=
  let x := s.die d
  if r.cls = .component then none
  else if x.failed ∨ x.recovering ∨ s.adopting d then some .mandatory
  else if r.cls = .latency then
    let used : Bool := match x.erase with | none => false | some e => decide (s.dp.readSusp ≤ e.readSusp) && !e.suspended
    if s.rd.threshUs < s.progLeft x ∨ (used ∧ s.rd.threshUs < s.eraseLeft x) then some .optional else none
  else none

/-- The open accumulator that covers a row of a half of a bolt, if any (R148). -/
def State.openStripe (s : State) (b half row : Nat) : Option Accum :=
  s.wr.accums.find? (fun a => decide (a.bolt = b ∧ a.half = half ∧ a.row = row))

/-- The other columns of a read's half. -/
def otherColumns (r : DieRead) : List Nat :=
  ((List.range 16).map (fun j => 16 * (r.column / 16) + j)).filter (· ≠ r.column)

/-- The columns whose dies a darn of a read needs: those XORed so far where the half-stripe is open, else the other 15
(R148). -/
def State.darnColumns (s : State) (r : DieRead) : List Nat :=
  match s.openStripe r.bolt (r.column / 16) r.row with
  | some a => (otherColumns r).filter a.chunks.contains
  | none => otherColumns r

/-- Whether a column's component is still in swatches: its program has not passed (R148). -/
def State.columnInSwatch (s : State) (r : DieRead) (c : Nat) : Bool :=
  let x := s.die (s.dieOf (boltGroup r.bolt) c)
  let q : ProgOp → Bool := fun p => decide (p.bolt = r.bolt ∧ p.row = r.row ∧ p.column = c ∧ (p.kind = .chunk ∨ p.kind = .pad))
  x.progs.any q || x.prog.toList.any q || s.wr.ready.any q || s.recl.items.any (fun i => i.held.any q) ||
    s.wr.accums.any (fun a => a.held.any q)

/-- The columns whose component is read from NAND (R148, R150). -/
def State.darnReads (s : State) (r : DieRead) : List Nat :=
  (s.darnColumns r).filter (fun c => !s.columnInSwatch r c)

/-- The cost of a darn in codewords (R150). -/
def State.darnCost (s : State) (r : DieRead) : Nat := (s.darnReads r).length * r.sectors.length

/-- Whether another column of the half has failed, so that the sector cannot be reconstructed (R148). -/
def State.unreconstructable (s : State) (r : DieRead) : Bool :=
  (s.darnColumns r).any (fun c => s.dieFailed (s.dieOf (boltGroup r.bolt) c))

/-- Whether a darn is feasible (R148). -/
def State.darnFeasible (s : State) (r : DieRead) : Bool :=
  decide (s.rd.darns.length < 126) &&
  (s.darnColumns r).all (fun c =>
    let x := s.die (s.dieOf (boltGroup r.bolt) c)
    !x.failed && !x.recovering && decide (s.progLeft x ≤ s.rd.threshUs))

/-- Whether overdraft admits a further mandatory darn in the half (R153). -/
def State.overdraftAdmits (s : State) (r : DieRead) : Bool :=
  let g := boltGroup r.bolt
  !(s.degraded g && ((s.bucket g).inOver || decide ((s.bucket g).level < 0))) ||
    decide ((s.rd.darns.filter (fun n => decide (n.group = g ∧ n.target.column / 16 = r.column / 16))).length < 4)

/-! Running a darn (R149). -/

/-- Notes on its host Read that it has darned (R492). -/
def State.noteDarned (s : State) (r : DieRead) : State :=
  match s.readCmd r.cmd with
  | none => s
  | some q =>
    if r.cls = .internal then s
    else s.updFn q.fn (fun x => { x with granted := x.granted.map (fun o =>
      if o.sqid = q.sqid ∧ o.cid = q.cid then { o with darned := true } else o) })

/-- A darn has every payload: its sectors go on, and a recovery darn after a decode failure queues an urgent refresh
(R149, R161, R184). -/
def State.darnDone (s : State) (n : Darn) : State :=
  let s := { s with rd.darns := s.rd.darns.filter (fun q => decide (q.id ≠ n.id)) }
  let rec_ := decide (n.kind = .recovery)
  let s : State := if rec_ && !n.forTag then s.queueRefresh n.target.bolt true else s
  n.target.sectors.foldl (fun s o => s.deliver (dieOfKey n.die) n.target o rec_ (rec_ && n.forTag) false) s

/-- The component reads of a darn queued at their dies, which come with the state; one with none to read is done (R149). -/
def State.startDarn (s : State) (n : Darn) : State × List DieId :=
  let r := n.target
  let cols := s.darnReads r
  let n := { n with id := s.rd.nextDarn, todo := cols.length * r.sectors.length, unissued := cols.length }
  let s := { s with rd.nextDarn := s.rd.nextDarn + 1, rd.darns := s.rd.darns ++ [n] }
  if cols = [] then (s.darnDone n, [])
  else
    let s := cols.foldl (fun s c =>
      let (op, s) := s.newOp
      s.enqRead (s.dieOf n.group c) { r with id := op, cls := .component, darn := n.id, column := c, step := 1, tries := 0,
                                             unit := s.unitOf r.bolt c, darnTried := false, base := 0, progWait := false }) s
    (s, cols.map (s.dieOf n.group))

/-- A darn launched: the budget charged, the component reads queued at their dies (R149). The dies come with it. -/
def State.launchDarn (s : State) (d : DieId) (r : DieRead) (kind : DarnKind) (forTag : Bool) : State × List DieId :=
  let g := boltGroup r.bolt
  let s := s.chargeDarn g (s.darnCost r) r.tenant
  let s := { s with rd.darnSec := Tab.bump s.rd.darnSec g 1,
                    mem.darnSlotLow := min s.mem.darnSlotLow (126 - (s.rd.darns.length + 1)) }
  let s := (s.c4 r.tenant (match kind with | .optional => 3 | .mandatory => 4 | .recovery => 5) 1).noteDarned r
  s.startDarn ⟨0, kind, r, dieKey d, 0, 0, g, forTag⟩

/-- A mandatory or recovery darn started, made to wait, or found impossible (R148, R153, R159, R160). -/
def State.mustDarn (s : State) (d : DieId) (r : DieRead) (kind : DarnKind) (forTag : Bool) : State × List DieId :=
  if s.unreconstructable r then
    (r.sectors.foldl (fun s o => s.undeliver r o (if forTag then nvAuthFailed else nvUnrecovered)) s, [])
  else if s.darnFeasible r && s.overdraftAdmits r then s.launchDarn d r kind forTag
  else
    ({ s with rd.queuedDarns := s.rd.queuedDarns ++ [⟨0, kind, r, dieKey d, 0, 0, boltGroup r.bolt, forTag⟩] }, [])

/-- A read withdrawn from its die's queue (R149). -/
def State.withdraw (s : State) (d : DieId) (r : DieRead) : State :=
  s.updDie d (fun x => { x with reads := x.reads.filter (fun q =>
    !decide (q.id = r.id ∧ q.darn = r.darn ∧ q.sectors = r.sectors)) })

/-- The decision of R147 for one waiting read. -/
def State.decideDarn (s : State) (d : DieId) (r : DieRead) : State × List DieId :=
  match s.darnCondition d r with
  | none => (s, [])
  | some .optional =>
    if !s.darnFeasible r then (s.c4 r.tenant 7 1, [])
    else if !s.budgetAdmits (boltGroup r.bolt) (s.darnCost r) r.tenant then (s.c4 r.tenant 6 1, [])
    else (s.withdraw d r).launchDarn d r .optional false
  | some k => (s.withdraw d r).mustDarn d r k false

/-- The decisions of R147 for the reads that wait at a die: those not decided since the last change of the die, and all of them
where the die is lost, in recovery or in adoption. -/
def State.decideAll (s : State) (d : DieId) : State × List DieId :=
  let x := s.die d
  let lost := x.failed || x.recovering || s.adopting d
  let rs := x.reads.filter (fun r => lost || !r.decided)
  let s := s.updDie d (fun x => { x with reads := x.reads.map (fun r => { r with decided := true }) })
  rs.foldl (fun p r =>
    let (s, ds) := p.1.decideDarn d r
    (s, p.2 ++ ds)) (s, [])

/-- A die whose state or queue has changed: it starts what is due, and the reads that wait there and are to be decided are
(R141, R147); the dies of a darn's components follow. -/
def State.settleDie (n : Nat) (s : State) (d : DieId) : State :=
  match n with
  | 0 => s.kick d
  | n + 1 =>
    let (s, ds) := (s.kick d).decideAll d
    ds.foldl (State.settleDie n) s

/-- A die looked at again, with the dies its darns reach. -/
def State.settle (s : State) (d : DieId) : State := State.settleDie 2 s d

/-- The waiting mandatory and recovery darns tried again, in latest-start order (R148, R153). -/
def State.retryDarns (s : State) : State :=
  let ns := sortOn (fun a b => decide (a.target.lst ≤ b.target.lst)) s.rd.queuedDarns
  ns.foldl (fun s n =>
    let (s, ds) := s.mustDarn (dieOfKey n.die) n.target n.kind n.forTag
    ds.foldl State.settle s) { s with rd.queuedDarns := [] }

/-- A read brought to the bobbin of its die: decided, and queued if it waits (R147). -/
def State.submitRead (s : State) (d : DieId) (r : DieRead) : State := (s.enqRead d r).settle d

/-- A program brought to a die. -/
def State.submitProg (s : State) (d : DieId) (p : ProgOp) : State := (s.enqProg d p).settle d

/-- An erase brought to a die. -/
def State.submitErase (s : State) (d : DieId) (e : EraseRun) : State := (s.enqErase d e).settle d

/-- Whether the ladder of a codeword of a sub-read is still under way somewhere. -/
def State.readAlive (s : State) (id o : Nat) : Bool :=
  let q : DieRead → Bool := fun r => decide (r.id = id ∧ r.cls ≠ .component) && r.sectors.contains o
  s.dies.table.any (fun p => p.2.reads.any q || p.2.reading.any q) || s.rd.decodes.any (fun p => q p.2) ||
    s.rd.ldpc.any (fun p => q p.2.2)

/-- Whether a darn of a codeword of a sub-read is under way or waits. -/
def State.darnAlive (s : State) (id o : Nat) : Bool :=
  let q : Darn → Bool := fun n => decide (n.target.id = id) && n.target.sectors.contains o
  s.rd.darns.any q || s.rd.queuedDarns.any q

/-- A darn that cannot be completed (R149, R158-R160). -/
def State.darnFailed (s : State) (n : Darn) : State :=
  let s := { s with rd.darns := s.rd.darns.filter (fun q => decide (q.id ≠ n.id)) }
  let d := dieOfKey n.die
  match n.kind with
  | .optional => (s.putBack d n.target).settle d
  | k => n.target.sectors.foldl (fun s o =>
      if k = .recovery ∧ !n.forTag ∧ s.readAlive n.target.id o then s
      else s.undeliver n.target o (if n.forTag then nvAuthFailed else nvUnrecovered)) s

/-! Array reads, data-outs and decodes (R31, R155-R161). -/

/-- A die's array read has ended: the data-out of each codeword is requested (R223, R224). -/
def State.arrayDone (s : State) (d : DieId) : State :=
  (s.updDie d (fun x => { x with dataOut := true, opEndUs := s.now })).busRaise d .high .dataOut

/-- The waiting codeword of a kind with the earliest latest start time, ties in arrival order (R155). -/
def earliestCodeword (soft : Bool) (ws : List (Nat × DieRead)) : Option (Nat × DieRead) :=
  match earliestRead ((ws.map (·.2)).filter (fun r => decide (3 ≤ r.step) == soft)) with
  | none => none
  | some r => ws.find? (fun p => decide (p.2 = r))

/-- Gives a free lane of a kind, one of 64 hard or of 16 soft lanes, to the earliest waiting codeword of that kind (R18, R155,
R156). -/
def State.ldpcOne (s : State) (soft : Bool) : State :=
  let used := s.rd.ldpc.map (·.1)
  match (if soft then lowestFree used 64 16 else lowestFree used 0 64), earliestCodeword soft s.rd.decodes with
  | some lane, some w => { s with rd.ldpc := Tab.set s.rd.ldpc lane w, rd.decodes := s.rd.decodes.erase w }
  | _, _ => s

/-- A codeword of a die put before the decode lanes with the latest start time of its stage; it takes a lane at once where one is
free (R26, R155). -/
def State.toDecode (s : State) (d : DieId) (r : DieRead) : State :=
  let lst := match s.readCmd r.cmd with
    | some q => if r.cls = .internal ∨ r.src ≠ 256 then r.lst else s.readLst .decode 1 q
    | none => r.lst
  let r := { r with lst := lst }
  ({ s with rd.decodes := s.rd.decodes ++ [(dieKey d, r)] } : State).ldpcOne (decide (3 ≤ r.step))

/-- The data-out of one codeword has ended: the codeword goes to a decode lane, and a die with none left is free
(R141, R155). -/
def State.dataOutEnd (s : State) (d : DieId) : State :=
  let x := s.die d
  match x.reading with
  | [] => s
  | r :: rest =>
    match r.sectors with
    | [] => (s.setDie d { x with reading := rest }).settle d
    | o :: os =>
      let s := s.toDecode d { r with sectors := [o] }
      let s : State := match Tab.find s.rd.corr r.id with
        | some _ => s
        | none => { s with rd.corr := Tab.set s.rd.corr r.id (r.sectors.length, 0) }
      let rest := if os = [] then rest else { r with sectors := os } :: rest
      let x := s.die d
      if rest = [] then
        (s.setDie d { x with reading := [], dataOut := false, ledger := .idle }).settle d
      else (s.setDie d { x with reading := rest }).busRaise d .high .dataOut

/-- The highest number of retry steps a read takes (R156). -/
def State.maxRetries (s : State) (r : DieRead) (optional : Bool) : Nat :=
  if r.cls = .latency ∨ optional then 2 else s.dp.retries

/-- The next step of the ladder after a failed decode, as step and retries (R156). -/
def State.nextStep (s : State) (r : DieRead) (optional : Bool) : Option (Nat × Nat) :=
  if r.step ≤ 2 ∧ r.tries < s.maxRetries r optional then some (2, r.tries + 1)
  else if optional then none
  else if r.step ≤ 2 then some (3, r.tries)
  else if r.step = 3 then some (4, r.tries)
  else none

/-- The retry entry that a sub-read used: its ladder's steps begin at the entry that was stored at the first of them and wrap
around, skipping entry 0 (R157). -/
def State.retryEntry (s : State) (r : DieRead) : Nat := (r.base - 1 + (r.tries - 1)) % max 1 s.dp.retries + 1

/-- The evidence of a successful decode for the refresh rule (R161, R184). -/
def State.evidence (s : State) (r : DieRead) (bits : Nat) : State :=
  if 3 ≤ r.step then s.queueRefresh r.bolt true
  else if s.recl.refreshBits ≤ bits ∨ r.step = 2 then s.queueRefresh r.bolt false
  else s

/-- The histogram sample of the highest corrected-bit count of a sub-read, taken when its last codeword is decoded
(R492). -/
def State.corrSample (s : State) (d : DieId) (r : DieRead) (bits : Nat) : State :=
  match Tab.find s.rd.corr r.id with
  | none => s
  | some (n, m) =>
    if n ≤ 1 then
      ({ s with rd.corr := Tab.del s.rd.corr r.id } : State).pbSample none (160 + s.groupOf d) (bucketC 4 (max m bits))
    else { s with rd.corr := Tab.set s.rd.corr r.id (n - 1, max m bits) }

/-- One payload of a darn has arrived (R149). -/
def State.darnPayload (s : State) (n : Darn) : State :=
  let n := { n with todo := n.todo - 1 }
  let s := { s with rd.darns := s.rd.darns.map (fun q => if q.id = n.id then n else q) }
  if n.todo = 0 then s.darnDone n else s

/-- A codeword has been decoded with `bits` corrected bits (R155, R161). -/
def State.decodeOk (s : State) (d : DieId) (r : DieRead) (o bits : Nat) : State :=
  let s := (s.corrSample d r bits).evidence r bits
  let s := s.meter r.tenant 2 1
  let s : State := if r.step = 2 then
      let e := s.retryEntry r
      s.updDie d (fun x => { x with retry := Tab.set x.retry r.unit e })
    else s
  if r.darn ≠ 0 then
    match s.rd.darns.find? (fun n => decide (n.id = r.darn)) with
    | none => s
    | some n => s.darnPayload n
  else
    let s : State := if r.src = 256 then s else
      { s with eng.reqs := s.eng.reqs.map (fun (q : Req) => if q.op = r.id then { q with bits := max q.bits bits } else q) }
    s.deliver d r o false false (decide (bits ≠ 0 ∨ 3 ≤ r.step))

/-- The next ladder step of a codeword queued at its die; the first retry fixes where the retries begin (R156, R157). -/
def State.stepOn (s : State) (d : DieId) (r : DieRead) (p : Nat × Nat) : State :=
  let base := if r.base = 0 then max 1 (Tab.get 0 (s.die d).retry r.unit) else r.base
  s.submitRead d { r with step := p.1, tries := p.2, base := base }

/-- A codeword has failed to decode (R156, R158, R159). -/
def State.decodeFail (s : State) (d : DieId) (r : DieRead) (o : Nat) : State :=
  if r.darn ≠ 0 then
    match s.rd.darns.find? (fun n => decide (n.id = r.darn)) with
    | none => s
    | some n => match s.nextStep r (decide (n.kind = .optional)) with
      | some p => s.stepOn d r p
      | none => s.darnFailed n
  else if !s.wanted r o then s
  else match s.nextStep r false with
    | some p =>
      if r.cls = .latency ∧ r.step = 1 ∧ !r.darnTried ∧ s.darnFeasible r ∧ !s.unreconstructable r ∧
          s.overdraftAdmits r ∧ ((s.darnCost r * 10 ^ 9 : Nat) : Int) ≤ (s.bucket (boltGroup r.bolt)).level then
        let r := { r with darnTried := true }
        let (s, ds) := s.launchDarn d r .recovery false
        (ds.foldl State.settle s).stepOn d r p
      else s.stepOn d r p
    | none =>
      if r.darnTried then
        if s.darnAlive r.id o then s else s.undeliver r o nvUnrecovered
      else
        let (s, ds) := s.mustDarn d { r with darnTried := true } .recovery false
        ds.foldl State.settle s

/-- The lane that decodes a codeword of a sub-read, hard or soft, if any. -/
def State.laneOf (s : State) (opId : Nat) (soft : Bool) : Option (Nat × (Nat × DieRead)) :=
  s.rd.ldpc.find? (fun p => decide (p.2.2.id = opId) && (decide (64 ≤ p.1) == soft))

/-- A decode lane reports on its codeword of a sub-read, and takes the next one (R155). -/
def State.decodeDone (s : State) (opId : Nat) (corrected : Option Nat) (soft : Bool) : State :=
  match s.laneOf opId soft with
  | none => s
  | some (lane, (k, r)) =>
    let s := ({ s with rd.ldpc := Tab.del s.rd.ldpc lane } : State).ldpcOne soft
    let s : State := if 3 ≤ r.step then s.c4 r.tenant 12 1 else s
    let o := r.sectors.headD 0
    match corrected with
    | some bits => s.decodeOk (dieOfKey k) r o bits
    | none => s.decodeFail (dieOfKey k) r o

/-- A lane has decrypted a sector of a read: the tag passes, or the recovery of R160 and then R319 follow. -/
def State.laneRead (s : State) (j : SeamJob) (tagOk : Bool) : State :=
  let fromNand := decide (j.die ≠ 1024)
  if !s.keyReadable j.payload.keySlot j.payload.keyGen then s.sectorFail j.cmd j.sector nvAccessDenied none
  else if tagOk then
    let s : State := if j.forTag then s.queueRefresh j.src.bolt true else s
    s.sectorOk j.cmd j.sector j.payload fromNand j.viaDarn j.forTag
  else if fromNand ∧ j.fixed ∧ !j.viaDarn then
    let (s, ds) := s.mustDarn (dieOfKey j.die) j.src .recovery true
    ds.foldl State.settle s
  else s.sectorFail j.cmd j.sector nvAuthFailed none

/-! Serving a host Read (R138, R139). -/

/-- The zone size of the drive's die type. -/
def State.zsize (s : State) : Nat := s.dp.zoneSize

/-- Zone `z` of a tenant; one never used is Empty at generation 1 (R83). -/
def Tenant.zone (t : Tenant) (z : Nat) : Zone := Tab.get { (default : Zone) with st := .zse, gen := t.zoneGen } t.zones z

/-- NSZE of a tenant's namespace (R94). -/
def State.nsze (s : State) (t : Tenant) (nsid : Nat) : Nat :=
  if nsid = 1 then t.quota * s.zsize else t.conv * s.dp.zoneCap

/-- Where one sector of a read comes from (R138). -/
inductive Source where
  | unwritten
  | offline
  | denied
  | buffer (x : Sealed)
  | swatch (x : Sealed)
  | nand (bolt off : Nat)

/-- The source of an LBA of NSID 1 (R138, R139, R325). -/
def State.zoneSource (s : State) (slot : Nat) (t : Tenant) (lba : Nat) : Source :=
  let z := t.zone (lba / s.zsize)
  let off := lba % s.zsize
  let key := secKey slot 1 lba
  if z.st = .zso then .offline
  else if z.st = .zse ∨ s.dp.zoneCap ≤ off ∨ z.rp ≤ off then .unwritten
  else match z.bolt with
    | none => match Tab.find s.wr.swatches key with
      | some x => .swatch x
      | none => .unwritten
    | some b =>
      if s.cipher && (match z.keySlot with | none => false | some k => !s.keyReadable (slot * 2 + k) z.keyGen) then .denied
      else match Tab.find s.wr.staging key with
        | some x => .buffer x
        | none => match Tab.find s.wr.swatches key with
          | some x => .swatch x
          | none => match Tab.find s.dies.nand (nandKey b off) with
            | some _ => .nand b off
            | none => .unwritten

/-- The source of an LBA of NSID 2 (R87, R138). -/
def State.convSource (s : State) (slot : Nat) (t : Tenant) (lba : Nat) : Source :=
  let key := secKey slot 2 lba
  match Tab.find s.wr.staging key with
  | some x => .buffer x
  | none => match Tab.find s.wr.swatches key with
    | some x => .swatch x
    | none => match Tab.find s.wr.convMap key with
      | some p => .nand (p / 2 ^ 20) (p % 2 ^ 20)
      | none => match t.regions.find? (fun r => decide (r.x = lba / s.dp.zoneCap)) with
        | none => .unwritten
        | some r =>
          let off := lba % s.dp.zoneCap
          match Tab.find s.dies.nand (nandKey r.bolt off) with
          | some _ => .nand r.bolt off
          | none => .unwritten

/-- The source of an LBA. -/
def State.sourceOf (s : State) (slot nsid lba : Nat) : Source :=
  let t := s.tenantD slot
  if nsid = 1 then s.zoneSource slot t lba else s.convSource slot t lba

/-- The sub-reads of a list of sectors on NAND: one for each page (R140). -/
def State.groupPages (s : State) : List (Nat × Nat) → List (Nat × ((Nat × (Nat × (Nat × Nat))) × List Nat))
  | [] => []
  | (b, o) :: r =>
    let gs := s.groupPages r
    let k := s.pageOf b o
    match gs.find? (fun g => decide (g.1 = b ∧ g.2.1 = k)) with
    | some _ => gs.map (fun g => if g.1 = b ∧ g.2.1 = k then (g.1, (g.2.1, o :: g.2.2)) else g)
    | none => (b, (k, [o])) :: gs

/-- One sub-read brought to its bobbin. -/
def State.subRead (s : State) (cls : ReadClass) (cmd tenant lst : Nat) (urgent : Bool) (b : Nat)
    (page : Nat × (Nat × (Nat × Nat))) (sectors : List Nat) : State :=
  let (op, s) := s.newOp
  s.submitRead (s.dieOf (boltGroup b) page.1)
    { (default : DieRead) with
      id := op
      cls := cls
      serves := cls
      cmd := cmd
      bolt := b
      column := page.1
      row := page.2.1
      plane := page.2.2.1
      page := page.2.2.2
      sectors := sectors
      unit := s.unitOf b page.1
      lst := lst
      step := 1
      waited2ms := urgent
      src := 256
      tenant := tenant }

/-- The read resolves its sources at its Tack check, pins them, and its sub-reads start (R110, R138). -/
def State.resolveRead (s : State) (id : Nat) : State :=
  match s.readCmd id with
  | none => s
  | some r =>
    let srcs := (List.range r.res.length).map (fun i => s.sourceOf r.tenant r.nsid (r.lba + i))
    let nand := srcs.filterMap (fun x => match x with | .nand b o => some (b, o) | _ => none)
    let places := srcs.map (fun x => match x with | .nand b o => nandKey b o | _ => 0)
    let pins := (nand.map (·.1)).eraseDups
    let swPins := (srcs.zipIdx).filterMap (fun p => match p.1 with
      | .swatch x => some (secKey r.tenant r.nsid (r.lba + p.2), x.gen)
      | _ => none)
    let r := { r with src := places, pins := pins, swPins := swPins, waitFor := [] }
    let s := { s with rd.reads := s.rd.reads.map (fun q => if q.id = id then r else q) }
    let s := (pins.foldl State.pin s).pinSwatches swPins
    if srcs.any (fun x => match x with | .offline => true | _ => false) then
      s.finishRead { r with res := r.res.map (fun _ => .failed nvZoneOffline) }
    else
      let parts := s.groupPages nand
      let k := parts.foldl (fun n g => max n g.2.2.length) 0
      let s := parts.foldl (fun s g => s.subRead r.cls r.id r.tenant (s.readLst .die k r) false g.1 g.2.1 g.2.2) s
      (srcs.zipIdx).foldl (fun s p => match p.1 with
        | .unwritten => (s.c4 r.tenant 2 1).setRes id p.2 .unwritten
        | .denied => s.sectorFail id p.2 nvAccessDenied none
        | .buffer x => s.toHost r p.2 x false false false false 1024 default
        | .swatch x => s.toHost r p.2 x false false false false 1024 default
        | _ => s) s

/-- Tack entries released: reads that waited for them go on when none is left (R32, R110). -/
def State.releaseReads (s : State) (entries : List Nat) : State :=
  let hit := s.rd.reads.filter (fun r => meets r.waitFor entries)
  let s := { s with rd.reads := s.rd.reads.map (fun r =>
    { r with waitFor := r.waitFor.filter (fun e => !entries.contains e) }) }
  hit.foldl (fun s r =>
    if r.waitFor.all entries.contains then s.resolveRead r.id else s) s

/-- The commit-pending entries that a read overlaps at its Tack check (R110). -/
def State.overlapping (s : State) (slot nsid lba n : Nat) : List Nat :=
  (s.wr.tack.filter (fun e => decide (e.tenant = slot ∧ e.nsid = nsid ∧ e.kind = .range ∧ e.lo < lba + n ∧ lba < e.hi))).map
    (·.id)

/-- A host Read past its checks: its Tack check, and its sources or its wait (R32, R139). -/
def State.startHostRead (s : State) (fn : FnId) (sqid cid slot nsid lba n : Nat) (cls : ReadClass) (buf : Nat) :
    State :=
  let id := s.dies.nextRead
  let waits := s.overlapping slot nsid lba n
  let r : Rd := { id := id, fn := fn, sqid := sqid, cid := cid, tenant := slot, nsid := nsid, lba := lba, cls := cls,
                  res := List.replicate n .pending, src := List.replicate n 0, waitFor := waits, buf := buf, pins := [], swPins := [] }
  let s := { s with dies.nextRead := id + 1, rd.reads := s.rd.reads ++ [r] }
  if waits = [] then s.resolveRead id else s

end Sys2Proof.Machine
end

