-- ==== Sys2Proof/Machine/WritePath.lean ====
section
/-! DEFINITION. The write path: the Tack table (R108-R111), reservation and binding (R92, R107, R118), swatches (R112-R116),
staging (R134, R135), commits (R119, R123), chunks, parity and spills (R124, R126, R127, R131, R132), zone states (R120-R122,
R561). -/

namespace Sys2Proof.Machine

/-! Writing commands and the Tack table (R108-R111). -/

/-- A write in flight by arrival sequence. -/
def State.write (s : State) (id : Nat) : Option Wr := s.wr.writes.find? (fun w => decide (w.id = id))

/-- The state with a write in flight changed. -/
def State.updWrite (s : State) (id : Nat) (f : Wr → Wr) : State :=
  { s with wr.writes := s.wr.writes.map (fun w => if w.id = id then f w else w) }

/-- The state without a write in flight. -/
def State.dropWrite (s : State) (id : Nat) : State :=
  { s with wr.writes := s.wr.writes.filter (fun w => decide (w.id ≠ id)) }

/-- Tack entries that a tenant holds. -/
def State.tackHeld (s : State) (slot : Nat) : Nat := (s.wr.tack.filter (fun e => decide (e.tenant = slot))).length

/-- Shared Tack entries in use: what each tenant holds beyond its 8 (R111). -/
def State.tackShared (s : State) : Nat := s.host.tenants.foldl (fun n p => n + (s.tackHeld p.1 - 8)) 0

/-- Whether a tenant can claim a Tack entry at once (R111). -/
def State.canClaim (s : State) (slot : Nat) : Bool :=
  decide (s.tackHeld slot < 8 ∨
    (s.tackHeld slot < 2048 ∧ s.tackShared + 8 * s.host.tenants.length < 16384))

/-- The zones an LBA range touches meet. -/
def sameZone (zs : Nat) (a b : Tack) : Bool := decide (a.lo / zs ≤ (b.hi - 1) / zs ∧ b.lo / zs ≤ (a.hi - 1) / zs)

/-- The conflict table of R109 for a later entry and an earlier one. -/
def tackConflict (zs : Nat) (later earlier : Tack) : Bool :=
  decide (later.tenant = earlier.tenant ∧ later.nsid = earlier.nsid) &&
    match later.kind, earlier.kind with
    | .range, .range => decide (later.lo < earlier.hi ∧ earlier.lo < later.hi)
    | .range, .append => false
    | .append, .range => false
    | .append, .append => false
    | .range, .zone => sameZone zs later earlier
    | .append, .zone => sameZone zs later earlier
    | .zone, _ => sameZone zs later earlier

/-- Whether an entry is held back by an earlier one (R109). -/
def State.tackBlocked (s : State) (id : Nat) : Bool :=
  match s.wr.tack.find? (fun e => decide (e.id = id)) with
  | none => false
  | some e => s.wr.tack.any (fun x => decide (x.id < id) && tackConflict (max 1 s.zsize) e x)

/-- The Tack entry of a Zone Management Send on its claim: its zone, or every zone of the tenant (R108). -/
def State.sendClaim (s : State) (x : ZSend) : Tack :=
  let zs := max 1 s.zsize
  ⟨x.id, x.tenant, 1, .zone, if x.all then 0 else x.slba,
    if x.all then (s.tenantD x.tenant).quota * zs else x.slba + zs⟩

/-- The Tack entry of a write on its claim (R108). -/
def State.claimOf (s : State) (w : Wr) : Tack :=
  match w.kind with
  | .append => ⟨w.id, w.tenant, w.nsid, .append, w.lba, w.lba + s.zsize⟩
  | _ => ⟨w.id, w.tenant, w.nsid, .range, w.lba, w.lba + w.len⟩

/-- A Tack entry claimed. -/
def State.claim (s : State) (e : Tack) : State := { s with wr.tack := s.wr.tack ++ [e] }

/-- A Tack entry released: reads that waited for it go on (R32). -/
def State.releaseTack (s : State) (id : Nat) : State :=
  ({ s with wr.tack := s.wr.tack.filter (fun e => decide (e.id ≠ id)) } : State).releaseReads [id]

/-! Zones. -/

/-- The state with a zone of a tenant changed. -/
def State.updZone (s : State) (slot z : Nat) (f : Zone → Zone) : State :=
  s.updTenant slot (fun t => { t with zones := Tab.set t.zones z (f (t.zone z)) })

/-- Whether a zone state counts as active (R120). -/
def ZoneSt.active : ZoneSt → Bool
  | .zsio => true
  | .zseo => true
  | .zsc => true
  | _ => false

/-- A tenant's active count (R120). -/
def Tenant.activeCount (t : Tenant) : Nat := (t.zones.filter (fun p => p.2.st.active)).length

/-- A zone added to the Changed Zone List, with its event (R120). -/
def State.zoneChanged (s : State) (slot z : Nat) : State :=
  let s := s.updTenant slot (fun t => { t with zoneList := addOnce t.zoneList z })
  match (s.tenantD slot).fn with
  | none => s
  | some f => s.notice f 27 0xEF 0xBF

/-! Binding (R91, R92). -/

/-- The live placement handle of a tenant by index. -/
def Tenant.placement (t : Tenant) (i : Nat) : Option Placement := t.placements.find? (fun p => decide (p.index = i))

/-- The groups a placement handle names: handle 0 names the whole set (R90). -/
def Tenant.placementGroups (t : Tenant) (i : Nat) : List Nat :=
  if i = 0 then t.groups else match t.placement i with | none => [] | some p => p.mask

/-- Groups in rotation after the last one bound (R92). -/
def rotated (gs : List Nat) (last : Nat) : List Nat :=
  let xs := sortOn (· ≤ ·) gs
  xs.filter (fun g => decide (last < g)) ++ xs.filter (fun g => decide (g ≤ last))

/-- The rotation of a placement handle; one never used starts at group 0. -/
def State.rotation (s : State) (slot idx : Nat) (gs : List Nat) : List Nat :=
  match Tab.find s.bolts.rr (slot * 64 + idx) with
  | none => sortOn (· ≤ ·) gs
  | some l => rotated gs l

/-- Groups of a list in which a tenant's usage is below its reservation: its zones below theirs, and all its bolts below the two
amounts together (R89, R92). -/
def State.withRoom (s : State) (slot : Nat) (t : Tenant) (gs : List Nat) : List Nat :=
  gs.filter (fun g => decide (s.zoneUse slot g < shareOf t.groups t.quota g ∧ s.heldIn slot g < reservedBy t g))

/-- Candidate groups without the degraded ones, where any other is left (R127). -/
def State.avoidDegraded (s : State) (gs : List Nat) : List Nat :=
  let whole := gs.filter (fun g => !s.degraded g)
  if whole = [] then gs else whole

/-- The candidate groups of a binding, in order, and whether it falls back on the rest of the set (R92, R127). -/
def State.candidates (s : State) (slot idx : Nat) (mask : List Nat) : List Nat × Bool :=
  let t := s.tenantD slot
  let own := s.withRoom slot t (s.rotation slot idx (mask.filter t.groups.contains))
  if own = [] then
    (s.avoidDegraded (s.withRoom slot t (s.rotation slot idx (t.groups.filter (fun g => !mask.contains g)))), true)
  else (s.avoidDegraded own, false)

/-- The group and bolt a binding takes now, if any candidate group holds an ERASED bolt (R92). -/
def State.chooseBolt (s : State) (cands : List Nat) : Option (Nat × Nat) :=
  cands.findSome? (fun g => (s.pickErased g).map (fun b => (g, b)))

/-- A bolt bound to a zone under a placement handle: a binding on the rest of the set is counted under the handle while it exists
(R82, R91, R92, R166). -/
def State.bindTo (s : State) (slot z idx g b : Nat) (fallback : Bool) : State :=
  let fallback := fallback && decide (((s.tenantD slot).zone z).handleGen = s.gen 3 (slot * 64 + idx))
  let s := s.updBolt b (fun x => { x with st := .bound, use := .zone slot z, closed := false })
  let s := { s with bolts.rr := Tab.set s.bolts.rr (slot * 64 + idx) g }
  let s := s.updZone slot z (fun x => { x with bolt := some b })
  let s : State := if fallback then
      s.updTenant slot (fun t => { t with placements := t.placements.map (fun p =>
        if p.index = idx then { p with fallback := min (p.fallback + 1) (2 ^ 32 - 1) } else p) })
    else s
  s.updFgErase g

/-! Completing a write. -/

/-- A writing command completes with an error (R118, R250). -/
def State.wrFail (s : State) (w : Wr) (status : Nat) (dnr : Bool) : State :=
  let s : State := if status = nvAccessDenied then s.c8 w.tenant 1 else s
  s.complete w.fn { sqid := w.sqid, cid := w.cid, status := status, dnr := dnr, nsid := BitVec.ofNat 32 w.nsid, lba := w.lba }

/-- CONV_SECTORS of a key slot changed by `n`, while the slot still has the generation counted for (R323). -/
def State.addConv (s : State) (slot keySlot keyGen : Nat) (n : Int) : State :=
  if s.gen 4 keySlot = keyGen then
    s.updTenant slot (fun t =>
      let x := t.key (keySlot % 2)
      { t with keys := t.keys.set (keySlot % 2) { x with conv := ((x.conv : Int) + n).toNat } })
  else s

/-- The reservation of a write in its zone withdrawn: the pointer returns, a zone opened implicitly returns to its earlier
state, and a binding that it made is undone (R107). -/
def State.withdrawReservation (s : State) (w : Wr) : State :=
  if w.nsid ≠ 1 then s
  else
    let z := w.lba / s.zsize
    let x := (s.tenantD w.tenant).zone z
    let first := decide (w.lba % s.zsize = 0)
    let s : State := match first, x.bolt with
      | true, some b =>
        (s.updBolt b (fun y => { y with st := .erased, use := .none })).updFgErase (boltGroup b)
      | _, _ => s
    let s : State := { s with bolts.bindWait := s.bolts.bindWait.filter (· ≠ w.id) }
    s.updZone w.tenant z (fun x => { x with
      rp := w.lba % s.zsize
      st := match w.opened with | none => x.st | some st => st
      bolt := if first then none else x.bolt
      keySlot := if first then none else x.keySlot })

/-- Everything a write past its reservation holds, but for the reservation itself, given back: swatches, staging space,
drains, lane jobs and references (R115, R251). -/
def State.releaseWrite (s : State) (w : Wr) : State :=
  let s := s.returnSwatches w.tenant w.len
  let s : State := if w.staged then { s with wr.stagingUsed := s.wr.stagingUsed - w.len } else s
  let s : State := if w.nsid = 2 then s.addConv w.tenant w.keySlot w.keyGen (-(w.len : Int)) else s
  { s with
    mem.drains := s.mem.drains.map (fun p => (p.1, p.2.filter (fun d => decide (d.wr ≠ w.id))))
    rd.seamQ := s.rd.seamQ.filter (fun j => j.isRead || decide (j.cmd ≠ w.id))
    rd.lanes := s.rd.lanes.filter (fun p => p.2.isRead || decide (p.2.cmd ≠ w.id)) }

/-! Exposed data and programs (R124, R126-R128). -/

/-- Committed sectors cease to be exposed (R124). -/
def State.unexpose (s : State) (keys : List (Nat × Nat)) : State :=
  { s with wr.expo := s.wr.expo.filter (fun e => !keys.contains e) }

/-- Sectors of staged writes have become durable, or are dropped: a write's staging space is given back, and its commit record
leaves the journal, with the last of them (R135, R561). -/
def State.unstage (s : State) (gone : Nat × Nat → Bool) : State :=
  let held := s.wr.stagedHeld.map (fun e => { e with left := e.left.filter (fun k => !gone k) })
  let done := held.filter (fun e => e.left.isEmpty)
  { s with wr.stagedHeld := held.filter (fun e => !e.left.isEmpty)
           wr.stagingUsed := s.wr.stagingUsed - done.foldl (fun n e => n + e.space) 0
           wr.records := s.wr.records.filter (fun r => !done.any (fun e => decide (e.id = r.wr))) }

/-- Whether a bolt is the source of a running relocation (R184). -/
def State.relocating (s : State) (b : Nat) : Bool :=
  s.recl.items.any (fun i => i.running && decide (i.bolt = b) &&
    (match i.kind with | .merge _ _ _ => false | .rebuild _ _ _ => false | _ => true))

/-- Whether a column of a bolt is being rebuilt from row `r` on, so that its later programs wait (R190). -/
def State.rebuilding (s : State) (b c : Nat) : Bool :=
  s.recl.items.any (fun i => decide (i.bolt = b) &&
    (match i.kind with | .rebuild col _ _ => decide (col = c) | _ => false))

/-- The bytes programmed counted for a tenant: its yardage, log 22h and exposed extreme (R97, R500). -/
def State.mediaWritten (s : State) (slot n : Nat) : State :=
  (s.meter slot 3 n).updTenant slot (fun t => { t with fdp := bumpAt t.fdp 1 (n * 4096) })

/-- A new accumulator half for a row (R126). -/
def State.accumFor (s : State) (b h row : Nat) : Accum :=
  (s.wr.accums.find? (fun a => decide (a.bolt = b ∧ a.half = h))).getD ⟨b, h, row, [], [], false⟩

/-- The state with an accumulator half replaced. -/
def State.setAccum (s : State) (a : Accum) : State :=
  { s with wr.accums := a :: s.wr.accums.filter (fun x => !decide (x.bolt = a.bolt ∧ x.half = a.half)) }

/-- The state without an accumulator half. -/
def State.clearAccum (s : State) (b h : Nat) : State :=
  { s with wr.accums := s.wr.accums.filter (fun x => !decide (x.bolt = b ∧ x.half = h)) }

/-- Restored sectors that have a durable copy elsewhere, or are dropped; after the last, the emergency set that holds them is
released for its erase (R427). -/
def State.restoredDone (s : State) (keys : List Nat) : State :=
  if s.supply.restored.isEmpty then s
  else
    let s := { s with supply.restored := s.supply.restored.filter (fun k => !keys.contains k) }
    if s.supply.restored.isEmpty then
      s.presentGroups.foldl (fun s g => [4, 5].foldl (fun s i =>
        if (s.bolt (boltNo g i)).st = .bound then s.releaseBolt (boltNo g i) else s) s) s
    else s

/-- What a program's pass makes of its sectors: those still in swatches lie on NAND, are no longer exposed and have their swatches
freed by an owner; conventional map entries that still name the swatch name the log copy (R115, R124, R131). -/
def State.settleSectors (s : State) (owner : SwOwner) (p : ProgOp) : State :=
  let u := s.unitSectors p.bolt
  let keys := p.keys
  let put := fun (s : State) (e : (Nat × Nat) × Nat) =>
    let off := if keyNsid e.1.1 = 1 then keyLba e.1.1 % max 1 s.zsize else p.chunk * u + e.2
    let place := nandKey p.bolt off
    match Tab.find s.wr.swatches e.1.1 with
    | none => s
    | some x =>
      if x.gen = e.1.2 then
        let s : State := { s with dies.nand := Tab.set s.dies.nand place x
                                  wr.swatches := Tab.del s.wr.swatches e.1.1
                                  dies.spilled := Tab.del s.dies.spilled e.1.1 }
        if keyNsid e.1.1 = 2 then { s with wr.convMap := Tab.set s.wr.convMap e.1.1 place } else s
      else s
  let s := (keys.zipIdx).foldl put s
  let s := { s with wr.staging := s.wr.staging.filter (fun e => !keys.any (fun k => decide (k.1 = e.1 ∧ k.2 = e.2.gen))) }
  let last := lastOwner (s.dieFailed (s.dieOf (boltGroup p.bolt) p.column))
  let s := (((s.unexpose keys).unstage keys.contains).freeBy owner last p.writer keys).restoredDone (keys.map (·.1))
  if p.kind = .raw then s.respond p.opId true 0 else s

/-- The parity unit of an accumulator half: queued at its die, or, where that die has failed, not programmed, the
accumulator then holding nothing (R126, R127). -/
def State.parityReady (s : State) (a : Accum) (writer : Nat) : State :=
  let col := 16 * a.half + parityCol a.bolt
  let d := s.dieOf (boltGroup a.bolt) col
  if (s.die d).failed then a.held.foldl (State.settleSectors · .accumulator) (s.clearAccum a.bolt a.half)
  else
    let (op, s) := (s.setAccum { a with queued := true }).newOp
    s.submitProg d { (default : ProgOp) with
      bolt := a.bolt
      column := col
      row := a.row
      kind := .parity
      slc := s.isSlc a.bolt
      writer := writer
      unit := s.unitOf a.bolt col
      src := 256
      opId := op }

/-- Whether the parity of an open half-stripe is being rebuilt after a loss of power (R126). -/
def State.parityRebuilding (s : State) (b h : Nat) : Bool :=
  s.recl.items.any (fun i => decide (i.bolt = b ∧ i.kind = .parityRebuild h))

/-- A log bolt for a tenant's next chunk: its current one, or a free one of its set in rotation (R132). -/
def State.logBoltFor (s : State) (slot : Nat) : Option (Nat × (Nat × State)) :=
  match Tab.find s.wr.logOpen slot with
  | some (b, n) =>
    some (b, (n, { s with wr.logOpen :=
      if (n + 1) * 8 = 30 * s.dp.rows * 8 then Tab.del s.wr.logOpen slot else Tab.set s.wr.logOpen slot (b, n + 1) }))
  | none =>
    let gs := match Tab.find s.bolts.logRr slot with
      | none => sortOn (· ≤ ·) (s.tenantD slot).groups
      | some l => rotated (s.tenantD slot).groups l
    match gs.findSome? (fun g => (s.freeLogs g).head?) with
    | none => none
    | some b =>
      let s := s.updBolt b (fun x => { x with st := .bound, use := .log slot })
      let s := { s with bolts.logRr := Tab.set s.bolts.logRr slot (boltGroup b), wr.logOpen := Tab.set s.wr.logOpen slot (b, 1) }
      some (b, (0, s.updLogState))

/-- Marks a log bolt full when its last chunk is placed (R178). -/
def State.noteFull (s : State) (b n : Nat) : State :=
  if n + 1 = 30 * s.dp.rows then
    let (q, s) := s.nextSeq
    s.updBolt b (fun x => { x with fillSeq := q })
  else s

/-- Tries to place a ready chunk: it takes its place in its log bolt if it is conventional, is XORed into the accumulator
of its half-stripe, and its program is queued; false where it must wait (R126, R127, R131, R132, R184, R190). -/
def State.placeChunk (s : State) (p : ProgOp) : Bool × State :=
  if p.opId ≠ 0 then
    if s.relocating p.bolt ∨ s.rebuilding p.bolt p.column then (false, s)
    else
      let d := s.dieOf (boltGroup p.bolt) p.column
      if (s.die d).failed then (true, s.settleSectors .accumulator p)
      else
        let (op, s) := s.newOp
        (true, s.submitProg d { p with opId := op, unit := s.unitOf p.bolt p.column })
  else
  let placed : Option (ProgOp × State) :=
    if p.bolt < 2 ^ 18 then some (p, s)
    else match s.logBoltFor p.writer with
      | none => none
      | some (b, (n, s)) =>
        some ({ p with bolt := b, chunk := n, column := chunkColumn b n, row := chunkRow n, slc := true,
                       unit := s.unitOf b (chunkColumn b n) }, s.noteFull b n)
  match placed with
  | none => (false, s)
  | some (p, s1) =>
    let h := p.column / 16
    let a := s1.accumFor p.bolt h p.row
    if a.row ≠ p.row ∨ s1.relocating p.bolt ∨ s1.rebuilding p.bolt p.column then (false, s)
    else
      let d := s1.dieOf (boltGroup p.bolt) p.column
      let failed := (s1.die d).failed
      let a := { a with chunks := addOnce a.chunks p.column, held := if failed then a.held ++ [p] else a.held }
      let s1 := s1.setAccum a
      let s1 : State := if failed then s1
        else
          let (op, s2) := s1.newOp
          s2.submitProg d { p with opId := op }
      (true, if a.chunks.length = 15 ∧ !s1.parityRebuilding p.bolt h then s1.parityReady a p.writer else s1)

/-- The ready chunks that wait tried again, oldest first (R126). -/
def State.drainReady (s : State) : State :=
  s.wr.ready.foldl (fun s p =>
    let (ok, s) := s.placeChunk p
    if ok then s else { s with wr.ready := s.wr.ready ++ [p] }) { s with wr.ready := [] }

/-- A chunk is ready: it goes behind those of its bolt that wait (R126). -/
def State.chunkReady (s : State) (p : ProgOp) : State :=
  if s.wr.ready.any (fun q => decide (q.bolt = p.bolt ∧ (p.bolt < 2 ^ 18 ∨ q.writer = p.writer) ∧ q.column / 16 = p.column / 16)) then
    { s with wr.ready := s.wr.ready ++ [p] }
  else
    let (ok, s) := s.placeChunk p
    if ok then s else { s with wr.ready := s.wr.ready ++ [p] }

/-- The program of chunk `k` of a zone's bolt. -/
def State.zoneChunk (s : State) (b k slot : Nat) (keys : List (Nat × Nat)) (kind : ProgKind) : ProgOp :=
  { (default : ProgOp) with
    bolt := b
    column := chunkColumn b k
    row := chunkRow k
    kind := kind
    writer := slot
    count := keys.length
    chunk := k
    keys := keys
    unit := s.unitOf b (chunkColumn b k)
    src := 256 }

/-! Tail spills (R124). -/

/-- The next die of a group's tail rotation that is in service (R124). -/
def State.tailColumn (s : State) (g : Nat) : Option Nat :=
  let order := match Tab.find s.bolts.tailRr g with
    | none => List.range 32
    | some l => (List.range 32).map (fun j => (l + 1 + j) % 32)
  order.find? (fun c => !(s.die (s.dieOf g c)).failed && !(s.die (s.dieOf g c)).recovering)

/-- The unit of a die that holds its tail area: that of system bolt 3 (R78, R124; DESIGN CHOICE, log 92). -/
def State.tailUnit (s : State) (g c : Nat) : Nat := s.unitOf (boltNo g 3) c

/-- The state with one spill of at most 8 sectors issued to the next die of the group's rotation. -/
def State.spillOne (s : State) (g bolt slot : Nat) (keys : List (Nat × Nat)) : State :=
  match s.tailColumn g with
  | none => s
  | some c =>
    let (op, s) := ({ s with bolts.tailRr := Tab.set s.bolts.tailRr g c } : State).newOp
    s.submitProg (s.dieOf g c) { (default : ProgOp) with
      bolt := bolt
      column := c
      unit := s.tailUnit g c
      kind := .spill
      slc := true
      writer := slot
      keys := keys
      src := 256
      opId := op }

/-- A list cut into runs of 8, at most `n` of them. -/
def runsOf8 {α : Type} : Nat → List α → List (List α)
  | 0, _ => []
  | n + 1, xs => if xs.isEmpty then [] else xs.take 8 :: runsOf8 n (xs.drop 8)

/-- The group that a partial chunk's spills go to: its zone's, or its log bolt's (R124). -/
def State.spillGroup (s : State) (p : Partial) : Option (Nat × Nat) :=
  if p.nsid = 1 then ((s.tenantD p.tenant).zone (p.index / 65536)).bolt.map (fun b => (boltGroup b, b))
  else match Tab.find s.wr.logOpen p.tenant with
    | some (b, _) => some (boltGroup b, b)
    | none => ((s.tenantD p.tenant).groups.find? (fun g => !(s.freeLogs g).isEmpty)).map (fun g => (g, boltNo g 6))

/-- A partial chunk spilled: its committed sectors that are exposed and not already being spilled (R124). -/
def State.spillPartial (s : State) (p : Partial) : State :=
  let keys := (p.lbas.map (fun l => (secKey p.tenant p.nsid l.1, l.2))).drop (p.spilled + p.spilling)
  match s.spillGroup p with
  | none => s
  | some (g, b) =>
    if keys.isEmpty then s
    else
      let s := { s with wr.partials := s.wr.partials.map (fun q => if q = p then { q with spilling := q.spilling + keys.length } else q) }
      (runsOf8 8 keys).foldl (fun s ks => s.spillOne g b p.tenant ks) s

/-- Sectors that spills under way will make durable. -/
def State.spilling (s : State) : Nat := s.wr.partials.foldl (fun n p => n + p.spilling) 0

/-- The oldest partial chunk with sectors that no spill covers, spilled for a commit that waits on the cap (R124). -/
def State.spillOldest (s : State) : State :=
  let ps := s.wr.partials.filter (fun p => decide (p.spilled + p.spilling < p.lbas.length))
  match ps.foldl (fun (acc : Option Partial) p => match acc with
      | none => some p
      | some q => if p.born < q.born then some p else some q) none with
  | none => s
  | some p => s.spillPartial p

/-- Partial chunks spilled, oldest first, until the spills under way bring the exposed-data count within the cap (R124). -/
def State.spillDown : Nat → State → State
  | 0, s => s
  | n + 1, s => if s.capSectors + s.spilling < s.exposed then State.spillDown n s.spillOldest else s

/-! Zone transitions with data in flight (R120, R122, R561). -/

/-- Programs in flight on the dies of a bolt's group that belong to the bolt. -/
def State.inFlight (s : State) (b : Nat) : Nat :=
  (s.dies.table.filter (fun p => match p.2.prog with | none => false | some q => decide (q.bolt = b))).length

/-- The committed sectors of a tenant among some numbers dropped: queued programs withdrawn, programs in flight left to end and
freeing nothing, the sectors no longer exposed, their swatches and staging space freed (R561). `mine`, `part` and `half` say
which programs, partial chunks and accumulator halves hold them. -/
def State.dropData (s : State) (slot : Nat) (among : Nat → Bool) (mine : ProgOp → Bool) (part : Partial → Bool)
    (half : Accum → Bool) : State :=
  let parts := s.wr.partials.filter part
  let ofProgs := fun (ps : List ProgOp) => (ps.filter (fun p => decide (p.kind ≠ .spill))).flatMap (·.keys)
  let freed := parts.flatMap (fun p => p.lbas.map (fun l => (secKey p.tenant p.nsid l.1, l.2))) ++
    ofProgs (s.wr.ready.filter mine) ++ (s.wr.accums.filter half).flatMap (fun a => ofProgs a.held) ++
    s.dies.table.flatMap (fun q => ofProgs (q.2.progs.filter mine) ++ ofProgs (q.2.prog.toList.filter mine)) ++
    s.recl.items.flatMap (fun i => ofProgs (i.held.filter mine))
  let s := s.unstage (fun k => among k.1)
  let s := { s with
    wr.partials := s.wr.partials.filter (fun p => !parts.contains p)
    wr.ready := s.wr.ready.filter (fun p => !mine p)
    wr.accums := s.wr.accums.filter (fun a => !half a)
    wr.expo := s.wr.expo.filter (fun e => !among e.1)
    wr.swatches := s.wr.swatches.filter (fun e => !among e.1)
    wr.staging := s.wr.staging.filter (fun e => !among e.1)
    recl.items := s.recl.items.map (fun (i : Item) => { i with held := i.held.filter (fun p => !mine p) })
    dies.spilled := s.dies.spilled.filter (fun e => !among e.1)
    dies.table := s.dies.table.map (fun (q : Nat × Die) => (q.1, { q.2 with
      progs := q.2.progs.filter (fun p => !mine p)
      prog := q.2.prog.map (fun (p : ProgOp) => if mine p then { p with keys := [], count := 0 } else p) })) }
  (s.freeSwatches slot freed).restoredDone (s.supply.restored.filter among)

/-- The committed sectors of a zone that have no durable copy dropped (R561). -/
def State.dropZoneData (s : State) (slot z : Nat) (b : Nat) : State :=
  let lo := z * s.zsize
  s.dropData slot
    (fun k => decide (keyTenant k = slot ∧ keyNsid k = 1 ∧ lo ≤ keyLba k ∧ keyLba k < lo + s.zsize))
    (fun p => decide (p.bolt = b ∧ p.kind ≠ .reloc))
    (fun p => decide (p.tenant = slot ∧ p.nsid = 1 ∧ p.index / 65536 = z))
    (fun a => decide (a.bolt = b))

/-- A bolt taken from its zone: a relocation of it is given up by the caller, and it is released once the programs in
flight on it have ended and its pins have reached zero (R561). -/
def State.releaseZoneBolt (s : State) (b : Nat) : State :=
  let n := s.inFlight b
  (s.updBolt b (fun x => { x with pins := x.pins + n })).releaseBolt b

/-- A zone that leaves with its bolt, if any, dropped (R561). -/
def State.dropZoneBolt (s : State) (slot z : Nat) : State :=
  match ((s.tenantD slot).zone z).bolt with
  | none => s
  | some b => (s.dropZoneData slot z b).releaseZoneBolt b

/-- A zone reset: Empty again, its generation one higher where it held a bolt (R83, R120, R561). -/
def State.resetZone (s : State) (slot z : Nat) : State :=
  let x := (s.tenantD slot).zone z
  if x.st = .zse then s
  else
    let s := s.dropZoneBolt slot z
    s.updZone slot z (fun y => { (default : Zone) with
      st := .zse
      gen := if x.bolt.isSome then y.gen + 1 else y.gen })

/-- The padding of a finished zone: filler for its partial program unit and for the rest of its row, with the row's
parity units following (R122). -/
def State.padRow (s : State) (slot z b : Nat) : State :=
  let x := (s.tenantD slot).zone z
  let u := max 1 s.dp.u
  let k0 := x.rp / u
  let row := k0 / 30
  let part := s.wr.partials.find? (fun p => decide (p.tenant = slot ∧ p.nsid = 1 ∧ p.index = z * 65536 + k0))
  let s := { s with wr.partials := s.wr.partials.filter (fun p => !decide (p.tenant = slot ∧ p.nsid = 1 ∧ p.index = z * 65536 + k0)) }
  if x.rp % (30 * u) = 0 then s
  else
    (List.range (30 * (row + 1) - k0)).foldl (fun s j =>
      let keys := if j = 0 then (match part with
          | none => []
          | some p => p.lbas.map (fun l => (secKey slot 1 l.1, l.2))) else []
      s.chunkReady (s.zoneChunk b (k0 + j) slot keys (if keys.isEmpty then .pad else .chunk))) s

/-- A zone made Full: its data ends at its write pointer, its row is padded and its bolt closed (R120, R122). -/
def State.finishZone (s : State) (slot z : Nat) (byDevice : Bool) : State :=
  let x := (s.tenantD slot).zone z
  let s : State := match x.bolt with
    | none => s
    | some b => (s.padRow slot z b).updBolt b (fun y => { y with closed := true })
  let s := s.updZone slot z (fun y => { y with st := .zsf, dataEnd := y.rp, zfc := byDevice, finishDue := false })
  if byDevice then s.zoneChanged slot z else s

/-- Writes reserved and uncommitted in a zone. -/
def State.reservedIn (s : State) (slot z : Nat) : List Wr :=
  s.wr.writes.filter (fun w => decide (w.tenant = slot ∧ w.nsid = 1 ∧ w.lba / max 1 s.zsize = z ∧
    (w.stage = .data ∨ w.stage = .bindWait)))

/-- A zone passes to ZSO: writes reserved in it complete with Zone Is Offline, what is committed and not durable is
dropped, and its bolt is withdrawn (R120, R561). -/
def State.zoneOffline (s : State) (slot z : Nat) : State :=
  let ws := s.reservedIn slot z
  let s := ws.foldl (fun s w =>
    if w.failed.isSome then s.dropWrite w.id
    else (((s.releaseWrite w).dropWrite w.id).releaseTack w.id).wrFail w nvZoneOffline true) s
  let s := s.dropZoneBolt slot z
  (s.updZone slot z (fun y => { y with st := .zso, bolt := none, keySlot := none })).zoneChanged slot z

/-- A zone passes to ZSRO (R120, R127). -/
def State.zoneReadOnly (s : State) (slot z : Nat) : State :=
  (s.updZone slot z (fun y => { y with st := .zsro })).zoneChanged slot z

/-! Commit (R119, R123, R131). -/

/-- The present copy of a conventional sector, if any, in the order of R87. -/
def State.convCopy (s : State) (slot lba : Nat) : Option Sealed :=
  match s.convSource slot (s.tenantD slot) lba with
  | .buffer x => some x
  | .swatch x => some x
  | .nand b o => Tab.find s.dies.nand (nandKey b o)
  | _ => none

/-- The order in which partial chunks began. -/
def State.bornSeq (s : State) : Nat × State := s.nextSeq

/-- Committed sectors gathered into their chunk: `n` sectors from an offset of a zone, real ones with `gen`, or filler
where there is none (R126, R251). Whole chunks become ready. -/
def State.gatherZone (s : State) (slot z : Nat) (b : Nat) (gen : Option Nat) : Nat → Nat → State
  | _, 0 => s
  | off, n + 1 =>
    let u := max 1 s.dp.u
    let idx := z * 65536 + off / u
    let lba := z * s.zsize + off
    let (q, s) := match s.wr.partials.find? (fun p => decide (p.tenant = slot ∧ p.nsid = 1 ∧ p.index = idx)) with
      | some p => (p, s)
      | none =>
        let (k, s) := s.bornSeq
        ({ (default : Partial) with tenant := slot, nsid := 1, index := idx, born := k }, s)
    let q := match gen with
      | some g => { q with lbas := q.lbas ++ [(lba, g)], lastUs := s.now }
      | none => { q with fill := q.fill + 1, lastUs := s.now }
    let rest := s.wr.partials.filter (fun p => !decide (p.tenant = slot ∧ p.nsid = 1 ∧ p.index = idx))
    let s : State := if q.lbas.length + q.fill = u then
        ({ s with wr.partials := rest } : State).chunkReady (s.zoneChunk b (off / u) slot
          (q.lbas.map (fun l => (secKey slot 1 l.1, l.2))) (if q.lbas.isEmpty then .pad else .chunk))
      else { s with wr.partials := rest ++ [q] }
    s.gatherZone slot z b gen (off + 1) n

/-- Committed conventional sectors gathered in commit order into 32 KiB chunks (R131). -/
def State.gatherConv (s : State) (slot gen : Nat) : Nat → Nat → State
  | _, 0 => s
  | lba, n + 1 =>
    let (q, s) := match s.wr.partials.find? (fun p => decide (p.tenant = slot ∧ p.nsid = 2)) with
      | some p => (p, s)
      | none =>
        let (k, s) := s.bornSeq
        ({ (default : Partial) with tenant := slot, nsid := 2, born := k }, s)
    let q := { q with lbas := q.lbas ++ [(lba, gen)], lastUs := s.now }
    let rest := s.wr.partials.filter (fun p => !decide (p.tenant = slot ∧ p.nsid = 2))
    let s : State := if q.lbas.length = 8 then
        let keys := q.lbas.map (fun l => (secKey slot 2 l.1, l.2))
        ({ s with wr.partials := rest } : State).chunkReady
          { (default : ProgOp) with bolt := 2 ^ 18, kind := .chunk, slc := true, writer := slot, count := 8, keys := keys,
                                    src := 256 }
      else { s with wr.partials := rest ++ [q] }
    s.gatherConv slot (gen + 1) (lba + 1) n

/-- Whether every earlier reservation in a write's zone has committed (R119). -/
def State.firstInZone (s : State) (w : Wr) : Bool :=
  decide (w.nsid ≠ 1 ∨ ((s.tenantD w.tenant).zone (w.lba / max 1 s.zsize)).cp = w.lba % max 1 s.zsize)

/-- Whether every swatch of a write is protected. -/
def Wr.allProtected (w : Wr) : Bool := (List.range w.len).all w.prot.contains

/-- Conditions 1-3 of R123. -/
def State.ready123 (s : State) (w : Wr) : Bool :=
  decide (w.stage = .data ∧ w.failed = none) && w.allProtected && s.firstInZone w && (!w.staged || w.recorded)

/-- Gives each write that has come to satisfy conditions 1-3 its place in their order (R123). -/
def State.markReady (s : State) : State :=
  s.wr.writes.foldl (fun s w =>
    if w.readySeq = 0 && s.ready123 w then
      ({ s with wr.readySeq := s.wr.readySeq + 1 } : State).updWrite w.id (fun x => { x with readySeq := s.wr.readySeq })
    else s) s

/-- The committed pointer of a zone advanced, a full zone with nothing outstanding made ZSF (R120). -/
def State.advanceCp (s : State) (slot z n : Nat) : State :=
  let s := s.updZone slot z (fun x => { x with cp := x.cp + n })
  let x := (s.tenantD slot).zone z
  if x.cp = s.dp.zoneCap ∧ x.st.active then
    let s : State := match x.bolt with | none => s | some b => s.updBolt b (fun y => { y with closed := true })
    s.updZone slot z (fun x => { x with st := .zsf, dataEnd := x.cp, finishDue := false })
  else s

/-- The failed writes whose turn has come in a zone commit as filler (R251). -/
def State.commitFiller (slot z : Nat) : Nat → State → State
  | 0, s => s
  | n + 1, s =>
    match (s.reservedIn slot z).find? (fun w => w.failed.isSome && s.firstInZone w) with
    | none => s
    | some w =>
      let s := s.dropWrite w.id
      let s : State := match ((s.tenantD slot).zone z).bolt with
        | none => s
        | some b => s.gatherZone slot z b none (w.lba % max 1 s.zsize) w.len
      State.commitFiller slot z n (s.advanceCp slot z w.len)

/-- The sectors of a write as committed: in swatches, and in the staging region while the copy runs (R123, R135). -/
def State.placeSectors (s : State) (w : Wr) : State :=
  let s : State := if w.staged then
      { s with wr.stagedHeld := s.wr.stagedHeld ++
          [⟨w.id, w.tenant, w.sectors.map (fun p => (secKey w.tenant w.nsid (w.lba + p.1), p.2.gen)), w.len⟩] }
    else s
  w.sectors.foldl (fun s p =>
    let key := secKey w.tenant w.nsid (w.lba + p.1)
    let s := { s with wr.swatches := Tab.set s.wr.swatches key p.2, wr.expo := s.wr.expo ++ [(key, p.2.gen)] }
    if w.staged then { s with wr.staging := Tab.set s.wr.staging key p.2 }
    else { s with wr.staging := Tab.del s.wr.staging key }) s

/-- Superseded conventional sectors: their key references fall (R323). -/
def State.supersede (s : State) (w : Wr) : State :=
  (List.range w.len).foldl (fun s i =>
    match s.convCopy w.tenant (w.lba + i) with
    | none => s
    | some x => s.addConv w.tenant x.keySlot x.keyGen (-1)) s

/-- The commit of a write: pointer or map, exposed count, counters and completion (R123). Its Tack entry is released by
the caller's release of what waits. -/
def State.commit (s : State) (w : Wr) : State :=
  let z := w.lba / max 1 s.zsize
  let s := s.dropWrite w.id
  let s : State := if w.nsid = 2 then s.supersede w else s
  let s := s.placeSectors w
  let s := s.pbExtreme 8 ((s.exposed * 4 : Nat) : Int)
  let s : State := if w.nsid = 1 then
      let s : State := match ((s.tenantD w.tenant).zone z).bolt with
        | none => s
        | some b => s.gatherZone w.tenant z b (some w.gen) (w.lba % max 1 s.zsize) w.len
      State.commitFiller w.tenant z s.wr.writes.length (s.advanceCp w.tenant z w.len)
    else s.gatherConv w.tenant w.gen w.lba w.len
  let s := (s.meter w.tenant 1 w.len).updTenant w.tenant (fun t =>
    { t with smart := bumpAt (bumpAt t.smart 1 (8 * w.len)) 3 1, fdp := bumpAt t.fdp 0 (w.len * 4096) })
  let s := { s with san.s.written := true }
  let alba : BitVec 64 := if w.kind = .append then BitVec.ofNat 64 w.lba else 0#64
  (s.complete w.fn { sqid := w.sqid, cid := w.cid, dw0 := alba.extractLsb' 0 32, dw1 := alba.extractLsb' 32 32,
                     nsid := BitVec.ofNat 32 w.nsid }).releaseTack w.id

/-! Stage 3 and after (R107, R118, R324). -/

/-- Whether a tenant is log-throttled (R181). -/
def State.throttled (s : State) (slot : Nat) : Bool := (Tab.find s.recl.throttled slot).isSome

/-- The gate of R181: exposed NSID 2 sectors and the write's own within 2,048. -/
def State.gateOpen (s : State) (w : Wr) : Bool :=
  decide (w.nsid ≠ 2) || !s.throttled w.tenant ||
    decide ((s.wr.expo.filter (fun e => decide (keyTenant e.1 = w.tenant ∧ keyNsid e.1 = 2))).length + w.len ≤ 2048)

/-- The checks of R118 in order, with the key checks of R324 ahead of stage 3: the failing status and its DNR. A directive type
other than 0h and 2h is an invalid field (DESIGN CHOICE, log 48), and a zone marked for a device finish counts as full (DESIGN
CHOICE, log 88). -/
def State.writeVerdict (s : State) (w : Wr) : Option (Nat × Bool) :=
  let t := s.tenantD w.tenant
  let zs := max 1 s.zsize
  let z := t.zone (w.lba / zs)
  let off := w.lba % zs
  let noKey := s.cipher && t.writeSlot.isNone
  if w.nsid = 2 then (if noKey then some (nvAccessDenied, false) else none)
  else
    let stale := s.cipher && (match z.keySlot with | none => false | some k => decide (s.gen 4 (w.tenant * 2 + k) ≠ z.keyGen))
    if stale then some (nvAccessDenied, true)
    else if noKey && decide (z.rp = 0 ∧ z.st ≠ .zsf ∧ z.st ≠ .zsro ∧ z.st ≠ .zso) then some (nvAccessDenied, false)
    else if z.st = .zsf ∨ (z.finishDue = true ∧ z.st.active = true) then some (nvZoneFull, true)
    else if z.st = .zsro then some (nvZoneReadOnly, true)
    else if z.st = .zso then some (nvZoneOffline, true)
    else if w.kind = .append ∧ off ≠ 0 then some (nvBadField, true)
    else if w.kind ≠ .append ∧ off ≠ z.rp then some (nvZoneInvalidWrite, true)
    else if s.dp.zoneCap < z.rp + w.len then some (nvZoneBoundary, true)
    else if w.dtype = 2#4 ∧ (64 ≤ w.dspec.toNat ∨ (t.placement w.dspec.toNat).isNone) then some (nvBadField, true)
    else if w.dtype ≠ 0#4 ∧ w.dtype ≠ 2#4 then some (nvBadField, true)
    else if z.st = .zse ∧ t.activeZones ≤ t.activeCount then some (nvTooManyActive, false)
    else none

/-- A write put into the hold slot of its queue: its queue is PARKED, and where the quota is exhausted every I/O queue of
the tenant stops (R116, R181). -/
def State.park (s : State) (w : Wr) (stage : WStage) (stopAll : Bool) : State :=
  let s := s.updWrite w.id (fun x => { x with stage := stage, parkedUs := s.now })
  s.updFn w.fn (fun x => { x with sqs := x.sqs.map (fun q =>
    if q.qid = w.sqid ∧ q.st = .active then { q with st := .parked }
    else if stopAll ∧ q.qid ≠ 0 ∧ q.st = .active then { q with st := .stopped } else q) })

/-- A write that fails after its reservation (R251). -/
def State.dataFail (s : State) (id status : Nat) : State :=
  match s.write id with
  | none => s
  | some w =>
    let zs := max 1 s.zsize
    let z := (s.tenantD w.tenant).zone (w.lba / zs)
    let s := s.releaseWrite w
    let last := decide (w.nsid ≠ 1 ∨ z.rp = w.lba % zs + w.len)
    let s := (s.wrFail w status (decide (status ≠ nvTransferError))).releaseTack id
    if last then (s.dropWrite id).withdrawReservation w
    else
      State.commitFiller w.tenant (w.lba / zs) s.wr.writes.length
        (s.updWrite id (fun x => { x with failed := some status, staged := false, sectors := [] }))

/-- A sector of a write encrypted and written to its swatch or staging block: its bursts join the write queues (R318,
R358). -/
def State.sectorSealed (s : State) (id i : Nat) : State :=
  let chans := (List.range 4).filter (fun c => s.mem.chOk.getLsbD c)
  let n := chans.length
  let s := s.updWrite id (fun w => { w with sealed := addOnce w.sealed i })
  { s with mem.drains := chans.zipIdx.foldl (fun t p =>
      Tab.upd [] t p.1 (fun q => q ++ [⟨id, i, 64 / n + (if p.2 = i % n then 1 else 0)⟩])) s.mem.drains }

/-- A sector's data taken into a write of a tenant with a handle and a region generation (R107, R310, R312). -/
def Wr.takeSector (w : Wr) (handle region i : Nat) (data : SectorData) (md : BitVec 64) : Wr :=
  { w with
    arrived := addOnce w.arrived i
    sectors := Tab.set w.sectors i ⟨w.tenant, w.nsid, w.lba + i, w.keySlot, w.keyGen,
      if w.nsid = 1 then w.gen else w.gen + i, data, md, false, handle, region⟩ }

/-- The latest start time of a write before the Seam lanes (R26, R247). -/
def State.writeLst (s : State) (w : Wr) : Nat :=
  match s.outstAt w.fn w.sqid w.cid with
  | none => s.now
  | some o => o.latest (s.writeEstimate true w.len)

/-- A sector of a write, its data at hand, put before the Seam lanes, or, on N variants, straight into its swatch (R106,
R317, R318). -/
def State.sealSector (s : State) (w : Wr) (i : Nat) (data : SectorData) (md : BitVec 64) : State :=
  let s := s.updWrite w.id (fun x => x.takeSector (s.handleOf 1 w.tenant) (s.tenantD w.tenant).regionGen i data md)
  if s.cipher then
    s.seamPush { (default : SeamJob) with cmd := w.id, sector := i, die := 1024, lst := s.writeLst w }
  else s.sectorSealed w.id i

/-- The Selvedge code of a data-pointer violation (R514). -/
def dataCode (status : Nat) : Nat := if status = nvPrpOffset then 7 else if status = nvBadField then 9 else 8

/-- Data-stage violations recorded, each with its own entry (R250). -/
def State.countFaults (s : State) (f : FnId) (sqid cid : Nat) (faults : List Nat) : State :=
  faults.foldl (fun s st => s.hostViolation f (dataCode st) sqid cid 1) s

/-- The host's answer to a write's reads of its data is over: the time that they took is the host's (R247). -/
def State.hostWaited (s : State) (w : Wr) : State :=
  s.updFn w.fn (fun x => { x with granted := x.granted.map (fun (o : Outst) =>
    if o.sqid = w.sqid ∧ o.cid = w.cid then { o with hostUs := o.hostUs + (s.now - w.askedUs) } else o) })

/-- Stage 5 begun: a violation of the data pointer fails the write (R250); a Write Zeroes has its data at once; the others
fetch it (R106, R107). -/
def State.startData (s : State) (w : Wr) : State :=
  match w.dataErr, w.kind with
  | st :: more, _ => (s.countFaults w.fn w.sqid w.cid (st :: more)).dataFail w.id st
  | [], .zeroes => (List.range w.len).foldl (fun s i => s.sealSector w i 0 0) s
  | [], _ => (s.updWrite w.id (fun x => { x with askedUs := s.now })).emit (.dataFetch w.fn w.sqid w.cid)

/-- The write sequences or generation, key and range of a write that passes stage 3 (R314, R322). -/
def State.assignSequence (s : State) (w : Wr) : Wr × State :=
  let t := s.tenantD w.tenant
  if w.nsid = 1 then
    let z := t.zone (w.lba / max 1 s.zsize)
    ({ w with keySlot := w.tenant * 2 + z.keySlot.getD 0, keyGen := z.keyGen, gen := z.gen }, s)
  else
    let k := t.writeSlot.getD 0
    let s := s.updTenant w.tenant (fun t => { t with writeSeq := t.writeSeq + w.len })
    let s : State := if s.cipher then s.addConv w.tenant (w.tenant * 2 + k) (s.gen 4 (w.tenant * 2 + k)) w.len else s
    ({ w with keySlot := w.tenant * 2 + k, keyGen := s.gen 4 (w.tenant * 2 + k), gen := t.writeSeq + 1 }, s)

/-- The reservation of a write on NSID 1: pointer, state, placement handle, key, binding (R82, R118, R120, R322). A binding waits
where no candidate group holds an ERASED bolt, or while a command holds the allocators of the tenant's set (R92, R93). -/
def State.reserve (s : State) (w : Wr) : Wr × State :=
  let zs := max 1 s.zsize
  let zi := w.lba / zs
  let t := s.tenantD w.tenant
  let z := t.zone zi
  let lba := zi * zs + z.rp
  let idx := if w.dtype = 2#4 then w.dspec.toNat else 0
  let (q, s) := s.nextSeq
  let binds := decide (z.rp = 0)
  let key := if s.cipher then t.writeSlot else none
  let s := s.updZone w.tenant zi (fun x => { x with
    rp := x.rp + w.len
    st := if x.st = .zseo then .zseo else .zsio
    actSeq := q
    handle := if binds then idx else x.handle
    handleGen := if binds then s.gen 3 (w.tenant * 64 + idx) else x.handleGen
    keySlot := if binds then key else x.keySlot
    keyGen := if binds then (match key with | none => 0 | some k => s.gen 4 (w.tenant * 2 + k)) else x.keyGen })
  let w := { w with lba := lba, boundHere := binds, opened := if z.st = .zseo ∨ z.st = .zsio then none else some z.st }
  let s := { s with wr.tack := s.wr.tack.map (fun e =>
    if e.id = w.id then { e with kind := .range, lo := lba, hi := lba + w.len } else e) }
  if binds then
    let w := { w with mask := t.placementGroups idx }
    let (cands, fb) := s.candidates w.tenant idx w.mask
    match (if t.convCmd.isSome then none else s.chooseBolt cands) with
    | some (g, b) => (w, s.bindTo w.tenant zi idx g b fb)
    | none => ({ w with stage := .bindWait }, { s with bolts.bindWait := s.bolts.bindWait ++ [w.id] })
  else (w, s)

/-- Stages 3 and 4 and the start of stage 5 for a write past its Tack claim: it fails, is parked, or goes on (R107). -/
def State.proceed (s : State) (id : Nat) : State :=
  match s.write id with
  | none => s
  | some w =>
    match s.writeVerdict w with
    | some (st, dnr) => ((s.dropWrite id).releaseTack id).wrFail w st dnr
    | none =>
      let t := s.tenantD w.tenant
      let staged := decide (t.stagingLimit ≠ 0 ∧ 2 ≤ w.len)
      let mine := (s.wr.stagedHeld.filter (fun e => decide (e.tenant = w.tenant))).foldl (fun n e => n + e.space) 0 +
        (s.wr.writes.filter (fun x => decide (x.tenant = w.tenant) && x.staged)).foldl (fun n x => n + x.len) 0
      if !s.gateOpen w then s.park w .gated false
      else if !s.canAlloc w.tenant w.len then
        let s := { s with mem.allocFails := bumpAt s.mem.allocFails 0 1 }
        s.park w .parked (decide (t.swatchQuota < t.swatchHeld + w.len))
      else if staged ∧ (16384 < s.wr.stagingUsed + w.len ∨ t.stagingLimit < mine + w.len) then
        ((s.dropWrite id).releaseTack id).wrFail w nvStagingFull false
      else
        let s := s.allocSwatches w.tenant w.len
        let s : State := if staged then { s with wr.stagingUsed := s.wr.stagingUsed + w.len } else s
        let w := { w with staged := staged, stage := .data }
        let (w, s) := if w.nsid = 1 then s.reserve w else (w, s)
        let (w, s) := s.assignSequence w
        let s := s.updWrite id (fun _ => w)
        let s : State := if staged then s.updFn w.fn (fun x => { x with granted := x.granted.map (fun o =>
            if o.sqid = w.sqid ∧ o.cid = w.cid then { o with staged := true } else o) })
          else s
        if w.stage = .bindWait then s else s.startData w

/-! Zone Management Sends (R109, R120, R122). -/

/-- The outcome of an action on one zone: a status that stops it, or none (R120). Actions: 1 Close, 2 Finish, 3 Open,
4 Reset. -/
def State.sendVerdict (s : State) (slot z action : Nat) : Option Nat :=
  let _ := s
  let t := s.tenantD slot
  let x := t.zone z
  match action, x.st with
  | _, .zso => some nvZoneOffline
  | 4, _ => none
  | _, .zsro => some nvZoneReadOnly
  | 1, .zsf => some nvZoneTransition
  | 3, .zsf => some nvZoneTransition
  | 3, .zse => if t.activeZones ≤ t.activeCount then some nvTooManyActive else none
  | _, _ => none

/-- An action carried out on a zone that admits it (R120). -/
def State.sendApply (s : State) (slot z action : Nat) : State :=
  let x := (s.tenantD slot).zone z
  match action with
  | 1 =>
    match x.st with
    | .zsio | .zseo =>
      if x.rp = 0 then s.updZone slot z (fun y => { y with st := .zse })
      else
        let s := s.updZone slot z (fun y => { y with st := .zsc })
        (s.wr.partials.filter (fun p => decide (p.tenant = slot ∧ p.nsid = 1 ∧ p.index / 65536 = z))).foldl
          State.spillPartial s
    | _ => s
  | 2 => if x.st = .zsf then s else s.finishZone slot z false
  | 3 =>
    let (q, s) := s.nextSeq
    s.updZone slot z (fun y => { y with st := .zseo, actSeq := if y.st = .zse then q else y.actSeq })
  | 4 => s.resetZone slot z
  | _ => s

/-- The zones that Select All takes for an action: for a Close those open, for a Finish those open or closed, for an Open those
closed, for a Reset those active or full (DESIGN CHOICE, log 87). -/
def State.allZones (s : State) (slot action : Nat) : List Nat :=
  let t := s.tenantD slot
  let sel : ZoneSt → Bool := fun st => match action, st with
    | 1, .zsio => true
    | 1, .zseo => true
    | 2, .zsio => true
    | 2, .zseo => true
    | 2, .zsc => true
    | 3, .zsc => true
    | 4, .zsio => true
    | 4, .zseo => true
    | 4, .zsc => true
    | 4, .zsf => true
    | _, _ => false
  (t.zones.filter (fun p => sel p.2.st)).map (·.1)

/-- The key references a reset zone gives up are computed, so a Zone Management Send past its claim only acts and
completes (R120). A Finish waits while reservations of its zone are outstanding (R122). -/
def State.runSend (s : State) (x : ZSend) : State :=
  let zs := max 1 s.zsize
  let zones := if x.all then s.allZones x.tenant x.action else [x.slba / zs]
  let waits := decide (x.action = 2) && zones.any (fun z => !(s.reservedIn x.tenant z).isEmpty)
  if waits then { s with wr.sends := s.wr.sends.map (fun y => if y.id = x.id then { y with waitCommit := true } else y) }
  else
    let s := { s with wr.sends := s.wr.sends.filter (fun y => decide (y.id ≠ x.id)) }
    let verdict := if x.all then none else s.sendVerdict x.tenant (x.slba / zs) x.action
    let s : State := match verdict with
      | some _ => s
      | none => zones.foldl (fun s z => s.sendApply x.tenant z x.action) s
    let st := verdict.getD nvOk
    (s.releaseTack x.id).complete x.fn
      { sqid := x.sqid, cid := x.cid, status := st, dnr := decide (st ≠ nvOk ∧ st ≠ nvTooManyActive), nsid := 1#32,
        lba := x.slba }

/-! What goes on when something is released. -/

/-- The next stalled command whose conflicts are gone, as write or send. -/
def State.nextFree (s : State) : Option (Nat ⊕ ZSend) :=
  let held : ZSend → Bool := fun x => x.waitCommit && s.wr.writes.any (fun w =>
    decide (w.tenant = x.tenant ∧ w.nsid = 1 ∧ (w.stage = .data ∨ w.stage = .bindWait)) &&
      (x.all || decide (w.lba / max 1 s.zsize = x.slba / max 1 s.zsize)))
  match s.wr.writes.find? (fun w => decide (w.stage = .stalled) && !s.tackBlocked w.id) with
  | some w => some (.inl w.id)
  | none => (s.wr.sends.find? (fun x => !x.entryWait && !s.tackBlocked x.id && !held x)).map .inr

/-- Commands that wait for a Tack entry claim one where they now can, in arrival order (R111). -/
def State.claimWaiters (s : State) : State :=
  let writes := (s.wr.writes.filter (fun w => decide (w.stage = .entryWait))).map (fun w => (w.id, (w.tenant, s.claimOf w)))
  let sends := (s.wr.sends.filter (·.entryWait)).map (fun x => (x.id, (x.tenant, s.sendClaim x)))
  (sortOn (fun a b => decide (a.1 ≤ b.1)) (writes ++ sends)).foldl (fun s p =>
    if s.canClaim p.2.1 then
      let s := (s.claim p.2.2).updWrite p.1 (fun x => { x with stage := .stalled })
      { s with wr.sends := s.wr.sends.map (fun x => if x.id = p.1 then { x with entryWait := false } else x) }
    else s) s

/-- Stalled commands proceed while any is free to (R109). -/
def State.pumpTack : Nat → State → State
  | 0, s => s
  | n + 1, s =>
    let s := s.claimWaiters
    match s.nextFree with
    | none => s
    | some (.inl id) => State.pumpTack n ((s.updWrite id (fun w => { w with stage := .data })).proceed id)
    | some (.inr x) => State.pumpTack n (s.runSend x)

/-- The zones that the device is to finish, with every reservation committed, are finished (R121). -/
def State.deviceFinishes (s : State) : State :=
  s.host.tenants.foldl (fun s p =>
    (p.2.zones.filter (fun z => z.2.finishDue && z.2.st.active)).foldl (fun s z =>
      if (s.reservedIn p.1 z.1).isEmpty then s.finishZone p.1 z.1 true else s) s) s

/-- The groups from which a waiting binding is served: those of its placement handle while that exists, otherwise those that it
named when it was resolved (R91, R93). -/
def State.bindMask (s : State) (w : Wr) (z : Zone) : List Nat :=
  if z.handle = 0 ∨ s.gen 3 (w.tenant * 64 + z.handle) = z.handleGen then (s.tenantD w.tenant).placementGroups z.handle
  else w.mask

/-- The oldest waiting binding that a candidate group's ERASED bolt now serves, with the handle, group, bolt and whether it falls
back (R92, R93). -/
def State.nextBinding (s : State) : Option (Wr × (Nat × ((Nat × Nat) × Bool))) :=
  s.bolts.bindWait.findSome? (fun id => match s.write id with
    | none => none
    | some w =>
      let z := (s.tenantD w.tenant).zone (w.lba / max 1 s.zsize)
      let c := s.candidates w.tenant z.handle (s.bindMask w z)
      if (s.tenantD w.tenant).convCmd.isSome then none
      else (s.chooseBolt c.1).map (fun b => (w, (z.handle, (b, c.2)))))

/-- Waiting bindings served, oldest first, while a candidate group holds an ERASED bolt (R92, R176). -/
def State.serveBinds : Nat → State → State
  | 0, s => s
  | n + 1, s =>
    match s.nextBinding with
    | none => s
    | some (w, (idx, ((g, b), fb))) =>
      let s := { s with bolts.bindWait := s.bolts.bindWait.filter (· ≠ w.id) }
      let s := s.bindTo w.tenant (w.lba / max 1 s.zsize) idx g b fb
      State.serveBinds n ((s.updWrite w.id (fun x => { x with stage := .data })).startData w)

/-- Everything that the release of Tack entries, of bolts or of reservations lets go on. -/
def State.pumpOnce (s : State) : State :=
  let s := State.pumpTack (s.wr.writes.length + s.wr.sends.length + 1) s
  ((State.serveBinds s.bolts.bindWait.length s).deviceFinishes).markReady

/-- The queues of a tenant after its parked writes have been retried: while one is still parked for want of swatches fetching
stays stopped; with none left a queue is ACTIVE, or PARKED where a write waits at the gate in its hold slot (R116, R181,
R237). -/
def State.resumeQueues (s : State) (slot : Nat) : State :=
  let held := s.wr.writes.filter (fun w => decide (w.tenant = slot ∧ (w.stage = .parked ∨ w.stage = .gated)))
  match (s.tenantD slot).fn with
  | none => s
  | some f =>
    let stops := held.any (fun w => decide (w.stage = .parked))
    let s := s.updFn f (fun x => { x with sqs := x.sqs.map (fun q =>
      if q.st = .parked ∨ q.st = .stopped then
        (if held.any (fun w => decide (w.sqid = q.qid)) then { q with st := .parked }
          else if stops then { q with st := .stopped } else { q with st := .active })
      else q) })
    s.tryFetchAll f

/-- Parked writes of a tenant retried, oldest first, on a free event or at the gate (R116, R181). -/
def State.retryParked (s : State) (slot : Nat) : State :=
  let s := { s with wr.freed := s.wr.freed.filter (· ≠ slot) }
  let ws := s.wr.writes.filter (fun w => decide (w.tenant = slot ∧ (w.stage = .parked ∨ w.stage = .gated)))
  if ws.isEmpty then s
  else
    let s := ws.foldl (fun s w =>
      let wait := s.now - w.parkedUs
      let s : State := if w.stage = .gated then
          (({ s with recl.throttleWaitUs := min (s.recl.throttleWaitUs + wait) (2 ^ 64 - 1) } : State).pbTenant slot 4 wait)
        else s
      (s.updWrite w.id (fun x => { x with stage := .data })).proceed w.id) s
    (s.resumeQueues slot).pumpOnce

/-- The free events raised since are taken up: the parked writes of their tenants are retried (R115, R116). -/
def State.freeEvents : Nat → State → State
  | 0, s => s
  | n + 1, s =>
    match s.wr.freed with
    | [] => s
    | slot :: _ => State.freeEvents n (s.retryParked slot)

/-- Everything that the release of Tack entries, bolts or swatches lets go on. -/
def State.pump (s : State) : State :=
  let s := s.pumpOnce
  State.freeEvents (s.wr.writes.length + s.wr.freed.length) s

/-- A writing command granted: it claims its Tack entry, or waits for one (R107, R111). -/
def State.startWrite (s : State) (w : Wr) : State :=
  let w := { w with id := s.wr.nextTack, tackWait := s.now }
  let s := { s with wr.nextTack := s.wr.nextTack + 1 }
  if s.canClaim w.tenant then
    let s := ({ s with wr.writes := s.wr.writes ++ [{ w with stage := .stalled }] } : State).claim (s.claimOf w)
    s.pump
  else
    ({ s with wr.writes := s.wr.writes ++ [{ w with stage := .entryWait }] } : State).pbTenant w.tenant 0 1

/-- A Zone Management Send granted: it claims its Tack entry, or waits for one, and takes effect when it passes (R108, R111,
R120). -/
def State.startSend (s : State) (x : ZSend) : State :=
  let wait := !s.canClaim x.tenant
  let x := { x with id := s.wr.nextTack, entryWait := wait }
  let s := { s with wr.nextTack := s.wr.nextTack + 1, wr.sends := s.wr.sends ++ [x] }
  if wait then s.pbTenant x.tenant 0 1 else (s.claim (s.sendClaim x)).pump

end Sys2Proof.Machine
end

