-- ==== Sys2Proof/Machine/Reclaim.lean ====
section
/-! DEFINITION. Reclamation: Hem programs for erase intents (R173, R174, R380), erases (R166, R167, R173, R176), failed
dies and retirement (R72, R127, R187-R190), merges and relocations (R169, R172, R177-R187), throttling (R181). -/

namespace Sys2Proof.Machine

/-! Hem banks (R376, R380, R385). -/

/-- A Hem bank. -/
def State.hemBank (s : State) (k : Nat) : HemBank := Tab.get default s.hem.banks k

/-- The state with a Hem bank replaced. -/
def State.setHemBank (s : State) (k : Nat) (b : HemBank) : State :=
  { s with hem.banks := if b.op = none ∧ b.prog = none ∧ b.queue = [] then Tab.del s.hem.banks k else Tab.set s.hem.banks k b }

/-- The position of a logical sector of the record area under the window (R385). -/
def State.position (s : State) (l : Nat) : Nat :=
  let p := (l + s.hem.start) % 12279
  if s.hem.gap ≤ p then p + 1 else p

/-- The bank of a logical sector of the record area (R376, R385). -/
def State.recordBank (s : State) (l : Nat) : Nat := (4104 + s.position l) / 4096

/-- A fresh Hem operation. -/
def HemOp.of (erase : Bool) (what : HemWhat) : HemOp := ⟨erase, what, false, false, 0, 0⟩

/-- Whether a bank has nothing to do. -/
def HemBank.idle (b : HemBank) : Bool := b.op.isNone && b.prog.isNone && b.queue.isEmpty

/-- One sector erase of the record area counted; the 64th since the last move makes a move due (R385). -/
def State.countHemErase (s : State) : State :=
  { s with hem.recordErases := s.hem.recordErases + 1, hem.moveDue := s.hem.moveDue || decide (64 ≤ s.hem.recordErases + 1) }

/-- The TARGET and KIND of a bolt's intent (R174). -/
def intentBolt (b : Nat) : Nat := 2 ^ 32 + b

/-- The TARGET and KIND of a single unit's intent (R174). -/
def intentUnit (d : DieId) (u : Nat) : Nat := 2 * 2 ^ 32 + d.ch * 2 ^ 24 + d.pos * 2 ^ 19 + u

/-- Whether a new intent may be written: the sector it falls in holds no open word of the ring's last turn (R174). -/
def State.intentRoom (s : State) : Bool :=
  let q := s.bolts.intentSeq + 1
  !s.bolts.intents.any (fun p => decide (p.1 / 512 ≠ q / 512 ∧ p.1 / 512 % 16 = q / 512 % 16))

/-- Whether the next intent word is the first of a sector of the ring that holds an earlier turn's words, which is erased
before it is programmed (R174). -/
def State.intentErases (s : State) : Bool :=
  let q := s.bolts.intentSeq + 1
  decide (q % 512 = 0 ∧ 8192 ≤ q)

/-- Whether an operation programs a fresh intent word. -/
def HemWhat.opens : HemWhat → Bool
  | .intent _ | .unitIntent _ _ => true
  | _ => false

/-- The first program of an intent has passed: the word is open (R173). -/
def State.openIntent (s : State) (target : Nat) : Nat × State :=
  let q := s.bolts.intentSeq + 1
  (q, { s with bolts.intentSeq := q, bolts.intents := s.bolts.intents ++ [(q, target)] })

/-- The open intent of a target. -/
def State.intentOf (s : State) (target : Nat) : Option Nat :=
  (s.bolts.intents.find? (fun p => decide (p.2 = target))).map (·.1)

/-! Spares and health (R188, R189, R193). -/

/-- Available Spare (R193): a die with no entry has its whole list. -/
def State.availableSpare (s : State) : Nat :=
  if s.geo.media then
    ((s.dies.table.filter (fun p => !p.2.failed && s.presentGroups.contains (s.groupOf (dieOfKey p.1)))).map (fun p =>
      100 * s.spareLeft (dieOfKey p.1) / max 1 (s.spareInitial (dieOfKey p.1)))).foldl min 100
  else 0

/-- Available Spare looked at again: below 10 it sets Critical Warning bit 0 and raises the event (R193). -/
def State.updSpare (s : State) : State :=
  let low := s.geo.media && decide (s.availableSpare < 10)
  if low && !s.recl.spareLow then ({ s with recl.spareLow := true } : State).smartEventAll 0 2
  else { s with recl.spareLow := low }

/-! Wear (R191, R194). -/

/-- Whether the highest erase count of a group's ERASED user bolts exceeds the lowest of its bound ones by more than 250 (R194). -/
def State.wearDue (s : State) (g : Nat) : Bool :=
  let es := s.userEntries g
  let dflt := if s.dfltSt g = .erased ∧ (s.firstDefault g).isSome ∧ s.presentGroups.contains g then s.bolts.dfltEc else 0
  let hi := max dflt ((maxOf ((es.filter (fun p => decide (p.2.st = .erased))).map (fun p => p.2.ec))).getD 0)
  let lo := (minOf ((es.filter (fun p => decide (p.2.st = .bound))).map (fun p => p.2.ec))).getD hi
  decide (lo + 250 < hi)

/-- The erase-count spread of a group looked at: a wear-levelling move of its least-erased bolt bound to a full zone or a
region is queued, one at a time (R194). -/
def State.wearCheck (s : State) (g : Nat) : State :=
  let movable := (s.userEntries g).filter (fun p => decide (p.2.st = .bound) && (match p.2.use with
    | .zone t z => decide (((s.tenantD t).zone z).st = .zsf)
    | .region _ _ => true
    | _ => false))
  if s.wearDue g && !s.recl.items.any (fun i => decide (i.kind = .wear ∧ boltGroup i.bolt = g)) then
    match movable.foldl (fun acc p => betterBolt acc (some (p.2.ec, p.1))) none with
    | none => s
    | some (_, b) => s.queueItem .wear b
  else s

/-! Throttling (R181). -/

/-- A tenant's fair share of log bolts (R181). -/
def State.fairShare (s : State) (t : Tenant) : Nat := max 1 (256 * t.conv / max 1 s.convAssigned)

/-- The log-throttled tenants looked at again: those that leave have their time counted and their writes retried (R181). -/
def State.updThrottle (s : State) : State :=
  s.host.tenants.foldl (fun s p =>
    let now := decide (s.recl.logState = 2 ∧ p.2.conv ≠ 0 ∧ s.fairShare p.2 < s.logsHeld p.1)
    match Tab.find s.recl.throttled p.1, now with
    | none, true => { s with recl.throttled := Tab.set s.recl.throttled p.1 s.now }
    | some t0, false =>
      (({ s with recl.throttled := Tab.del s.recl.throttled p.1 } : State).pbTenant p.1 3 (s.now - t0)).retryParked p.1
    | _, _ => s) s

/-! Erases (R166, R173). -/

/-- The released bolts whose intent waits for its bank of the Hem store (R173). -/
def State.askedBolts (s : State) : List Nat :=
  s.hem.banks.flatMap (fun p => (p.2.op.toList ++ p.2.prog.toList ++ p.2.queue).filterMap (fun o => match o.what with
    | .intent b => some b
    | _ => none))

/-- A group's first bolt in RELEASED whose intent has not been asked for: the head of its erase queue (R166, R560). -/
def State.eraseHead (s : State) (g : Nat) : Option Nat :=
  let asked := s.askedBolts
  let mine := ((s.bolts.table.map (·.1) ++ asked).filter (fun b => decide (boltGroup b = g))).map boltIndex
  let dflt := if s.dfltSt g = .released ∧ s.presentGroups.contains g then
      (match lowestFree mine 0 (6 + s.logPerGroup) with
        | some i => [boltNo g i]
        | none => match lowestFree mine s.firstUser s.userPerGroup with
          | some i => [boltNo g i]
          | none => [])
    else []
  let rel := (s.bolts.table.filter (fun p => decide (boltGroup p.1 = g ∧ p.2.st = .released) && !asked.contains p.1)).map (·.1)
  (rel ++ dflt).foldl (fun acc b => match acc with
    | none => some b
    | some a => if eraseBefore s b a then some b else some a) none

/-- The erase of a bolt issued to its 32 units; a failed die's column counts as done (R173). -/
def State.issueErase (s : State) (b : Nat) : State :=
  let g := boltGroup b
  let failed := s.failedCols g
  let s := s.updBolt b (fun x => { x with st := .erasing, ec := x.ec + 1, passed := failed })
  let s := { s with dies.nand := s.dies.nand.filter (fun p => decide (p.1 / 2 ^ 20 ≠ b)) }
  (List.range 32).foldl (fun s c =>
    if failed.contains c then s
    else
      let u := s.unitOf b c
      let d := s.dieOf g c
      let (op, s) := (s.updDie d (fun x => { x with
        retry := Tab.del x.retry u
        spareEc := if u = boltIndex b then x.spareEc else Tab.upd 0 x.spareEc u (· + 1) })).newOp
      s.submitErase d (EraseRun.fresh b c u 256 op)) s

/-- Bolts of a group in FLOAT. -/
def State.floatCount (s : State) (g : Nat) : Nat := s.countUser g .float

/-- A bolt whose erase is closed leaves ERASING: for the float if that is short, otherwise for ERASED (R166, R167, R173). -/
def State.boltErased (s : State) (b : Nat) : State :=
  let g := boltGroup b
  let x := s.bolt b
  let user := s.isUser (boltIndex b)
  let st : BoltSt := if user ∧ s.floatCount g < 2 then .float else .erased
  let s := s.setBolt b { x with st := st, use := .none, passed := [], urgent := false, closed := false, owner := 0 }
  let s := { s with recl.erasesDone := s.recl.erasesDone + 1 }
  let s := s.pbSample none (if user then 62 else 63) (bucketC (if user then 50 else 500) x.ec)
  let slot := handleSlot x.owner
  let s : State := if x.owner ≠ 0 ∧ (s.tenant slot).isSome ∧ s.handleOf 1 slot = x.owner then
      s.updTenant slot (fun y => { y with fdp := bumpAt y.fdp 2 (32 * s.dp.unitMib * 2 ^ 20) })
    else s
  let s := (s.updFgErase g).wearCheck g
  let s : State := if 4 ≤ boltIndex b ∧ boltIndex b < 6 then
      let all := s.presentGroups.all (fun g => decide ((s.bolt (boltNo g (boltIndex b))).st = .erased))
      { s with supply.setErased := s.supply.setErased.set (boltIndex b - 4) all }
    else s
  if s.isLog (boltIndex b) then (s.updLogState.updThrottle).drainReady else s

/-- A single unit whose erase is closed: counted; a rebuild that waited for it starts its copy (R190). -/
def State.unitErased (s : State) : State := { s with recl.erasesDone := s.recl.erasesDone + 1 }

/-- The first program of a unit's intent has passed: the unit's erase is issued, for its bolt or for a rebuild (R173,
R188). -/
def State.issueUnitErase (s : State) (d : DieId) (u : Nat) : State :=
  let g := s.groupOf d
  let c := s.colOf d
  let (op, s) := (s.updDie d (fun x => { x with
    retry := Tab.del x.retry u
    spareEc := Tab.upd 0 x.spareEc u (· + 1) })).newOp
  let rebuild := s.recl.items.find? (fun i => decide (boltGroup i.bolt = g) &&
    (match i.kind with | .rebuild col unit _ => decide (col = c ∧ unit = u) | _ => false))
  match rebuild with
  | some i => s.submitErase d (EraseRun.fresh (2 ^ 18 + i.id) c u 256 op)
  | none =>
    match s.bolts.table.find? (fun p => decide (boltGroup p.1 = g ∧ p.2.st = .erasing) && p.2.newUnits.contains (c, u)) with
    | some (b, _) => s.submitErase d (EraseRun.fresh b c u 256 op)
    | none => s

/-- What the end of a Hem program brings about, or its second failure (R173, R382). -/
def State.hemDone (s : State) (what : HemWhat) (ok : Bool) : State :=
  if !ok then s.hemFailed
  else match what with
    | .intent b => ((s.openIntent (intentBolt b)).2).issueErase b
    | .unitIntent k u => ((s.openIntent (intentUnit (dieOfKey k) u)).2).issueUnitErase (dieOfKey k) u
    | .close q =>
      match s.bolts.intents.find? (fun p => decide (p.1 = q)) with
      | none => s
      | some (_, target) =>
        let s := { s with bolts.intents := s.bolts.intents.filter (fun p => decide (p.1 ≠ q)) }
        if target / 2 ^ 32 = 1 then s.boltErased (target % 2 ^ 32) else s.unitErased
    | _ => s

/-- The bank of the gap position (R385). -/
def State.gapBank (s : State) : Nat := (4104 + s.hem.gap) / 4096

/-- Whether a logical sector is the source of a window move under way: its programs wait for the move (R385). -/
def State.moves (s : State) (l : Nat) : Bool :=
  let src := if s.hem.gap = 0 then 12279 else s.hem.gap - 1
  let b := s.hemBank s.gapBank
  decide (s.position l = src) && ((b.op.toList ++ b.queue).any (fun o => decide (o.what = .gap)))

/-- A Hem program of the erase-intent journal: made at once where its bank is idle, else queued; a sector of the ring is
erased before it is used again (R174); none is started after early warning (R380, R388). -/
def State.hemProgram (s : State) (what : HemWhat) (ok : Bool) : State :=
  let l := (s.bolts.intentSeq + 1) / 512 % 16
  let k := if s.moves l then s.gapBank else s.recordBank l
  if s.lastCall then s
  else
    let b := s.hemBank k
    if b.idle && what.opens && s.intentErases then
      s.setHemBank k { b with op := some (HemOp.of true .rewrite), queue := [HemOp.of false what] }
    else if b.idle then s.hemDone what ok
    else s.setHemBank k { b with queue := b.queue ++ [HemOp.of false what] }

/-- Whether a block erase of the whole media runs (R433). -/
def State.blockErasing (s : State) : Bool := s.san.s.running && !s.san.s.drain && decide (s.san.s.action = 2)

/-- A released bolt's erase begun: its intent word is programmed (R173). -/
def State.startErasing (s : State) (b : Nat) (ok : Bool) : State := s.hemProgram (.intent b) ok

/-- A single unit's erase begun with its intent word, which waits where a sector of the ring still holds an open word (R173, R174). -/
def State.unitIntent (s : State) (d : DieId) (u : Nat) (ok : Bool) : State :=
  if s.intentRoom then s.hemProgram (.unitIntent (dieKey d) u) ok
  else { s with bolts.intentWait := s.bolts.intentWait ++ [(dieKey d, u)] }

/-- Single units whose intent waited go on once the ring has room (R174). -/
def State.serveIntents (s : State) : State :=
  let ws := s.bolts.intentWait
  ws.foldl (fun s p => s.unitIntent (dieOfKey p.1) p.2 true) { s with bolts.intentWait := [] }

/-! Failed dies (R72, R127, R187). -/

/-- The chunk of a column whose die has failed passes to the accumulator of its half-stripe while that is open, and is settled where the
parity has already passed (R127). -/
def State.passToAccum (s : State) (p : ProgOp) : State :=
  match s.wr.accums.find? (fun a => decide (a.bolt = p.bolt ∧ a.half = p.column / 16 ∧ a.row = p.row)) with
  | some a => s.setAccum { a with held := a.held ++ [p] }
  | none => s.settleSectors .accumulator p

/-- A program that a failed die takes with it (R127): a data chunk passes to the accumulator while its half-stripe is open,
and is settled where its parity has already passed; a parity unit is not programmed; a spill goes to the next die. -/
def State.orphanProg (s : State) (p : ProgOp) : State :=
  match p.kind with
  | .chunk | .pad => s.passToAccum p
  | .raw => if p.column % 16 = parityCol p.bolt then s.respond p.opId true 0 else s.passToAccum p
  | .parity =>
    match s.wr.accums.find? (fun a => decide (a.bolt = p.bolt ∧ a.half = p.column / 16)) with
    | some a => (a.held.foldl (State.settleSectors · .accumulator) (s.clearAccum p.bolt (p.column / 16))).drainReady
    | none => s
  | .spill => s.spillOne (boltGroup p.bolt) p.bolt p.writer p.keys
  | _ => s

/-- What a second failed die of a bolt does to its zone (R120, R127). -/
def State.zoneAfterFailure (s : State) (b slot z : Nat) : State :=
  let cols := s.failedCols (boltGroup b)
  let lowHalf := (cols.filter (fun c => decide (c < 16))).length
  let highHalf := (cols.filter (fun c => decide (16 ≤ c))).length
  if 2 ≤ lowHalf ∨ 2 ≤ highHalf then s.zoneOffline slot z
  else if lowHalf = 1 ∧ highHalf = 1 ∧ ((s.tenantD slot).zone z).st.active then s.zoneReadOnly slot z
  else s

/-- A die fails (R72): its reads are darned, its programs settled by R127, its erases count as done, its group is degraded
and its zones' bolts are queued for relocation (R187). -/
def State.failDie (s : State) (d : DieId) : State :=
  let x := s.die d
  if x.failed then s
  else
    let g := s.groupOf d
    let s := (s.setDie d { x with
      failed := true
      recovering := false
      progs := []
      reading := []
      dataOut := false
      prog := none
      erase := none
      eraseQ := []
      token := false
      ledger := .idle }).busDrop d
    let s := x.reading.foldl (fun s r =>
      if r.darn ≠ 0 then
        (match s.rd.darns.find? (fun n => decide (n.id = r.darn)) with | none => s | some n => s.darnFailed n)
      else
        let (s, ds) := s.mustDarn d r .mandatory false
        ds.foldl State.settle s) s
    let comps := (s.die d).reads.filter (fun r => decide (r.darn ≠ 0))
    let s := s.updDie d (fun y => { y with reads := y.reads.filter (fun r => decide (r.darn = 0)) })
    let s := comps.foldl (fun s r =>
      match s.rd.darns.find? (fun n => decide (n.id = r.darn)) with | none => s | some n => s.darnFailed n) s
    let s := (s.settle d).enterOverdraft g
    let s := x.prog.toList.foldl (fun s p => if (s.bolt p.bolt).releasePending then s.unpin p.bolt else s) s
    let s := (x.prog.toList ++ x.progs).foldl State.orphanProg s
    let zones := (s.bolts.table.filter (fun p => decide (boltGroup p.1 = g ∧ p.2.st = .bound))).filterMap (fun p =>
      match p.2.use with | .zone t z => some (p.1, (t, z)) | _ => none)
    let s := zones.foldl (fun s q => s.zoneAfterFailure q.1 q.2.1 q.2.2) s
    let s := zones.foldl (fun s q =>
      if (s.bolt q.1).st = .bound ∧ !s.recl.items.any (fun i => decide (i.kind = .degraded ∧ i.bolt = q.1)) then
        s.queueItem .degraded q.1 else s) s
    ((x.erase.toList ++ x.eraseQ).foldl (fun s e =>
      if e.src ≠ 256 then s.respond e.opId true 0
      else if e.bolt < 2 ^ 18 then s.updBolt e.bolt (fun y => { y with passed := addOnce y.passed (s.colOf d) })
      else s) s).updSpare

/-- A unit retired, and the spare that takes its place; with none left the die fails (R188, R189). -/
def State.retireUnit (s : State) (d : DieId) (u : Nat) (onErase : Bool) : Option Nat × State :=
  let s := s.updDie d (fun x => { x with
    retired := addOnce x.retired u
    retiredErase := if onErase then x.retiredErase + 1 else x.retiredErase })
  let s : State := if onErase then { s with recl.retiredErase := s.recl.retiredErase + 1 }
    else { s with recl.retiredProgram := s.recl.retiredProgram + 1 }
  match s.takeSpare d with
  | none => (none, s.failDie d)
  | some (v, s) => (some v, s.updSpare)

/-- The close of a bolt's intent once every column has passed (R173); after early warning it stays open (R175). -/
def State.closeIfDone (s : State) (b : Nat) (ok : Bool) : State :=
  let x := s.bolt b
  if x.st = .erasing ∧ (List.range 32).all (fun c => x.passed.contains c || s.dieFailed (s.dieOf (boltGroup b) c)) then
    match s.intentOf (intentBolt b) with
    | none => s
    | some q => s.hemProgram (.close q) ok
  else s

/-! Relocations (R169, R172, R179, R183, R187). -/

/-- An item by number. -/
def State.item (s : State) (id : Nat) : Option Item := s.recl.items.find? (fun i => decide (i.id = id))

/-- The state with an item replaced. -/
def State.setItem (s : State) (it : Item) : State :=
  { s with recl.items := s.recl.items.map (fun i => if i.id = it.id then it else i) }

/-- The state without an item; the idle timer restarts where the item kept it from running (R461). -/
def State.dropItem (s : State) (id : Nat) : State :=
  let held := s.recl.items.any (fun i => decide (i.id = id ∧ i.urg ≠ .background))
  { s with
    recl.items := s.recl.items.filter (fun i => decide (i.id ≠ id))
    pow.idleUs := if held then s.now else s.pow.idleUs }

/-- Whether an item kind needs the float (R168). -/
def ItemKind.needsFloat : ItemKind → Bool
  | .merge _ _ _ => true
  | .refreshNormal => true
  | .refreshUrgent => true
  | .wear => true
  | _ => false

/-- The rank of an item among those of its group (R169). -/
def Item.rank (i : Item) : Nat :=
  match i.kind with
  | .refreshUrgent => 1
  | .merge _ _ _ => if i.urg = .background then 4 else 2
  | .refreshNormal => if i.urg = .urgent then 1 else 3
  | .degraded => 5
  | _ => 6

/-- The tenant that a bolt belongs to. -/
def BoltUse.tenant : BoltUse → Option Nat
  | .zone t _ => some t
  | .region t _ => some t
  | .log t => some t
  | _ => Option.none

/-- The sectors of a bolt on NAND, by offset, each with its place. -/
def State.boltSectors (s : State) (b : Nat) : List (Nat × Nat) :=
  (s.dies.nand.filter (fun p => decide (p.1 / 2 ^ 20 = b))).map (fun p => (p.1 % 2 ^ 20, p.1))

/-- The sectors that a merge of region bolt `x` copies: its newest log copies, else the old region bolt's (R179). -/
def State.mergeSectors (s : State) (slot x : Nat) : List (Nat × Nat) :=
  let cap := s.dp.zoneCap
  let logs := (s.wr.convMap.filter (fun p => decide (keyTenant p.1 = slot ∧ keyLba p.1 / max 1 cap = x))).map (fun p =>
    (keyLba p.1 % max 1 cap, p.2))
  let old := match (s.tenantD slot).regions.find? (fun r => decide (r.x = x)) with
    | none => []
    | some r => (s.boltSectors r.bolt).filter (fun p => !logs.any (fun q => decide (q.1 = p.1)))
  sortOn (fun a b => decide (a.1 ≤ b.1)) (logs ++ old)

/-- The program unit of a bolt that a sector to be copied lies in: its chunk, or, from 65,536 up, the parity unit of a half and
row. -/
def State.copyUnit (s : State) (b o : Nat) : Nat := if o < 983040 then o / max 1 (s.unitSectors b) else 65536 + (o - 983040) / 32

/-- The row of a bolt that a sector to be copied lies in. -/
def State.rowOf (s : State) (b o : Nat) : Nat :=
  if o < 983040 then o / max 1 (s.unitSectors b) / 30 else (o - 983040) / 32 % 1024

/-- The column of a bolt that a program unit of a copy goes to. -/
def unitColumn (b k : Nat) : Nat := if k < 65536 then chunkColumn b k else 16 * ((k - 65536) / 1024) + parityCol b

/-- The half of a program unit of a copy. -/
def unitHalf (k : Nat) : Nat := if k < 65536 then chunkHalf k else (k - 65536) / 1024

/-- Whether an item is a column rebuild. -/
def ItemKind.isRebuild : ItemKind → Bool
  | .rebuild _ _ _ => true
  | _ => false

/-- The bolt that an item programs: its own for a rebuild, otherwise its target. -/
def Item.place (it : Item) : Nat := if it.kind.isRebuild then it.bolt else it.target

/-- The program units of a row that an item copies: a rebuild those of its column, a merge the complete row (R179), a relocation the
complete half-rows and what has been programmed of an open one, whose parity unit the zone's writes make (R126, R184). -/
def State.rowUnits (s : State) (it : Item) (row : Nat) (cur : List (Nat × Nat)) : List Nat :=
  let chunks := (List.range 30).map (fun j => 30 * row + j)
  let parities := [65536 + row, 65536 + 1024 + row]
  match it.kind with
  | .rebuild col _ _ => (chunks ++ parities).filter (fun k => decide (unitColumn it.bolt k = col))
  | .merge _ _ _ => chunks ++ parities
  | _ => (chunks ++ parities).filter (fun k =>
      (s.openStripe it.bolt (unitHalf k) row).isNone || cur.any (fun p => decide (s.copyUnit it.place p.1 = k)))

/-- Ready program units of background items in a half (R171). -/
def State.backgroundReady (s : State) (g h : Nat) : Nat :=
  (List.range 16).foldl (fun n c => n + ((s.die (s.dieOf g (16 * h + c))).progs.filter (fun p =>
    p.isRecl && decide (s.urgOf p.item = .background))).length) 0

/-- Whether an item may have a further row of 16 units ready in a half: a background item within 32 (R171). -/
def State.mayAddRow (s : State) (it : Item) : Bool :=
  decide (it.urg ≠ .background) || [0, 1].all (fun h => decide (s.backgroundReady (boltGroup it.place) h + 16 ≤ 32))

/-- The sectors of a relocation program lie in its target, and their swatches return (R115, R172, R179). -/
def State.relocPlace (s : State) (p : ProgOp) : State :=
  let s := p.keys.foldl (fun s e =>
    let lost := decide (2 ^ 64 ≤ e.2)
    match Tab.find s.dies.nand (e.2 % 2 ^ 64) with
    | none => s
    | some x => { s with dies.nand := Tab.set s.dies.nand e.1 { x with lost := x.lost || lost } }) s
  let s := { s with wr.reclUsed := s.wr.reclUsed - p.count }
  { s with recl.items := s.recl.items.map (fun (i : Item) => if i.id = p.item then { i with left := i.left - 1 } else i) }

/-- A relocation program brought to its die, ahead of host programs where its item is urgent (R170); the unit of a failed die's
column is not programmed, its content held by the parity (R127). -/
def State.submitReloc (s : State) (it : Item) (p : ProgOp) : State :=
  let d := s.dieOf (boltGroup p.bolt) p.column
  if s.dieFailed d then s.relocPlace p
  else
    let (op, s) := s.newOp
    let p := { p with opId := op }
    if it.urg = .urgent then (s.enqUrgentProg d p).settle d else s.submitProg d p

/-- One program unit of an item's copy queued with the sectors read for it; one with no sector is filler, or the parity of its
half-row (R172, R179). -/
def State.queueUnit (s : State) (it : Item) (k : Nat) (es : List (Nat × Nat)) : State :=
  let c := unitColumn it.place k
  s.submitReloc it { (default : ProgOp) with
    bolt := it.place
    column := c
    row := if k < 65536 then chunkRow k else (k - 65536) % 1024
    kind := .reloc
    slc := s.isSlc it.place
    writer := 1024
    count := es.length
    chunk := k
    keys := es.map (fun p => (nandKey it.place p.1, p.2))
    item := it.id
    unit := match it.kind with | .rebuild _ v _ => v | _ => s.unitOf it.place c
    src := 256 }

/-- The units of a row's copy that now can be queued: filler units, units all of whose sectors have been read, and the parity unit of a
half-row that has nothing more to come. -/
def State.queueUnits (s : State) (it : Item) (units : List Nat) (rest : List (Nat × Nat)) : State :=
  let ready := units.filter (fun k => !rest.any (fun p =>
    decide (s.copyUnit it.place p.1 = k) || (decide (65536 ≤ k) && !it.kind.isRebuild && decide (unitHalf (s.copyUnit it.place p.1) = unitHalf k))))
  ready.foldl (fun s k => s.queueUnit it k (it.cur.filter (fun p => decide (s.copyUnit it.place p.1 = k)))) s

/-- The sectors at some places read for an item (R172). -/
def State.readPlaces (s : State) (it : Item) (places : List Nat) : State :=
  let owner := ((s.bolt it.bolt).use.tenant).getD 1024
  (s.groupPages (places.map (fun p => (p / 2 ^ 20, p % 2 ^ 20)))).foldl (fun s g =>
    s.subRead .internal it.id owner s.now (decide (it.urg = .urgent)) g.1 g.2.1 g.2.2) s

/-- The next row of an item's copy begun: its reads queued, its programs counted, what needs no read queued at once. The
reclamation class must supply the swatches (R171, R172). -/
def State.nextRow (s : State) (it : Item) : State :=
  let cur := it.snapshot.takeWhile (fun p => decide (s.rowOf it.place p.1 ≤ it.row))
  if it.rows ≤ it.row ∨ !s.mayAddRow it then s
  else if s.reclClass < s.wr.reclUsed + cur.length then
    (if it.short then s
     else ({ s with mem.allocFails := bumpAt s.mem.allocFails 1 1 } : State).setItem { it with short := true })
  else
    let units := s.rowUnits it it.row cur
    let next := { it with
      row := it.row + 1
      snapshot := it.snapshot.drop cur.length
      cur := cur
      got := []
      short := false
      left := it.left + units.length }
    let s := ({ s with wr.reclUsed := s.wr.reclUsed + cur.length } : State).setItem next
    let s := s.noteLow 1 (s.reclClass - s.wr.reclUsed)
    (s.queueUnits next units cur).readPlaces it (cur.map (·.2))

/-- A region bolt index bound to a new bolt. -/
def setRegion (rs : List RegionBolt) (x b : Nat) : List RegionBolt :=
  rs.filter (fun r => decide (r.x ≠ x)) ++ [⟨x, b⟩]

/-- Full log bolts with no valid sector released at once (R178). -/
def State.releaseVictims (s : State) : State :=
  let full := s.bolts.table.filter (fun p => decide (p.2.fillSeq ≠ 0 ∧ p.2.st = .bound) &&
    (match p.2.use with | .log _ => true | _ => false))
  full.foldl (fun s p =>
    let b := p.1
    let valid := s.wr.convMap.any (fun q => decide (q.2 / 2 ^ 20 = b))
    let busy := s.wr.accums.any (fun a => decide (a.bolt = b)) || decide (s.inFlight b ≠ 0) ||
      s.dies.table.any (fun q => q.2.progs.any (fun r => decide (r.bolt = b))) ||
      s.wr.ready.any (fun r => decide (r.bolt = b))
    if valid || busy then s else s.releaseBolt b) s

/-- The accumulators of a bolt carried over to the bolt its zone goes on in (R184). -/
def State.moveAccums (s : State) (old new : Nat) : State :=
  { s with
    wr.accums := s.wr.accums.map (fun a =>
      if a.bolt = old then
        { a with
          bolt := new
          chunks := ((List.range 30).filter (fun j => decide (j % 2 = a.half) &&
            a.chunks.contains (chunkColumn old (30 * a.row + j)))).map (fun j => chunkColumn new (30 * a.row + j)) }
      else a)
    wr.ready := s.wr.ready.map (fun p =>
      if p.bolt = old then
        { p with bolt := new, column := chunkColumn new p.chunk, unit := s.unitOf new (chunkColumn new p.chunk) }
      else p) }

/-- The swap that ends an item (R179, R183, R187, R190). -/
def State.finishItem (s : State) (it : Item) : State :=
  let old := s.bolt it.bolt
  match it.kind with
  | .merge slot x _ =>
    let s := s.dropItem it.id
    let prev := (s.tenantD slot).regions.find? (fun r => decide (r.x = x))
    let s := s.updTenant slot (fun t => { t with regions := setRegion t.regions x it.target })
    let s := s.updBolt it.target (fun y => { y with st := .bound, use := .region slot x })
    let newer := fun (p : Nat × Nat) =>
      decide (keyTenant p.1 = slot ∧ keyLba p.1 / max 1 s.dp.zoneCap = x) &&
        (match Tab.find s.dies.nand p.2, Tab.find s.dies.nand (nandKey it.target (keyLba p.1 % max 1 s.dp.zoneCap)) with
          | some a, some b => decide (a.gen ≤ b.gen)
          | _, _ => false)
    let s := { s with wr.convMap := s.wr.convMap.filter (fun p => !newer p), recl.mergesDone := s.recl.mergesDone + 1 }
    let s : State := match prev with
      | none => s
      | some r => s.releaseBolt r.bolt
    (s.releaseVictims.updLogState).updThrottle
  | .rebuild col unit _ =>
    let s := s.updBolt it.bolt (fun y => { y with units := Tab.set y.units col unit })
    (s.dropItem it.id).drainReady
  | k =>
    let s := s.dropItem it.id
    let s := s.updBolt it.target (fun y => { y with st := .bound, use := old.use, closed := old.closed })
    let s : State := match old.use with
      | .zone t z => s.updZone t z (fun y => { y with bolt := some it.target })
      | .region t x => s.updTenant t (fun y => { y with regions := setRegion y.regions x it.target })
      | _ => s
    let s := s.releaseBolt it.bolt
    let s : State := match k with
      | .degraded => { s with recl.degradedMoves := s.recl.degradedMoves + 1 }
      | .wear => { s with recl.wearMoves := s.recl.wearMoves + 1 }
      | _ => { s with recl.refreshesDone := s.recl.refreshesDone + 1 }
    (s.moveAccums it.bolt it.target).drainReady

/-- A column rebuild given up with its bolt: the unit map names the spare, so that the retired unit is used no more (R188). -/
def State.keepSpare (s : State) (it : Item) : State :=
  match it.kind with
  | .rebuild col unit _ => s.updBolt it.bolt (fun y => { y with units := Tab.set y.units col unit })
  | _ => s

/-- An item abandoned: its queued programs and reads are withdrawn and their swatches return, its target is released, and the old
sources remain (R115, R180, R184, R185). -/
def State.abandonItem (s : State) (it : Item) : State :=
  let mine : ProgOp → Bool := fun p => decide (p.item = it.id ∧ p.kind = .reloc)
  let queued := s.dies.table.foldl (fun n q => n + (q.2.progs.filter mine).foldl (fun m p => m + p.count) 0) 0
  let s := (s.dropItem it.id).keepSpare it
  let s : State := { s with
    wr.reclUsed := s.wr.reclUsed - (it.cur.length + queued)
    dies.table := s.dies.table.map (fun (q : Nat × Die) => (q.1, { q.2 with
      progs := q.2.progs.filter (fun p => !mine p)
      reads := q.2.reads.filter (fun r => !decide (r.cls = .internal ∧ r.cmd = it.id)) })) }
  let s : State := match it.kind with
    | .merge _ _ _ => { s with recl.mergesAbandoned := s.recl.mergesAbandoned + 1 }
    | _ => s
  if it.running ∧ (s.bolt it.target).st = .target then s.releaseZoneBolt it.target else s

/-- The held programs of a column made again: the failed one in the spare (R130, R190). -/
def State.submitHeld (s : State) (p : ProgOp) (unit : Nat) : State :=
  let d := s.dieOf (boltGroup p.bolt) p.column
  let (op, s) := s.newOp
  (s.enqUrgentProg d { p with unit := unit, opId := op }).settle d

/-- An open half-stripe's parity has been rebuilt in its accumulator from its programmed data units; its parity unit follows once every
chunk has been XORed (R126). -/
def State.parityRebuilt (s : State) (b h : Nat) : State :=
  match s.wr.accums.find? (fun a => decide (a.bolt = b ∧ a.half = h)) with
  | none => s
  | some a => if a.chunks.length = 15 ∧ !a.queued then s.parityReady a 1024 else s

/-- Whether an item only reads (R168). -/
def ItemKind.readsOnly : ItemKind → Bool
  | .patrol => true
  | .parityRebuild _ => true
  | _ => false

/-- An item goes on with its next row, makes its failed program, or is finished once everything has passed (R171, R179, R190). -/
def State.itemStep (s : State) (it : Item) : State :=
  if !it.cur.isEmpty then s
  else if it.row < it.rows then s.nextRow it
  else if it.left ≠ 0 then s
  else match it.held, it.kind with
    | p :: r, .rebuild _ unit row =>
      if p.row = row then (s.setItem { it with held := r, left := 1 }).submitHeld p unit
      else r.foldl (fun s q => s.submitHeld q unit) ((s.finishItem it).submitHeld p unit)
    | _, .patrol => s.dropItem it.id
    | _, .parityRebuild h => (s.dropItem it.id).parityRebuilt it.bolt h
    | _, _ => s.finishItem it

/-- An item by number goes on. -/
def State.stepItem (s : State) (id : Nat) : State :=
  match s.item id with
  | none => s
  | some it => if it.running then s.itemStep it else s

/-- The units of an item whose every sector has been read are queued (R172). -/
def State.queueCopied (s : State) (it : Item) : State :=
  let unread := fun (k : Nat) => it.cur.any (fun p => decide (s.copyUnit it.place p.1 = k) && !it.got.contains p.2)
  let rest := it.cur.filter (fun p => unread (s.copyUnit it.place p.1))
  let units := s.rowUnits it (it.row - 1) it.cur
  let had := units.filter (fun k => it.cur.any (fun p =>
    decide (s.copyUnit it.place p.1 = k) || (decide (65536 ≤ k) && decide (unitHalf (s.copyUnit it.place p.1) = unitHalf k))))
  (((s.setItem { it with cur := rest }).queueUnits it had rest)).stepItem it.id

/-- A place marked as one whose copy is lost: its content could not be read (R159, R368). -/
def lostPlace (p : Nat) : Nat := p + 2 ^ 64

/-- One sector read for an item: it is taken up, or, where it could not be read, a refresh or wear move is abandoned with its bolt
deferred, the patrol has it relocated (R159), and any other item carries the sector on as lost (R185, R186, log 20). -/
def State.takeUp (s : State) (id place : Nat) (ok : Bool) : State :=
  match s.item id with
  | none => s
  | some it =>
    if it.kind.readsOnly then
      let s : State := if ok ∨ it.kind ≠ .patrol then s else s.queueRefresh it.bolt true
      (s.setItem { it with cur := it.cur.filter (fun p => decide (p.2 ≠ place)) }).stepItem id
    else if ok then s.queueCopied { it with got := addOnce it.got place }
    else if it.kind.isRefresh ∨ it.kind = .wear then
      (s.abandonItem it).updBolt it.bolt (fun x => { x with deferred := true })
    else
      s.queueCopied { it with
        cur := it.cur.map (fun p => if p.2 = place then (p.1, lostPlace place) else p)
        got := addOnce it.got (lostPlace place) }

/-- The sectors that reads have brought for items taken up (R172). -/
def State.pumpInbox (s : State) : State :=
  s.recl.inbox.foldl (fun s e => s.takeUp e.1 e.2.1 e.2.2) { s with recl.inbox := [] }

/-- The rebuild at boot of an open half-stripe's parity queued, with the reads of its programmed data units (R126, R168, R172). -/
def State.queueParityRebuild (s : State) (a : Accum) : State :=
  let u := max 1 (s.unitSectors a.bolt)
  let cur := (s.boltSectors a.bolt).filter (fun q =>
    decide (chunkRow (q.1 / u) = a.row) && a.chunks.contains (chunkColumn a.bolt (q.1 / u)))
  let id := s.recl.nextItem
  let s := s.queueItem (.parityRebuild a.half) a.bolt
  if cur.isEmpty then (s.dropItem id).parityRebuilt a.bolt a.half
  else
    let s := { s with recl.items := s.recl.items.map (fun (i : Item) =>
      if i.id = id then { i with running := true, cur := cur } else i) }
    let owner := ((s.bolt a.bolt).use.tenant).getD 1024
    (s.groupPages (cur.map (fun p => (p.2 / 2 ^ 20, p.2 % 2 ^ 20)))).foldl (fun s g =>
      s.subRead .internal id owner s.now true g.1 g.2.1 g.2.2) s

/-- A relocation program has passed: its sectors lie in the target, and the item goes on (R179). -/
def State.relocPassed (s : State) (p : ProgOp) : State := (s.relocPlace p).stepItem p.item

/-- Rows of other items that waited for reclamation swatches, or for the limit of ready units, go on (R171). -/
def State.retryRows (s : State) : State :=
  s.recl.items.foldl (fun s i =>
    match s.item i.id with
    | none => s
    | some it => if it.running ∧ it.cur.isEmpty ∧ it.row < it.rows then s.nextRow it else s) s

/-- Whether an item may start now among those of its group: no other runs there and none of higher rank waits (R169). -/
def State.mayStart (s : State) (it : Item) (g : Nat) : Bool :=
  !it.running &&
    s.recl.items.all (fun i => decide (i.id = it.id) || !(i.kind.needsFloat || decide (i.kind = .degraded)) ||
      decide (boltGroup i.bolt ≠ g) ||
      (!i.running && decide (it.rank < i.rank ∨ (it.rank = i.rank ∧ it.id < i.id))))

/-- An item started into a target, which becomes TARGET (R166). -/
def State.startItem (s : State) (it : Item) (target : Nat) (sectors : List (Nat × Nat)) : State :=
  let s := s.updBolt target (fun x => { x with st := .target, use := .reloc it.bolt })
  let s := s.updFgErase (boltGroup target)
  let rows := match it.kind with
    | .merge _ _ _ => s.dp.rows
    | _ => ((maxOf (sectors.map (fun p => s.rowOf target p.1))).map (· + 1)).getD 0
  let it := { it with running := true, target := target, snapshot := sectors, row := 0, rows := rows }
  (s.setItem it).itemStep it

/-- The target of a degraded relocation: an ERASED bolt in a group of the tenant's set that is not degraded and has room,
the one with the most ERASED bolts (R187). -/
def State.degradedTarget (s : State) (slot : Nat) : Option Nat :=
  let t := s.tenantD slot
  let gs := (s.withRoom slot t t.groups).filter (fun g => !s.degraded g && decide (s.erasedCount g ≠ 0))
  match gs.foldl (fun (acc : Option Nat) g => match acc with
      | none => some g
      | some h => if s.erasedCount h < s.erasedCount g ∨ (s.erasedCount h = s.erasedCount g ∧ g < h) then some g else some h)
    none with
  | none => none
  | some g => s.pickErased g

/-- Whether a queued program or one in flight belongs to a bolt. -/
def State.boltBusy (s : State) (b : Nat) : Bool :=
  decide (s.inFlight b ≠ 0) || s.dies.table.any (fun q => q.2.progs.any (fun p => decide (p.bolt = b)))

/-- A refresh, degraded relocation or wear move begins where R169, R184 and R187 let it. -/
def State.startRelocation (s : State) (it : Item) : State :=
  let b := it.bolt
  let x := s.bolt b
  let g := boltGroup b
  let openZone : Bool := match x.use with | .zone t z => ((s.tenantD t).zone z).st.active | _ => false
  if x.st ≠ .bound ∨ !s.mayStart it g ∨ s.boltBusy b ∨ (it.kind = .refreshNormal ∧ openZone) then s
  else match it.kind with
    | .degraded => match x.use with
      | .zone t _ => match s.degradedTarget t with
        | none => s
        | some target => s.startItem it target (s.boltSectors b)
      | _ => s
    | _ => match s.pickFloat g with
      | none => s
      | some target => s.startItem it target (s.boltSectors b)

/-- The group that a merge of a region bolt runs in: its present bolt's, else one of the tenant's set with room for its
region (R89, log 21). -/
def State.mergeGroup (s : State) (slot x : Nat) : Option Nat :=
  let t := s.tenantD slot
  match t.regions.find? (fun r => decide (r.x = x)) with
  | some r => some (boltGroup r.bolt)
  | none => (sortOn (· ≤ ·) t.groups).find? (fun g =>
    decide (s.regionUse slot g < shareOf t.groups t.conv g ∧ s.heldIn slot g < reservedBy t g))

/-- A merge begins where its group's float and R169 let it. -/
def State.startMerge (s : State) (it : Item) : State :=
  match it.kind with
  | .merge slot x _ =>
    match s.mergeGroup slot x with
    | none => s
    | some g =>
      if !s.mayStart it g then s
      else match s.pickFloat g with
        | none => s
        | some target => s.startItem it target (s.mergeSectors slot x)
  | _ => s

/-- The merges of the victim log bolt queued while the log state asks for them: the full log bolt filled longest ago,
its region bolts by valid sectors (R177, R178). -/
def State.queueMerges (s : State) : State :=
  if s.recl.logState = 0 ∨ s.recl.items.any (fun i => match i.kind with | .merge _ _ _ => true | _ => false) then s
  else
    let full := s.bolts.table.filter (fun p => decide (p.2.fillSeq ≠ 0 ∧ p.2.st = .bound) &&
      (match p.2.use with | .log _ => true | _ => false))
    match full.foldl (fun (acc : Option (Nat × Bolt)) p => match acc with
        | none => some p
        | some q => if p.2.fillSeq < q.2.fillSeq then some p else some q) none with
    | none => s
    | some (b, _) =>
      let xs := (s.wr.convMap.filter (fun q => decide (q.2 / 2 ^ 20 = b))).map (fun q =>
        (keyTenant q.1, keyLba q.1 / max 1 s.dp.zoneCap))
      let order := sortOn (fun a c => decide (xs.count c ≤ xs.count a)) xs.eraseDups
      order.foldl (fun s k =>
        let src := match (s.tenantD k.1).regions.find? (fun r => decide (r.x = k.2)) with
          | some r => r.bolt
          | none => boltNo ((s.mergeGroup k.1 k.2).getD 0) 0
        s.queueItem (.merge k.1 k.2 b) src) s

/-- Items whose bolt is no longer what they act on are abandoned (R180, R184). -/
def State.sweepItems (s : State) : State :=
  s.recl.items.foldl (fun s it =>
    let st := (s.bolt it.bolt).st
    let gone : Bool := match it.kind with
      | .merge slot x _ => decide ((s.tenant slot).isNone ∨ (s.tenantD slot).conv ≤ x)
      | .rebuild _ _ _ => decide (st ≠ .bound ∧ st ≠ .target ∧ 6 ≤ boltIndex it.bolt)
      | _ => decide (st ≠ .bound)
    if gone then s.abandonItem it else s) s

/-- The merges that run in the groups of a tenant whose set has no free log bolt become urgent, each counted (R170, R182). -/
def State.urgeMerges (s : State) : State :=
  let short := s.host.tenants.filter (fun p => decide (p.2.conv ≠ 0) && p.2.groups.all (fun g => (s.freeLogs g).isEmpty))
  let gs := short.flatMap (fun p => p.2.groups)
  if gs.isEmpty then s
  else
    let due := s.recl.items.filter (fun i => decide (i.urg ≠ .urgent) && (match i.kind with
      | .merge t x _ => (match s.mergeGroup t x with | none => false | some g => gs.contains g)
      | _ => false))
    due.foldl (fun s i => (s.setItem { i with urg := .urgent }).countPromotion) s

/-- The wear spread of every group that has bolts in use looked at (R194). -/
def State.wearChecks (s : State) : State :=
  ((s.bolts.table.map (fun p => boltGroup p.1)).eraseDups).foldl State.wearCheck s

/-- What every change of bolts leaves to do: items swept, victims released, the log state and its throttling looked at,
merges queued (R177-R182), wear levelled (R194), and whatever was waiting let go on. -/
def State.tidy (s : State) : State :=
  let s := ((s.pumpInbox.sweepItems).releaseVictims).updLogState
  ((((s.queueMerges).urgeMerges).updThrottle).retryRows).wearChecks.pump

/-! Program results (R126, R128, R130). -/

/-- The bolt of a die's group whose column a unit is, if any: the bolt whose map names it, or the bolt of its index (R76). -/
def State.columnBolt (s : State) (d : DieId) (u : Nat) : Option Nat :=
  let g := s.groupOf d
  let c := s.colOf d
  match s.bolts.table.find? (fun p => decide (boltGroup p.1 = g) && p.2.units.contains (c, u)) with
  | some (b, _) => some b
  | none => if u < s.dp.positions ∧ s.unitOf (boltNo g u) c = u then some (boltNo g u) else none

/-- The rows below `row` of a column of a bolt, as the sectors that its rebuild copies: its data, or its parity units (R190). -/
def State.columnSectors (s : State) (b c row : Nat) : List (Nat × Nat) :=
  if c % 16 = parityCol b then
    (List.range row).flatMap (fun r => (List.range (s.unitSectors b)).map (fun x =>
      (parityOff (c / 16) r x, nandKey b (parityOff (c / 16) r x))))
  else (s.boltSectors b).filter (fun q =>
    decide (chunkColumn b (q.1 / max 1 (s.unitSectors b)) = c ∧ chunkRow (q.1 / max 1 (s.unitSectors b)) < row))

/-- A unit retired after a failed program of a bolt's column, and the column rebuilt: the spare's intent and erase first, then the copy of
the rows below, then the failed program and those that waited behind it (R188, R190). Where no spare is left the die has failed. -/
def State.rebuildColumn (s : State) (d : DieId) (b row unit : Nat) (failed : List ProgOp) (ok : Bool) : State :=
  let c := s.colOf d
  let later : ProgOp → Bool := fun q => decide (q.bolt = b ∧ q.column = c ∧ q.kind ≠ .spill ∧ q.kind ≠ .raw)
  let waits := (s.die d).progs.filter later
  let again := s.recl.items.filter (fun i => decide (i.bolt = b) && (match i.kind with | .rebuild col _ _ => decide (col = c) | _ => false))
  let s := again.foldl (fun s i => s.dropItem i.id) s
  let s := s.updDie d (fun x => { x with progs := x.progs.filter (fun q => !later q) })
  let held := failed ++ waits ++ again.flatMap (·.held)
  match s.retireUnit d unit false with
  | (none, s) => held.foldl State.orphanProg s
  | (some v, s) =>
    let own := s.columnSectors b c row
    let it : Item := ⟨s.recl.nextItem, .rebuild c v row, b, .urgent, s.now, false, b, 0, own, [], [], held, 0,
      if own.isEmpty then 0 else row, false⟩
    let s := { s with recl.items := s.recl.items ++ [it], recl.nextItem := s.recl.nextItem + 1 }
    s.unitIntent d v ok

/-- A spill's pass: its sectors have a durable copy (R124). -/
def State.spillPassed (s : State) (p : ProgOp) : State :=
  let s := p.keys.foldl (fun s k => match Tab.find s.wr.swatches k.1 with
    | some x => if x.gen = k.2 then { s with dies.spilled := Tab.set s.dies.spilled k.1 x } else s
    | none => s) s
  let s := ((s.unexpose p.keys).unstage p.keys.contains).restoredDone (p.keys.map (·.1))
  { s with wr.partials := s.wr.partials.map (fun q =>
      let n := (p.keys.filter (fun k => q.lbas.any (fun l => decide (secKey q.tenant q.nsid l.1 = k.1 ∧ l.2 = k.2)))).length
      { q with spilled := q.spilled + n, spilling := q.spilling - n }) }

/-- The rebuild whose failed program a program is, made again in the spare: it ends with that program's pass (R190). -/
def State.rebuildPassed (s : State) (p : ProgOp) : State :=
  match s.recl.items.find? (fun i => decide (i.bolt = p.bolt ∧ i.running = true ∧ i.row = i.rows) && (match i.kind with
      | .rebuild c v r => decide (c = p.column ∧ v = p.unit ∧ r = p.row)
      | _ => false)) with
  | none => s
  | some it => (s.setItem { it with left := it.left - 1 }).stepItem it.id

/-- A program has passed (R115, R126, R131, R179). -/
def State.progPassed (s : State) (p : ProgOp) : State :=
  let u := s.unitSectors p.bolt
  let owner := if p.kind = .reloc then ((s.bolt p.bolt).use.tenant).getD p.writer else p.writer
  let s := s.mediaWritten owner (if p.kind = .spill then p.keys.length else u)
  match p.kind with
  | .spill => s.spillPassed p
  | .reloc => (s.relocPassed p).rebuildPassed p
  | .raw => s.respond p.opId true 0
  | .parity =>
    let h := p.column / 16
    let s := match s.wr.accums.find? (fun a => decide (a.bolt = p.bolt ∧ a.half = h ∧ a.row = p.row)) with
      | none => s
      | some a =>
        let s := { s with bolts.closedRows := Tab.set s.bolts.closedRows (p.bolt * 2 + h) p.row }
        (a.held.foldl (State.settleSectors · .accumulator) (s.clearAccum p.bolt h)).drainReady
    s.rebuildPassed p
  | _ => ((s.settleSectors .channel p).rebuildPassed p).retryParked p.writer

/-- A program has failed: its unit is retired and its column rebuilt, and its sectors go elsewhere (R124, R130, R188, R190). -/
def State.progFailed (s : State) (d : DieId) (p : ProgOp) (ok : Bool) : State :=
  match p.kind with
  | .spill =>
    let b := boltNo (s.groupOf d) 3
    (s.rebuildColumn d b 0 p.unit [] ok).spillOne (boltGroup p.bolt) p.bolt p.writer p.keys
  | .raw =>
    let s := match s.columnBolt d p.unit with
      | none => (s.retireUnit d p.unit false).2
      | some b => s.rebuildColumn d b p.row p.unit [] ok
    s.respond p.opId false 0
  | _ => s.rebuildColumn d p.bolt p.row p.unit [p] ok

/-- An adopter that finds a die ready after a confirmed program reads codeword 0 of its row: it is erased, and the program runs again
in full (R211). -/
def State.progAgain (s : State) (d : DieId) : State :=
  let x := s.die d
  match x.prog with
  | none => s
  | some p => ((s.busDropStatus d).setDie d { x with prog := none, progs := p :: x.progs, ledger := .idle, adopted := false }).settle d

/-- An adopter that finds a die ready after a confirmed erase issues it again from the start (R211); its intent word stays open. -/
def State.eraseAgain (s : State) (d : DieId) : State :=
  let x := s.die d
  match x.erase with
  | none => s
  | some e =>
    let e := { e with suspended := false, segmentDone := false, ranUs := 0, resumedUs := s.now }
    (((s.busDropStatus d).setDie d { x with erase := some e, adopted := false }).busRaise d .normal .eraseCmd).busRaise
      d .normal .eraseConfirm

/-- A program's status is read at its die (R128, R142): its token returns, the latency-class reads that waited behind it are counted
(R165), and the die goes on. -/
def State.progStatus (s : State) (d : DieId) (pass ok : Bool) (us : Nat) : State :=
  let x := s.die d
  match x.prog with
  | none => s
  | some p =>
    let waits := x.reads.filter (fun r => decide (r.cls = .latency))
    let s := s.busDropStatus d
    let s := s.setDie d { x with prog := none, token := x.token && !p.takesToken, ledger := .idle, adopted := false, opEndUs := s.now,
                                 reads := x.reads.map (fun r => { r with
                                   sinceProgram := true
                                   progWait := r.progWait || decide (r.cls = .latency) }) }
    let s := waits.foldl (fun s r => s.updTenant r.tenant (fun t =>
      let c := if r.progWait then t.c4 else bumpAt t.c4 8 1
      { t with c4 := c.set 9 (min (max (c.getD 9 0) (s.now - max r.atUs x.progUs)) (2 ^ 32 - 1)) })) s
    let s := s.pbSample none (96 + s.groupOf d) (bucketQ us)
    let s : State := if (s.bolt p.bolt).releasePending then s.unpin p.bolt else s
    let s := if pass then s.progPassed p else s.progFailed d p ok
    let s := s.grantTokens (s.groupOf d) (s.colOf d / 16)
    let s := (List.range 16).foldl (fun s c =>
      let e := s.dieOf (s.groupOf d) (16 * (s.colOf d / 16) + c)
      if (s.die e).token then s.settle e else s) s
    ((s.settle d).retryDarns).serveIntents.tidy

/-! Erase results (R173, R188, R190). -/

/-- A unit's erase has passed at its die: a spare for a released bolt's column enters its unit map (R190). -/
def State.eraseUnitPassed (s : State) (d : DieId) (e : EraseRun) (ok : Bool) : State :=
  let s : State := match s.intentOf (intentUnit d e.unit) with
    | none => s
    | some q => s.hemProgram (.close q) ok
  if e.bolt < 2 ^ 18 then
    (s.updBolt e.bolt (fun x => { x with
      passed := addOnce x.passed e.column
      units := if x.newUnits.contains (e.column, e.unit) then Tab.set x.units e.column e.unit else x.units
      newUnits := x.newUnits.filter (fun p => decide (p.1 ≠ e.column)) })).closeIfDone e.bolt ok
  else
    match s.item (e.bolt - 2 ^ 18) with
    | none => s
    | some it => (s.setItem { it with running := true }).stepItem it.id

/-- A unit's erase has failed at its die: the unit is retired and the next spare erased in its place (R188-R190). -/
def State.eraseUnitFailed (s : State) (d : DieId) (e : EraseRun) (ok : Bool) : State :=
  match s.retireUnit d e.unit true with
  | (none, s) =>
    if e.bolt < 2 ^ 18 then s.closeIfDone e.bolt ok
    else match s.item (e.bolt - 2 ^ 18) with
      | none => s
      | some it => it.held.foldl State.orphanProg (s.dropItem it.id)
  | (some v, s) =>
    let s : State := if e.bolt < 2 ^ 18 then
        s.updBolt e.bolt (fun x => { x with newUnits := Tab.set x.newUnits e.column v })
      else match s.item (e.bolt - 2 ^ 18) with
        | none => s
        | some it => match it.kind with
          | .rebuild c _ r => s.setItem { it with kind := .rebuild c v r }
          | _ => s
    s.unitIntent d v ok

/-- What lay in a unit erased on its own is gone (R201). -/
def State.clearUnit (s : State) (d : DieId) (u : Nat) : State :=
  { s with dies.nand := s.dies.nand.filter (fun p =>
      let b := p.1 / 2 ^ 20
      !(decide (boltGroup b = s.groupOf d ∧ chunkColumn b (p.1 % 2 ^ 20 / max 1 (s.unitSectors b)) = s.colOf d ∧
        s.unitOf b (s.colOf d) = u))) }

/-- An erase's status is read at its die (R173). An erase queued by an ERASE message has no bolt of its own. -/
def State.eraseStatus (s : State) (d : DieId) (pass ok : Bool) (us : Nat) : State :=
  let x := s.die d
  match x.erase with
  | none => s
  | some e =>
    let s := s.busDropStatus d
    let s := s.setDie d { x with erase := none, ledger := .idle, adopted := false, opEndUs := s.now }
    let s : State := if pass then
        (s.pbSample none (128 + s.groupOf d) (bucketQ us)).updDie d (fun y => { y with retry := Tab.del y.retry e.unit })
      else s
    let s := if e.src ≠ 256 then
        (if pass then (s.clearUnit d e.unit).respond e.opId true 0
          else (s.retireUnit d e.unit true).2.respond e.opId false 0)
      else if pass then s.eraseUnitPassed d e ok else s.eraseUnitFailed d e ok
    ((s.settle d).retryDarns).serveIntents.tidy

end Sys2Proof.Machine
end

