-- ==== Sys2Proof/Machine/HemWords.lean ====
section
/-! DEFINITION. The words of the Hem store's rings, bit by bit: erase intents (R174), window pointers (R386), the SVN ratchet (R391),
twin-select words (R393) and sanitise progress (R434). State holds what the newest valid words say; the definitions below give the
words themselves and read them back. A CRC takes the bytes from the most significant one down (DESIGN CHOICE, log 100). -/

namespace Sys2Proof.Machine

/-! Where things lie in the Hem store (R384, R385, R387). -/

/-- What a physical sector holds. -/
inductive HemArea where
  | twinA | twinB | select | pointers | identity | ratchet | reserved | record
  deriving DecidableEq, Repr

/-- The contents of a physical sector. -/
def hemArea (p : Nat) : HemArea :=
  if p < 2048 then .twinA else if p < 4096 then .twinB else if p < 4098 then .select else if p < 4100 then .pointers
  else if p < 4102 then .identity else if p < 4103 then .ratchet else if p < 4104 then .reserved else .record

/-- The bank of a physical sector. -/
def hemBankOf (p : Nat) : Nat := p / 4096

/-- What a logical sector of the record area holds. -/
inductive RecordArea where
  | intents | sanitise | device | keyStoreKey | keys | reserved | objects | retired | patternBook | epochs | selvedge
  deriving DecidableEq, Repr

/-- The contents of a logical sector (R387). -/
def recordArea (l : Nat) : RecordArea :=
  if l < 16 then .intents else if l < 32 then .sanitise else if l < 92 then .device else if l < 94 then .keyStoreKey
  else if l < 158 then .keys else if l < 160 then .reserved else if l < 2208 then .objects else if l < 3232 then .retired
  else if l < 3744 then .patternBook else if l < 6816 then .epochs else if l < 6824 then .selvedge else .reserved

/-- The physical sector of a logical one, through the window as it stands (R385). -/
def State.physicalSector (s : State) (l : Nat) : Nat := 4104 + s.position l

/-- The logical sector in which the closed epochs of a tenant slot begin; each slot has three (R387). -/
def epochSector (slot : Nat) : Nat := 3744 + 3 * slot

/-! Words. -/

/-- The bytes of a number, the most significant first. -/
def bytesBE (n v : Nat) : List Byte := (bytesLE n v).reverse

/-- A word of 56 bits with its CRC-8 below them (R383). -/
def crcWord (hi : Nat) : BitVec 64 := BitVec.ofNat 64 (hi * 256 + crc8 0 (bytesBE 7 hi))

/-- Whether a word carries a MARK and a valid CRC in its lowest byte (R383). -/
def crcGood (mark : Nat) (w : BitVec 64) : Bool :=
  decide (w.toNat / 2 ^ 56 = mark ∧ w = crcWord (w.toNat / 256))

/-! Window pointers (R385, R386). -/

/-- A window pointer word. -/
def pointerWord (start gap seq : Nat) : BitVec 64 :=
  crcWord (0x96 * 2 ^ 48 + start % 2 ^ 14 * 2 ^ 34 + gap % 2 ^ 14 * 2 ^ 20 + seq % 2 ^ 16 * 2 ^ 4)

/-- START, GAP and SEQ of a valid window pointer word. -/
def pointerOf (w : BitVec 64) : Option (Nat × (Nat × Nat)) :=
  if crcGood 0x96 w then some (w.toNat / 2 ^ 42 % 2 ^ 14, (w.toNat / 2 ^ 28 % 2 ^ 14, w.toNat / 2 ^ 12 % 2 ^ 16)) else none

/-- The newest window pointer word. -/
def State.pointerWord (s : State) : BitVec 64 := Machine.pointerWord s.hem.start s.hem.gap s.hem.windowSeq

/-! The SVN ratchet (R391). -/

/-- A ratchet word. -/
def ratchetWord (svn : Nat) : BitVec 64 := crcWord (0x69 * 2 ^ 48 + svn % 2 ^ 16 * 2 ^ 32)

/-- MIN_SVN of a valid ratchet word. -/
def ratchetOf (w : BitVec 64) : Option Nat := if crcGood 0x69 w then some (w.toNat / 2 ^ 40 % 2 ^ 16) else none

/-! Twin-select words (R393). -/

/-- The CRC of a select word: TRIAL is left out. -/
def selectCrc (seq twin fallback mode : Nat) : Nat :=
  crc8 0 (bytesBE 4 (0xC3 * 2 ^ 24 + seq % 2 ^ 16 * 2 ^ 8 + twin % 256) ++ bytesBE 2 (fallback % 256 * 256 + mode % 256))

/-- A twin-select word. -/
def Select.word (x : Select) : BitVec 64 :=
  BitVec.ofNat 64 (0xC3 * 2 ^ 56 + x.seq % 2 ^ 16 * 2 ^ 40 + x.twin % 256 * 2 ^ 32 + (if x.confirmed then 0 else 0xFF) * 2 ^ 24 +
    x.fallback % 256 * 2 ^ 16 + x.mode % 256 * 2 ^ 8 + selectCrc x.seq x.twin x.fallback x.mode)

/-- A valid twin-select word read back; a TRIAL that is not 0x00 does not confirm it (R394). -/
def selectOf (w : BitVec 64) : Option Select :=
  let n := w.toNat
  let x : Select := ⟨n / 2 ^ 40 % 2 ^ 16, n / 2 ^ 32 % 256, decide (n / 2 ^ 24 % 256 = 0), n / 2 ^ 16 % 256, n / 2 ^ 8 % 256⟩
  if n / 2 ^ 56 = 0xC3 ∧ n % 256 = selectCrc x.seq x.twin x.fallback x.mode then some x else none

/-! Erase intents (R174). -/

/-- An erase-intent word by its KIND and TARGET, as the table of open intents holds them. -/
def intentWord (seq target : Nat) (opened : Bool) : BitVec 64 :=
  BitVec.ofNat 64 (0xA5 * 2 ^ 56 + target / 2 ^ 32 % 256 * 2 ^ 48 + target % 2 ^ 32 * 2 ^ 16 + seq % 2 ^ 15 * 2 + opened.toNat)

/-- The open words of the journal, each at its place in the ring of 8,192. -/
def State.openWords (s : State) : List (Nat × BitVec 64) :=
  s.bolts.intents.map (fun p => (p.1 % 8192, intentWord p.1 p.2 true))

/-! Sanitise progress (R434). -/

/-- A sanitise-progress word. -/
def progressWord (kind action arg aux : Nat) : BitVec 64 :=
  crcWord (0x5A * 2 ^ 48 + kind % 16 * 2 ^ 44 + action % 16 * 2 ^ 40 + arg % 2 ^ 32 * 2 ^ 8 + aux % 256)

/-- KIND, ACTION, ARG and AUX of a valid progress word. -/
def progressOf (w : BitVec 64) : Option (Nat × (Nat × (Nat × Nat))) :=
  if crcGood 0x5A w then
    some (w.toNat / 2 ^ 52 % 16, (w.toNat / 2 ^ 48 % 16, (w.toNat / 2 ^ 16 % 2 ^ 32, w.toNat / 2 ^ 8 % 256)))
  else none

/-- The start word of the sanitise that runs. -/
def State.sanStartWord (s : State) : BitVec 64 := progressWord 1 s.san.s.action s.san.s.total s.san.s.seq

/-- The newest done word of a block erase: the last index that every die has passed. -/
def State.sanDoneWord (s : State) : BitVec 64 := progressWord 2 s.san.s.action (s.san.s.next - 1) s.san.s.seq

end Sys2Proof.Machine
end

