-- ==== Sys2Proof/Machine/ReadRows.lean ====
section
/-! DEFINITION. Events of the read path and of reclamation (rows ARRAY_READ_DONE to MEDIA_PATROL_SAMPLE, and
ERASE_SUSPEND_LATENCY_END). -/

namespace Sys2Proof.Machine

/-! The read path (R31, R141-R155). -/

/-- ARRAY_READ_DONE (R31): the read command has gone out and tR has passed: the data-out is requested. -/
def rowArrayReadDone (die : DieId) (s : State) : Host.Outcome State Fault Refusal :=
  let x := s.die die
  if x.reading ≠ [] ∧ !x.dataOut ∧ !s.busPending die .readCmd then .next (s.arrayDone die) else .next s

/-- Whether a read serves a host command (R530: FILTER 1). -/
def State.servesHost (s : State) (r : DieRead) : Bool :=
  decide (r.cls ≠ .internal) && (s.readCmd r.cmd).isSome

/-- DATA_OUT_DONE (R31): one codeword is out, on a flash link that the Fray unit may meet (R518). -/
def rowDataOutDone (die : DieId) (s : State) : Host.Outcome State Fault Refusal :=
  let x := s.die die
  if x.dataOut ∧ !s.busPending die .dataOut then
    let host : Bool := match x.reading with | [] => false | r :: _ => s.servesHost r
    let (_, s) := s.fray 1 die.ch (if host then 1 else 0)
    .next ((s.dataOutEnd die).pumpInbox.tidy)
  else .next s

/-- LDPC_DECODE_DONE (R155): a hard or a soft lane reports on a codeword of a sub-read that it holds (R156). -/
def rowLdpcDecodeDone (opId : Nat) (corrected : Option Nat) (soft : Bool) (s : State) :
    Host.Outcome State Fault Refusal :=
  match s.laneOf opId soft with
  | none => .next s
  | some _ => .next ((s.decodeDone opId corrected soft).retryDarns.pumpInbox.tidy)

/-- DARN_EXHAUSTION_END (R152, R153): the bucket holds DEPTH ÷ 2 again; exhaustion and overdraft end. -/
def rowDarnExhaustionEnd (group t : Nat) (s : State) : Host.Outcome State Fault Refusal :=
  let s := s.atTime t
  let b := s.bucket group
  if (b.exhausted ∨ b.inOver) ∧ ((s.rd.depth * 10 ^ 9 : Nat) : Int) ≤ 2 * b.level then
    .next ((s.setBucket group { b with exhausted := false, inOver := false }).retryDarns)
  else .next s

/-- DARN_WINDOW_BOUNDARY (R151): at a multiple of 10 ms the tenants' charges return to zero. -/
def rowDarnWindowBoundary (t : Nat) (s : State) : Host.Outcome State Fault Refusal :=
  let s := s.atTime t
  if s.rd.windowUs + 10000 ≤ s.now then
    .next { s with
      rd.windowUs := s.now - s.now % 10000
      rd.buckets := s.rd.buckets.map (fun (p : Nat × Bucket) => (p.1, { p.2 with charges := [] })) }
  else .next s

/-- ERASE_MIN_SEGMENT_END (R145): reads may now suspend the erase. -/
def execEraseMinSegmentEnd (die : DieId) (s : State) : Host.Outcome State Fault Refusal :=
  let x := s.die die
  match x.erase with
  | none => .next s
  | some e =>
    if e.suspended ∨ s.busPending die .eraseConfirm ∨ s.busPending die .resume then .next s
    else .next ((s.setDie die { x with erase := some { e with segmentDone := true } }).settle die)

/-- ERASE_SUSPEND_LATENCY_END (R145): tESPD after the suspend command the erase is suspended, and the read window opens. -/
def execEraseSuspendLatencyEnd (die : DieId) (s : State) : Host.Outcome State Fault Refusal :=
  let x := s.die die
  match x.erase with
  | none => .next s
  | some e =>
    if e.suspending ∧ !s.busPending die .suspend then
      let e := { e with
        suspending := false
        suspended := true
        segmentDone := false
        progsInWindow := 0
        ranUs := e.ranUs + (s.now - e.resumedUs)
        resumedUs := s.now }
      .next ((s.setDie die { x with erase := some e }).settle die)
    else .next s

/-- BULK_READ_AGE (R141): a bulk read that has waited 2 ms is served at step 1. -/
def execBulkReadAge (die : DieId) (opId : Nat) (s : State) : Host.Outcome State Fault Refusal :=
  let x := s.die die
  if x.reads.any (fun r => decide (r.id = opId ∧ r.serves = .bulk)) then
    .next ((s.setDie die { x with reads := x.reads.map (fun (r : DieRead) =>
      if r.id = opId ∧ r.serves = .bulk then { r with waited2ms := true } else r) }).settle die)
  else .next s

/-- TOKEN_DEFERRAL_LIMIT (R142): the 400 µs deferral of a token's holder has ended. -/
def execTokenDeferralLimit (die : DieId) (s : State) : Host.Outcome State Fault Refusal :=
  let x := s.die die
  if x.token ∧ x.prog = none then .next ((s.setDie die { x with tokenForced := true }).settle die) else .next s

/-! Reclamation (R166-R187). -/

/-- BOLT_ERASE_START (R173): the bolt at the head of its group's erase queue has its intent word programmed; nothing is
erased after early warning (R410). -/
def execBoltEraseStart (bolt : Nat) (hemOk : Bool) (s : State) : Host.Outcome State Fault Refusal :=
  if s.eraseHead (boltGroup bolt) = some bolt ∧ s.intentRoom ∧ !s.lastCall ∧ !s.blockErasing then
    .next ((s.startErasing bolt hemOk).tidy)
  else .next s

/-- The queued reads of an item that has become urgent are placed at step 1, with the present moment as their latest start time (R170). -/
def State.urgeReads (s : State) (item : Nat) : State :=
  { s with dies.table := s.dies.table.map (fun (q : Nat × Die) => (q.1, { q.2 with reads := q.2.reads.map (fun (r : DieRead) =>
      if r.cls = .internal ∧ r.cmd = item then { r with waited2ms := true, lst := s.now } else r) })) }

/-- ITEM_AGE_PROMOTION (R168): an item at its age limit becomes urgent. A number from 2^32 up names the erase of a
released bolt. -/
def execItemAgePromotion (item : Nat) (s : State) : Host.Outcome State Fault Refusal :=
  if 2 ^ 32 ≤ item then
    let b := item - 2 ^ 32
    let x := s.bolt b
    if (x.st = .released ∨ x.st = .erasing) ∧ !x.urgent then
      .next ((s.setBolt b { x with urgent := true }).countPromotion)
    else .next s
  else match s.item item with
    | none => .next s
    | some it =>
      if it.urg ≠ .urgent ∧ (ageLimit s.recl.mergeAgeS it.kind).isSome then
        .next ((((s.setItem { it with urg := .urgent }).urgeReads it.id).countPromotion).tidy)
      else .next s

/-- Whether no host operation has been queued at any die of a group for IDLE_MS (R177). -/
def State.groupIdle (s : State) (g : Nat) : Bool :=
  (List.range 32).all (fun c => !(s.die (s.dieOf g c)).hostWaits) &&
    (match Tab.find s.recl.hostUs g with | none => true | some t => decide (t + 1000 * s.recl.idleMs ≤ s.now))

/-- The merge items of a group that have not started, oldest first. -/
def State.waitingMerges (s : State) (g : Nat) : List Item :=
  s.recl.items.filter (fun i => match i.kind with
    | .merge t x _ => !i.running && decide (s.mergeGroup t x = some g)
    | _ => false)

/-- MERGE_IDLE_TIMER (R177): a group with no host operation queued for IDLE_MS starts its oldest merge. -/
def execMergeIdleTimer (group : Nat) (s : State) : Host.Outcome State Fault Refusal :=
  match s.waitingMerges group with
  | [] => .next s
  | it :: _ => if s.groupIdle group then .next ((s.startMerge it).tidy) else .next s

/-- MERGE_START (R179): a merge that is foreground or urgent starts; a background one waits for MERGE_IDLE_TIMER
(R177). -/
def execMergeStart (tenant region : Nat) (s : State) : Host.Outcome State Fault Refusal :=
  match s.recl.items.find? (fun i => match i.kind with
    | .merge t x _ => decide (t = tenant ∧ x = region ∧ !i.running)
    | _ => false) with
  | none => .next s
  | some it =>
    if it.urg ≠ .background then .next ((s.startMerge it).tidy) else .next s

/-- Whether an item is the move that a RELOCATION_START names. -/
def moveNames : MoveKind → ItemKind → Bool
  | .refreshNormal, .refreshNormal => true
  | .refreshUrgent, .refreshUrgent => true
  | .degraded, .degraded => true
  | .wear, .wear => true
  | _, _ => false

/-- RELOCATION_START (R183): a queued refresh, degraded relocation or wear-levelling move begins. -/
def execRelocationStart (bolt : Nat) (kind : MoveKind) (s : State) : Host.Outcome State Fault Refusal :=
  match s.recl.items.find? (fun i => decide (i.bolt = bolt) && moveNames kind i.kind && !i.running) with
  | none => .next s
  | some it => .next ((s.startRelocation it).tidy)

/-- The sectors that a patrol sample reads: one codeword on NAND of each column holding data in each of 8 rows, an eighth of the
bolt's rows apart (R186; DESIGN CHOICE, log 93); which codeword of a unit the sample takes is left to `pick`, counted round
those that the unit holds. -/
def State.patrolSectors (s : State) (b pick : Nat) : List (Nat × Nat) :=
  let rows := (List.range 8).map (fun j => j * s.dp.rows / 8)
  let es := (s.boltSectors b).filter (fun p => rows.contains (s.rowOf b p.1))
  let units := (es.map (fun p => s.copyUnit b p.1)).eraseDups
  units.filterMap (fun k =>
    let held := es.filter (fun p => decide (s.copyUnit b p.1 = k))
    held[pick % held.length]?)

/-- Whether a bolt's sample of the present 168 hours is due (R186). -/
def Bolt.patrolDue (x : Bolt) (now : Nat) : Bool :=
  match x.patrolUs with
  | none => true
  | some t => decide (t / 604800000000 < now / 604800000000)

/-- MEDIA_PATROL_SAMPLE (R186): the sample of a bound bolt, due once in each 168 hours, is queued with its internal-class reads, whose
results feed the refresh rule (R184). -/
def execMediaPatrolSample (bolt pick : Nat) (s : State) : Host.Outcome State Fault Refusal :=
  let x := s.bolt bolt
  if x.st = .bound ∧ x.patrolDue s.now = true then
    let cur := s.patrolSectors bolt pick
    let id := s.recl.nextItem
    let s := (s.setBolt bolt { x with patrolUs := some s.now }).queueItem .patrol bolt
    if cur = [] then .next (s.dropItem id)
    else
      let s := { s with recl.items := s.recl.items.map (fun (i : Item) =>
        if i.id = id then { i with running := true, cur := cur } else i) }
      let owner := (x.use.tenant).getD 1024
      .next ((s.groupPages (cur.map (fun p => (p.2 / 2 ^ 20, p.2 % 2 ^ 20)))).foldl (fun s g =>
        s.subRead .internal id owner s.now false g.1 g.2.1 g.2.2) s)
  else .next s

end Sys2Proof.Machine
end

