-- ==== Sys2Proof/Machine/Bobbin.lean ====
section
/-! DEFINITION. Bobbin messages, roles and adoption (R198-R213; rows BOBBIN_READ to HELD_INPUT_TIMEOUT, and
BOBBIN_SELF_FAULT), and the settling of a die's operation under R516. -/

namespace Sys2Proof.Machine

/-! Endpoints (R198, R203). -/

/-- Roles of the part. -/
def State.roles (s : State) : Nat := s.channels * 4

/-- The first spare bobbin's address. -/
def State.firstSpare (s : State) : Nat := s.roles

/-- Spare bobbins of the part. -/
def State.spareCount (s : State) : Nat := if s.channels = 32 then 8 else 4

/-- Whether an address is a bobbin that the part has. -/
def State.isBobbin (s : State) (b : Nat) : Bool := decide (b < s.roles + s.spareCount)

/-- A bobbin record; one with no entry is as R203 places it at epoch 1. -/
def State.bobbin (s : State) (b : Nat) : Bobbin :=
  match Tab.find s.eng.bobbins b with
  | some x => x
  | none =>
    if b < s.roles then { (default : Bobbin) with st := .owns, role := some b, epoch := 1 }
    else { (default : Bobbin) with st := if s.isBobbin b then .spare else .absent }

/-- The state with a bobbin record replaced. -/
def State.setBobbin (s : State) (b : Nat) (x : Bobbin) : State := { s with eng.bobbins := Tab.set s.eng.bobbins b x }

/-- The state with a role table entry replaced. -/
def State.setRole (s : State) (r : Nat) (x : Role) : State := { s with eng.roles := Tab.set s.eng.roles r x }

/-- Whether a bobbin is a ready spare that no role under adoption has been given to (R209). -/
def State.spareReady (s : State) (b : Nat) : Bool :=
  s.isBobbin b && decide ((s.bobbin b).st = .spare) &&
    !s.eng.roles.any (fun p => decide (p.2.owner = b ∧ p.2.st = .adopting))

/-- Ready spares, lowest first: with homes retired, a reloaded home bobbin is a spare too (R212). -/
def State.readySpares (s : State) : List Nat := (List.range (s.roles + s.spareCount)).filter s.spareReady

/-- The lowest-numbered spare that is ready. -/
def State.readySpare (s : State) : Option Nat := s.readySpares.head?

/-- The next epoch of a role: from 65,535 to 1 (R204). -/
def nextEpoch (e : Nat) : Nat := if 65535 ≤ e then 1 else e + 1

/-- The dies of a role that the drive populates. -/
def State.diesOf (s : State) (r : Nat) : List DieId :=
  ((List.range 8).map (fun j => (⟨r / 4, r % 4 * 8 + j⟩ : DieId))).filter (fun d => decide (d.pos < s.geo.n))

/-- The role supervisor's endpoint address, one of 196-255 (log 22). -/
def supervisorAddr : Nat := 255

/-! Settling what a die was doing (R211, R516). -/

/-- The reads in progress at a die put back into its queue, to run again (R211). -/
def State.requeueReads (s : State) (d : DieId) : State :=
  let x := s.die d
  x.reading.foldl (fun s r => s.putBack d r) (s.setDie d { x with reading := [], dataOut := false, ledger := .idle })

/-- The requests of a die's reads withdrawn from its channel's arbiter (R227). -/
def State.busDropReads (s : State) (d : DieId) : State :=
  let x := s.channel d.ch
  s.setChan d.ch { x with reqs := x.reqs.filter (fun r =>
    !decide (r.die = dieKey d ∧ (r.what = .readCmd ∨ r.what = .dataOut))) }

/-- A die's operation in progress ended by a RESET (R516 step 3): a program's unit is retired and the chunk goes into the
rebuilt column, an erase's unit is retired and a spare taken, a read is sent again. -/
def State.settleAborted (s : State) (d : DieId) (hemOk : Bool) : State :=
  let s := (s.busDrop d).requeueReads d
  let x := s.die d
  let s := match x.prog with
    | none => s
    | some p => (s.setDie d { x with prog := none, token := false, ledger := .idle }).progFailed d p hemOk
  let x := s.die d
  let s := match x.erase with
    | none => s
    | some e =>
      let s := s.setDie d { x with erase := none, ledger := .idle }
      if e.src ≠ 256 then (s.retireUnit d e.unit true).2.respond e.opId false 0 else s.eraseUnitFailed d e hemOk
  ((s.grantTokens (s.groupOf d) (s.colOf d / 16)).settle d).tidy

/-- What an adopter makes of a die (R211): reads run again, a program whose confirm has not reached the bus runs again in
full after a RESET, a confirmed program and an erase are left to their status read, a suspended erase stays suspended. -/
def State.adoptDie (s : State) (d : DieId) : State :=
  let unconfirmed := s.busPending d .progConfirm
  let uncommanded := s.busPending d .eraseConfirm
  let resuming := s.busPending d .resume
  let suspending := s.busPending d .suspend
  let s := (s.busDrop d).requeueReads d
  let x := s.die d
  let s := match x.prog, unconfirmed with
    | some p, true => (s.setDie d { x with prog := none, progs := p :: x.progs, ledger := .idle }).busRaise d .recovery .reset
    | some _, false => s.setDie d { x with adopted := true }
    | none, _ => s.setDie d { x with adopted := x.erase.isSome && !uncommanded && !resuming }
  let s := if uncommanded then (s.busRaise d .normal .eraseCmd).busRaise d .normal .eraseConfirm else s
  let s := if resuming then s.busRaise d .normal .resume else s
  if suspending then s.busRaise d .normal .suspend else s

/-! Role moves (R203, R204, R209, R212, R213). -/

/-- Requests of the dies of a role that their senders must send again are dropped from the dies' queues; the device's own
stay (R205, R206, R212). -/
def State.dropQueued (s : State) (r : Nat) : State :=
  (s.diesOf r).foldl (fun s d =>
    let x := s.die d
    let gone := (x.reads.filter (fun q => decide (q.src ≠ 256))).map (·.id) ++
      (x.progs.filter (fun q => decide (q.kind = .raw))).map (·.opId) ++
      (x.eraseQ.filter (fun q => decide (q.src ≠ 256))).map (·.opId)
    let s := { s with eng.reqs := s.eng.reqs.map (fun (q : Req) => if gone.contains q.op then { q with op := 0 } else q) }
    s.setDie d { x with
      reads := x.reads.filter (fun q => decide (q.src = 256))
      progs := x.progs.filter (fun q => decide (q.kind ≠ .raw))
      eraseQ := x.eraseQ.filter (fun q => decide (q.src = 256)) }) s

/-! The fields of a message (R200, R202). -/

/-- The verb codes of R201. -/
def vRead : Nat := 0x01
def vComponent : Nat := 0x02
def vProgram : Nat := 0x03
def vErase : Nat := 0x04
def vCancel : Nat := 0x05
def vToken : Nat := 0x06
def vReset : Nat := 0x07
def vAdopt : Nat := 0x08
def vHandover : Nat := 0x09

/-- A field of OBJECT (R202). -/
def objField (o : BitVec 128) (lo len : Nat) : Nat := (o.extractLsb' lo len).toNat

/-- The die that a media message names. -/
def BMsg.die (m : BMsg) : DieId := ⟨m.role / 4, m.role % 4 * 8 + objField m.object 125 3⟩

/-- The bolt of a physical unit of a column: the one whose unit map names it, else the one of its index (R76). -/
def State.boltOfUnit (s : State) (d : DieId) (u : Nat) : Nat :=
  let g := s.groupOf d
  match s.bolts.table.find? (fun p => decide (boltGroup p.1 = g) && p.2.units.contains (s.colOf d, u)) with
  | some (b, _) => b
  | none => boltNo g u

/-- The sector offset in a bolt of a codeword, or none for a parity column (R75). -/
def offsetOf (b col row u plane page cw : Nat) : Option Nat :=
  let p := parityCol b
  if col % 16 = p then none
  else
    let d := if col % 16 < p then col % 16 else col % 16 - 1
    some ((30 * row + 2 * d + col / 16) * u + plane * (u / 2) + page * 4 + cw)

/-- Device time of a latest start time in 40 ns ticks, compared modulo 2^30 (R202). -/
def State.lstOf (s : State) (ticks : Nat) : Nat :=
  let now := s.now * 25
  let ahead := (ticks + 2 ^ 30 - now % 2 ^ 30) % 2 ^ 30
  if ahead < 2 ^ 29 then (now + ahead) / 25 else (now - (2 ^ 30 - ahead)) / 25

/-- The read that a READ or READ_COMPONENT message queues (R201, R202): in SLC mode a row holds one page of each plane. -/
def State.readOf (s : State) (m : BMsg) (op : Nat) (cls : ReadClass) : DieRead :=
  let d := m.die
  let o := m.object
  let unit := objField o 111 13
  let b := s.boltOfUnit d unit
  let row := objField o 101 10
  let plane := objField o 98 1
  let page := objField o 99 2
  let slc := o.getLsbD 124
  let u := if slc then 8 else s.dp.u
  { (default : DieRead) with
    id := op
    cls := cls
    serves := cls
    bolt := b
    column := s.colOf d
    row := row
    plane := plane
    page := page
    sectors := (bitsOf (objField o 94 4) 4).map (fun cw =>
      (offsetOf b (s.colOf d) row u plane page cw).getD (2 ^ 20 - 1 - cw))
    unit := unit
    lst := s.lstOf (objField o 64 30)
    step := 1
    src := m.src
    buffer := objField o 0 64
    slc := slc
    tenant := 1024 }

/-- The program unit that a PROGRAM message queues (R201, R202). -/
def State.progOf (s : State) (m : BMsg) (op : Nat) : ProgOp :=
  let d := m.die
  let u := objField m.object 111 13
  { (default : ProgOp) with
    bolt := s.boltOfUnit d u
    column := s.colOf d
    row := objField m.object 101 10
    kind := .raw
    slc := m.object.getLsbD 124
    writer := 1024
    unit := u
    src := m.src
    buffer := objField m.object 0 64
    opId := op }

/-- The erase that an ERASE message queues (R201, R202). -/
def State.eraseOf (s : State) (m : BMsg) (op : Nat) : EraseRun :=
  { EraseRun.fresh (2 ^ 18) (s.colOf m.die) (objField m.object 111 13) m.src op with slc := m.object.getLsbD 124 }

/-! Outstanding records (R206). -/

/-- A sender's outstanding record of a request. -/
def State.reqOf (s : State) (src opId : Nat) : Option Req :=
  s.eng.reqs.find? (fun q => decide (q.src = src ∧ q.opId = opId))

/-- The state without a sender's outstanding record; its response slot is free again (R199). -/
def State.dropReq (s : State) (src opId : Nat) : State :=
  { s with eng.reqs := s.eng.reqs.filter (fun q => !decide (q.src = src ∧ q.opId = opId)) }

/-- A sender's outstanding record changed. -/
def State.updReq (s : State) (src opId : Nat) (f : Req → Req) : State :=
  { s with eng.reqs := s.eng.reqs.map (fun (q : Req) => if q.src = src ∧ q.opId = opId then f q else q) }

/-- A request recorded by its sender, with where and under which epoch it was last sent (R206), its response slot reserved
(R199). -/
def State.recordReq (s : State) (m : BMsg) : State :=
  match s.reqOf m.src m.opId with
  | none => { s with eng.reqs := s.eng.reqs ++
      [⟨m.src, m.opId, m.verb, m.dest, m.role, m.epoch, m.object, false, false, 0, 0, false⟩] }
  | some _ => s.updReq m.src m.opId (fun q => { q with dest := m.dest, epoch := m.epoch, held := false })

/-- The device operation that a sender's request was queued as. -/
def State.setReqOp (s : State) (m : BMsg) (op : Nat) : State := s.updReq m.src m.opId (fun q => { q with op := op })

/-- The message of an outstanding record as it was last sent. -/
def Req.msg (q : Req) : BMsg := ⟨q.dest, q.src, q.verb, q.role, q.epoch, q.opId, q.object⟩

/-- The final response to a request that queues no die operation (R205). -/
def State.answer (s : State) (m : BMsg) (verb : Nat) (obj : BitVec 128) : State :=
  (s.updReq m.src m.opId (fun q => { q with answered := true })).sendRsp
    { m with dest := m.src, src := m.dest, verb := verb, object := obj }

/-- A request whose role has no owner settled (R206): reads are darned, a program goes the way of a failed die's (R127), an erase
counts as done, and the rest are discarded with a Selvedge entry. -/
def State.settleNone (s : State) (q : Req) : State :=
  let m := q.msg
  if q.verb = vRead ∨ q.verb = vComponent then
    let (op, s) := s.newOp
    let r := s.readOf m op .latency
    let (s, ds) := (s.setReqOp m op).mustDarn m.die r .mandatory false
    ds.foldl State.settle s
  else if q.verb = vProgram then
    let (op, s) := s.newOp
    (s.setReqOp m op).orphanProg (s.progOf m op)
  else if q.verb = vErase then
    let (op, s) := s.newOp
    (s.setReqOp m op).respond op true 0
  else (s.dropReq q.src q.opId).selvedge { source := 4, code := 0x4C, detail := q.verb }

/-- The requests to a role that no final response has gone out for and that no die operation serves. -/
def State.openReqs (s : State) (r : Nat) : List Req :=
  s.eng.reqs.filter (fun q => decide (q.role = r ∧ q.op = 0) && !q.answered)

/-- A role given its next owner at the next epoch, and ADOPT sent to it; reads of its dies are darned until it is in service
(R204, R209 steps 2 and 3). -/
def State.sendAdopt (s : State) (r b : Nat) : State :=
  let x := s.role r
  let e := nextEpoch x.epoch
  let s := s.setRole r { x with owner := b, epoch := e, st := .adopting, moves := min (x.moves + 1) 65535 }
  let s := { s with eng.adoptions := s.eng.adoptions + 1 }
  let s := s.sendReq ⟨b, supervisorAddr, vAdopt, r, e, 0, 0#128⟩
  (s.diesOf r).foldl State.settle ((s.diesOf r).foldl (fun s d => (s.busDropReads d).requeueReads d) s)

/-- A role whose bobbin has failed moves to the lowest ready spare; with no spare it goes to NONE, its dies fail, the requests to
it are settled and the reliability event is raised (R206, R209, R213). -/
def State.moveRole (s : State) (r : Nat) : State :=
  let s := s.dropQueued r
  match s.readySpare with
  | some b => s.sendAdopt r b
  | none =>
    let s := s.setRole r { s.role r with st := .none }
    let s := (s.diesOf r).foldl State.failDie s
    ((s.openReqs r).foldl State.settleNone s).tidy.smartEventAll 2 0

/-- A bobbin is declared failed (R208, R209, R213): fenced, retired for good, and its role moved; it keeps its record of the role,
which only ADOPT and HANDOVER change (R204). A spare that fails is retired. -/
def State.bobbinFailed (s : State) (b cause : Nat) : State :=
  let x := s.bobbin b
  if !s.isBobbin b ∨ x.st = .retired then s
  else
    let s := s.setBobbin b { x with st := .retired, fenced := true, cause := cause }
    let s := { s with eng.retiredBobbins := addOnce s.eng.retiredBobbins b }
    match x.role with
    | none =>
      -- a spare that has been sent ADOPT and not yet taken it
      match s.eng.roles.find? (fun p => decide (p.2.owner = b ∧ p.2.st = .adopting)) with
      | none => s
      | some (r, _) => s.moveRole r
    | some r => s.moveRole r

/-- A bobbin has reloaded: during an activation it runs the new image's microcode, during a revert the old one's (R396, R399). -/
def State.reloaded (s : State) (b : Nat) : State :=
  if s.hem.actStep = 6 then { s with hem.actBobbins := addOnce s.hem.actBobbins b }
  else if s.hem.actStep = 9 then { s with hem.actBobbins := s.hem.actBobbins.filter (fun (x : Nat) => decide (x ≠ b)) }
  else s

/-- The bobbins that have handed a role over and wait for its move to end (R212). -/
def State.givers (s : State) (r : Nat) : List Nat :=
  (s.eng.bobbins.filter (fun p => decide (p.2.st = .reloading ∧ p.2.gave = some r))).map (·.1)

/-- Steps 7 and 8 of R209: the recovery sweep of a role's dies has ended; the role is ACTIVE and EPOCH_ADVANCE goes out.
The bobbin that handed this role over has reloaded and is a ready spare (R212; log 94). -/
def State.endAdoption (s : State) (r : Nat) : State :=
  let x := s.role r
  if x.st = .adopting ∧ (s.bobbin x.owner).role = some r then
    let s := (s.diesOf r).foldl State.adoptDie s
    let s := s.setRole r { x with st := .active }
    let s := s.sendCtrl ⟨supervisorAddr, supervisorAddr, 0x30, r, x.epoch, 0, BitVec.ofNat 128 x.owner⟩
    let s := (s.givers r).foldl (fun s b => (s.setBobbin b { s.bobbin b with st := .spare, gave := none }).reloaded b) s
    (((s.diesOf r).foldl State.settle s).retryDarns).tidy
  else s

/-! Requests (R200, R202, R205, R206). -/

end Sys2Proof.Machine

namespace Sys2Proof

open Machine

/-- A message as the row gives it, with its verb. -/
def bmsgOf (m : BobbinMsg) (verb : Nat) : BMsg :=
  ⟨m.dest.toNat, m.src.toNat, verb, m.role.toNat, m.epoch.toNat, m.opId.toNat, m.object⟩

/-- The 192 bits of a message (R200): header bits [169:168] and [128] are zero. -/
def BobbinMsg.word (m : BobbinMsg) (verb : BitVec 6) : BitVec 192 :=
  m.dest ++ m.src ++ verb ++ 0#2 ++ m.role ++ m.epoch ++ m.opId ++ 0#1 ++ m.object

/-- The message and the verb that 192 bits spell (R200). -/
def BobbinMsg.ofWord (w : BitVec 192) : BobbinMsg × BitVec 6 :=
  (⟨w.extractLsb' 184 8, w.extractLsb' 176 8, w.extractLsb' 161 7, w.extractLsb' 145 16, w.extractLsb' 129 16,
    w.extractLsb' 0 128⟩, w.extractLsb' 170 6)

end Sys2Proof

namespace Sys2Proof.Machine

/-- A request taken from its receiver's input: its entry is free, and the sender's oldest message for that bobbin enters it
(R199). -/
def State.takeReq (s : State) (m : BMsg) : State :=
  let s := { s with eng.msgs := s.eng.msgs.erase m }
  match s.eng.unsent.find? (fun q => decide (q.src = m.src ∧ q.dest = m.dest)) with
  | some q =>
    if s.hasCredit m.src m.dest then { s with eng.msgs := s.eng.msgs ++ [q], eng.unsent := s.eng.unsent.erase q } else s
  | none => s

/-- A response taken by its sender. -/
def State.takeRsp (s : State) (m : BMsg) : State := { s with eng.rsps := s.eng.rsps.erase m }

/-- A request returned unexecuted (R205); a stub guard's bounce is recorded (R198). -/
def State.bounceReq (s : State) (m : BMsg) : State :=
  let s := { s with eng.bounces := s.eng.bounces + 1 }
  let s := s.sendRsp { m with dest := m.src, src := m.dest, verb := 0x22 }
  if s.isBobbin m.dest then s
  else s.selvedge { source := 4, code := 0x4C, loc := 0, detail := m.dest, answer := 1 }

/-- Whether a bobbin accepts a request as it takes it from its input (R205). -/
def State.accepts (s : State) (m : BMsg) : Bool :=
  let b := s.bobbin m.dest
  s.isBobbin m.dest && !b.fenced && decide (b.role = some m.role ∧ b.epoch = m.epoch) && decide ((s.role m.role).st = .active)

/-- The domain of a bobbin (R448): home bobbins by sixteens, each with one spare. -/
def State.bobbinDomain (s : State) (b : Nat) : Nat := 12 + (if b < 4 * s.channels then b / 16 else b - 4 * s.channels)

/-- A request to a bobbin in a stopped domain: FAULT with cause STOPPED, and its record (R450). -/
def State.stoppedReq (s : State) (m : BMsg) : State :=
  (s.answer m 0x24 (BitVec.ofNat 128 Config.stoppedCause)).selvedge
    { source := 4, code := 0x47, detail := s.bobbinDomain m.dest, loc := m.src % 65536, answer := 1 }

/-- A READ or READ_COMPONENT taken up by its bobbin (R201). -/
def State.takeRead (s : State) (m : BMsg) (cls : ReadClass) : State :=
  let (op, s) := s.newOp
  ((s.setReqOp m op).submitRead m.die (s.readOf m op cls)).tidy

/-- A PROGRAM taken up by its bobbin (R201). -/
def State.takeProg (s : State) (m : BMsg) : State :=
  let (op, s) := s.newOp
  ((s.setReqOp m op).submitProg m.die (s.progOf m op)).tidy

/-- An ERASE taken up by its bobbin (R201). -/
def State.takeErase (s : State) (m : BMsg) : State :=
  let (op, s) := s.newOp
  ((s.setReqOp m op).submitErase m.die (s.eraseOf m op)).tidy

/-- A CANCEL taken up by its bobbin (R201): the request of the same sender whose OP_ID OBJECT gives (log 22) is withdrawn where it
has not been issued to its die, and the CANCEL is done. -/
def State.takeCancel (s : State) (m : BMsg) : State :=
  let s : State := match s.reqOf m.src (objField m.object 0 16) with
    | none => s
    | some q =>
      if q.op = 0 ∨ q.role ≠ m.role then s
      else
        let hit := (s.diesOf m.role).filter (fun d =>
          let x : Die := s.die d
          x.reads.any (fun r => decide (r.id = q.op)) || x.progs.any (fun p => decide (p.opId = q.op ∧ p.kind = .raw)) ||
            x.eraseQ.any (fun e => decide (e.opId = q.op)))
        if hit = [] then s
        else
          let s := hit.foldl (fun s d => s.updDie d (fun x => { x with
            reads := x.reads.filter (fun r => decide (r.id ≠ q.op))
            progs := x.progs.filter (fun p => !decide (p.opId = q.op ∧ p.kind = .raw))
            eraseQ := x.eraseQ.filter (fun e => decide (e.opId ≠ q.op)) })) s
          s.respond q.op false 0
  s.answer m 0x20 0#128

/-- A TOKEN_GRANT taken up by its bobbin (R142): one program token for the die that OBJECT's LUN names, where the half has one free
and the die a program ready (log 22). -/
def State.takeToken (s : State) (m : BMsg) : State :=
  let d := m.die
  let g := s.groupOf d
  let h := s.colOf d / 16
  let held := ((List.range 16).filter (fun c => (s.die (s.dieOf g (16 * h + c))).token)).length
  let x := s.die d
  let s := s.answer m 0x20 0#128
  if held < s.tokenCount g h ∧ !s.darnUnissued g h ∧ !x.token ∧ !x.failed ∧ x.progs.any ProgOp.takesToken then
    (s.setDie d { x with token := true, tokenForced := false }).settle d
  else s

/-- A DIE_RESET taken up by its bobbin (R201): a die is RESET for recovery, under a recovery-level grant; what it was doing is
settled as after a recovery that passes (R516). -/
def State.takeReset (s : State) (m : BMsg) : State :=
  let d := m.die
  let s := s.answer m 0x20 0#128
  if s.dieFailed d then s else (s.settleAborted d true).busRaise d .recovery .reset

/-- ADOPT taken up by the spare that the role table names, or by a bobbin that has reloaded in place (R209 steps 3-6, R396): it takes
the role with the epoch given and asks for its recovery grant; a role whose dies are not populated is in service at once. -/
def State.takeAdopt (s : State) (m : BMsg) : State :=
  let x := s.role m.role
  let b := s.bobbin m.dest
  if x.st = .adopting ∧ x.owner = m.dest ∧ x.epoch = m.epoch ∧ (b.st = .spare ∨ b.st = .reloading) then
    let again := decide (b.st = .reloading)
    let s := s.setBobbin m.dest { b with st := .owns, role := some m.role, epoch := m.epoch, gave := none }
    let s := (if again then s.reloaded m.dest else s).answer m 0x20 0#128
    match s.diesOf m.role with
    | [] => s.endAdoption m.role
    | d :: _ => s.busRaise d .recovery .sweep
  else s.bounceReq m

/-- HANDOVER taken up by the owner of a role (R212, R396): it stops taking requests, leaves its dies' operations running, and the
role moves to a ready spare; with none ready it reloads in place, its role in adoption by itself (log 94). -/
def State.takeHandover (s : State) (m : BMsg) : State :=
  let b := s.bobbin m.dest
  if b.st = .owns ∧ b.role = some m.role ∧ b.epoch = m.epoch ∧ (s.role m.role).st = .active then
    let s := (s.dropQueued m.role).answer m 0x20 0#128
    let s := s.setBobbin m.dest { b with st := .reloading, role := none, gave := some m.role }
    s.sendAdopt m.role (s.readySpare.getD m.dest)
  else s.bounceReq m

/-- What a bobbin does with a request that it has taken from its input (R201, R205): a resent one that a die operation already serves
stays with it (R212); a verb that is never sent is answered FAULT and recorded. -/
def State.serveReq (s : State) (m : BMsg) (bulk : Bool) : State :=
  if s.isBobbin m.dest ∧ s.pow.stopped.contains (s.bobbinDomain m.dest) then s.stoppedReq m
  else if !s.isBobbin m.dest ∨ (s.bobbin m.dest).fenced then s.bounceReq m
  else if m.verb = vAdopt then s.takeAdopt m
  else if m.verb = vHandover then s.takeHandover m
  else if m.verb = 0 ∨ vHandover < m.verb then
    (s.answer m 0x24 0#128).selvedge { source := 4, code := 0x4C, loc := m.src % 65536, detail := m.verb, answer := 1 }
  else if !s.accepts m then s.bounceReq m
  else if s.eng.reqs.any (fun q => decide (q.src = m.src ∧ q.opId = m.opId) && (q.answered || decide (q.op ≠ 0))) then s
  else if m.verb = vRead then s.takeRead m (if bulk then .bulk else .latency)
  else if m.verb = vComponent then s.takeRead m .component
  else if m.verb = vProgram then s.takeProg m
  else if m.verb = vErase then s.takeErase m
  else if m.verb = vCancel then s.takeCancel m
  else if m.verb = vToken then s.takeToken m
  else s.takeReset m

/-- Whether a message is a control event at a bobbin's input (R207). -/
def BMsg.control (m : BMsg) : Bool := decide (m.verb = vAdopt ∨ m.verb = vHandover)

/-- The contests of a request with those of other senders that stand at the same input: the one that must be taken first, where its
sender lost their last contest, or where the Fray unit reverses the order (R207, R518). -/
def State.rival (s : State) (m : BMsg) (reverse : Bool) : Option BMsg :=
  (s.eng.msgs.filter (fun q => decide (q.dest = m.dest ∧ q.src ≠ m.src) && !q.control)).find? (fun q =>
    ((s.bobbin m.dest).won.contains (m.src, q.src)) != reverse)

/-- The winner of a contest between two senders at a bobbin's input (R207). -/
def State.setWon (s : State) (b w l : Nat) : State :=
  let x := s.bobbin b
  s.setBobbin b { x with won := (w, l) :: x.won.filter (fun p => !decide (p = (w, l) ∨ p = (l, w))) }

/-- A request at a bobbin's input (R205, R207): a control event that stands there too is taken first, then a rival that must be, then
the request; one whose acknowledge the Fray unit withholds stays at the input (R518). -/
def State.onRequest (s : State) (m : BMsg) (bulk : Bool) : State :=
  let s := if m.control then s else s.recordReq m
  let (acts, s) := s.fray 2 m.dest 0
  if acts.contains 1 then (if s.eng.msgs.contains m then s else s.sendReq m)
  else
    let s := s.takeReq m
    let s : State := match s.eng.msgs.find? (fun q => decide (q.dest = m.dest) && q.control && !m.control) with
      | none => s
      | some c => (s.takeReq c).serveReq c false
    let s : State := if m.control then s
      else match s.rival m (acts.contains 3) with
        | none =>
          (s.eng.msgs.filter (fun q => decide (q.dest = m.dest ∧ q.src ≠ m.src) && !q.control)).foldl
            (fun s q => s.setWon m.dest m.src q.src) s
        | some q => (((s.recordReq q).takeReq q).setWon m.dest q.src m.src).serveReq q false
    s.serveReq m bulk

/-- BOBBIN_READ (R201): a read of its class queued on a die of the role. -/
def execBobbinRead (m : BobbinMsg) (bulk : Bool) (s : State) : Host.Outcome State Fault Refusal :=
  .next (s.onRequest (bmsgOf m vRead) bulk)

/-- READ_COMPONENT (R201): a component-class read queued. -/
def execReadComponent (m : BobbinMsg) (s : State) : Host.Outcome State Fault Refusal :=
  .next (s.onRequest (bmsgOf m vComponent) false)

/-- PROGRAM (R201): a program unit queued on its die. -/
def execProgram (m : BobbinMsg) (s : State) : Host.Outcome State Fault Refusal :=
  .next (s.onRequest (bmsgOf m vProgram) false)

/-- ERASE (R201): an erase of one unit queued on its die. -/
def execErase (m : BobbinMsg) (s : State) : Host.Outcome State Fault Refusal :=
  .next (s.onRequest (bmsgOf m vErase) false)

/-- CANCEL (R201): a request not yet issued is withdrawn. -/
def execCancel (m : BobbinMsg) (s : State) : Host.Outcome State Fault Refusal :=
  .next (s.onRequest (bmsgOf m vCancel) false)

/-- TOKEN_GRANT (R142): one program token given to a die. -/
def execTokenGrant (m : BobbinMsg) (s : State) : Host.Outcome State Fault Refusal :=
  .next (s.onRequest (bmsgOf m vToken) false)

/-- DIE_RESET (R201): a die RESET for recovery. -/
def rowDieReset (m : BobbinMsg) (s : State) : Host.Outcome State Fault Refusal :=
  .next (s.onRequest (bmsgOf m vReset) false)

/-! Control messages (R204, R207, R209, R212). -/

/-- ADOPT (R209): the spare takes the role. -/
def rowAdopt (m : BobbinMsg) (s : State) : Host.Outcome State Fault Refusal :=
  .next (s.onRequest (bmsgOf m vAdopt) false)

/-- HANDOVER (R212): the owner leaves its role. -/
def execHandover (m : BobbinMsg) (s : State) : Host.Outcome State Fault Refusal :=
  .next (s.onRequest (bmsgOf m vHandover) false)

/-- Sends an outstanding request again to the owner of its role (R206). -/
def State.resend (s : State) (q : Req) : State :=
  let x := s.role q.role
  let m : BMsg := { q.msg with dest := x.owner, epoch := x.epoch }
  (s.recordReq m).sendReq m

/-- BOUNCE (R206): the sender reads the role table, and resends, holds or settles the request; the bounce of one that has been sent
again under a later epoch since, or answered, is dropped. -/
def execBounce (m : BobbinMsg) (s : State) : Host.Outcome State Fault Refusal :=
  let m := bmsgOf m 0x22
  let s := s.takeRsp m
  match s.reqOf m.dest m.opId with
  | none => .next s
  | some q =>
    if q.op ≠ 0 ∨ q.answered ∨ q.epoch ≠ m.epoch ∨ q.dest ≠ m.src then .next s
    else if !s.isBobbin q.dest ∨ s.roles ≤ q.role then .next (s.settleNone q)
    else match (s.role q.role).st with
      | .active => .next (s.resend q)
      | .adopting => .next (s.updReq q.src q.opId (fun x => { x with held := true }))
      | .none => .next (s.settleNone q)

/-- EPOCH_ADVANCE (R206): every sender resends what it had sent to the role under an older epoch. -/
def rowEpochAdvance (m : BobbinMsg) (s : State) : Host.Outcome State Fault Refusal :=
  let m := bmsgOf m 0x30
  let s := { s with eng.ctrl := s.eng.ctrl.erase m }
  let x := s.role m.role
  if x.st = .active ∧ x.epoch = m.epoch then
    let old := s.eng.reqs.filter (fun q => decide (q.role = m.role ∧ (q.epoch ≠ m.epoch ∨ q.held)) && !q.answered)
    .next (old.foldl State.resend s)
  else .next s

/-! Responses (R201). -/

/-- DONE (R201): the request is finished and leaves its sender's record. -/
def rowDone (m : BobbinMsg) (s : State) : Host.Outcome State Fault Refusal :=
  let m := bmsgOf m 0x20
  .next ((s.takeRsp m).dropReq m.dest m.opId)

/-- DATA_READY (R201): the data of a read is in its buffer. -/
def execDataReady (m : BobbinMsg) (s : State) : Host.Outcome State Fault Refusal :=
  let m := bmsgOf m 0x21
  .next ((s.takeRsp m).updReq m.dest m.opId (fun q =>
    if q.verb = vRead ∨ q.verb = vComponent then { q with ready := true } else q))

/-- TOKEN_RETURN (R142): the die that OBJECT's LUN names gives back its token, unless a program of its holds it. -/
def execTokenReturn (m : BobbinMsg) (s : State) : Host.Outcome State Fault Refusal :=
  let m := bmsgOf m 0x23
  let s := s.takeRsp m
  let d := m.die
  let x := s.die d
  if x.token ∧ x.prog = none then
    .next (((s.setDie d { x with token := false, tokenForced := false }).grantTokens (s.groupOf d) (s.colOf d / 16)).settle d)
  else .next s

/-- FAULT (R201): the request has failed and leaves its sender's record. -/
def rowFault (m : BobbinMsg) (s : State) : Host.Outcome State Fault Refusal :=
  let m := bmsgOf m 0x24
  .next ((s.takeRsp m).dropReq m.dest m.opId)

/-! The role supervisor's watch (R208). -/

/-- LIVENESS_PROBE (R208): a probe goes to each bobbin. -/
def execLivenessProbe (t : Nat) (s : State) : Host.Outcome State Fault Refusal :=
  .next { s.atTime t with eng.probed := true }

/-- PROBE_TIMEOUT (R208): a bobbin has not acknowledged its probe within 1,024 stitches. -/
def rowProbeTimeout (bobbin t : Nat) (s : State) : Host.Outcome State Fault Refusal :=
  let s := s.atTime t
  if s.eng.probed then .next (s.bobbinFailed bobbin 1) else .next s

/-- HELD_INPUT_TIMEOUT (R208): a bobbin has held a request unacknowledged for 1,024 stitches with credit free. -/
def rowHeldInputTimeout (bobbin t : Nat) (s : State) : Host.Outcome State Fault Refusal :=
  .next ((s.atTime t).bobbinFailed bobbin 2)

/-- The fault cause of R230 for a bobbin's own report; an illegal microcode state is reported as a microcode check. -/
def faultCause : BobbinFault → Nat
  | .localStore => 3
  | .microcode => 4
  | .illegalState => 4
  | .spareCheck => 6

end Sys2Proof.Machine
end

