-- ==== Sys2Proof/Machine/Channel.lean ====
section
/-! DEFINITION. The channel bus arbiter (R223-R228; rows BUS_ARBITER_DECISION, BUS_TRANSACTION_END and HOLD_CUTOFF). -/

namespace Sys2Proof.Machine

/-- The first request of a list whose requester comes soonest after `last` in round robin (R224). -/
def roundRobin (last : Nat) (rs : List BusReq) : Option BusReq :=
  ((List.range 5).map (fun j => (last + 1 + j) % 5)).findSome? (fun w => rs.find? (fun r => decide (r.who = w)))

/-- Whether high requests are masked for the rest of the window (R225). -/
def Chan.maskedNow (x : Chan) : Bool := decide (x.quota ≤ x.highs)

/-- The window's counters as the next decision finds them: a new window takes the quota in force (R225, R229). -/
def Chan.window1 (x : Chan) (quota : Nat) : Chan :=
  if x.window = 0 ∨ 64 ≤ x.window then { x with window := 0, highs := 0, masked := false, quota := quota } else x

/-- The request that a decision takes (R224). -/
def Chan.pick (x : Chan) : Option BusReq :=
  let rec_ := x.reqs.filter (fun r => decide (r.level = .recovery))
  let high := x.reqs.filter (fun r => decide (r.level = .high))
  let norm := x.reqs.filter (fun r => decide (r.level = .normal))
  match roundRobin x.rrRec rec_, roundRobin x.rrHigh high, roundRobin x.rrNorm norm with
  | some r, _, _ => some r
  | none, some h, some n => if x.maskedNow then some n else some h
  | none, some h, none => some h
  | none, none, n => n

/-- The arbiter after a decision: the request taken, counted in the window unless it is a recovery one (R224, R225). -/
def Chan.take (x : Chan) (r : BusReq) : Chan :=
  let x := { x with reqs := x.reqs.erase r }
  match r.level with
  | .recovery => { x with rrRec := r.who }
  | .high => { x with rrHigh := r.who, window := x.window + 1, highs := x.highs + 1 }
  | .normal => { x with rrNorm := r.who, window := x.window + 1 }

/-- Whether the requester of a decided grant still wants it when it starts (R227). -/
def State.stillWanted (s : State) (r : BusReq) : Bool :=
  let x := s.die (dieOfKey r.die)
  match r.what with
  | .readCmd => !x.reading.isEmpty && !x.dataOut
  | .dataOut => !x.reading.isEmpty && x.dataOut
  | .dataIn => x.prog.isSome
  | .progCmd => x.prog.isSome
  | .progConfirm => x.prog.isSome
  | .eraseCmd => x.erase.isSome
  | .eraseConfirm => x.erase.isSome
  | .resume => x.erase.isSome
  | .suspend => match x.erase with | none => false | some e => e.suspending
  | _ => true

/-- A grant starts: null where its request has been withdrawn, otherwise its step is in the die's ledger first (R210,
R227). -/
def State.startGrant (s : State) (c : Nat) (r : BusReq) : State :=
  let x := s.channel c
  if s.stillWanted r then
    let s := s.setChan c { x with granted := some r, idleNull := false }
    if r.what = .progConfirm then s.updDie (dieOfKey r.die) (fun y => { y with ledger := .progConfirm }) else s
  else
    let s := s.setChan c { x with granted := some r, idleNull := true }
    { s with chan.nullGrants := s.chan.nullGrants + 1 }

/-- BUS_ARBITER_DECISION (R224, R225, R227): the next grant is decided while the present one runs, or starts at once on an
idle bus. A request that a comma holds back has not been made yet (R483). -/
def execBusArbiterDecision (channel : Nat) (s : State) : Host.Outcome State Fault Refusal :=
  let x := s.channel channel
  if x.decided.isSome then .next s
  else
    let y := x.window1 s.chan.hpQuota
    let free := { y with reqs := y.reqs.filter (fun r => !s.commaHolds r) }
    match free.pick with
    | none => .next s
    | some r =>
      let mask := y.maskedNow && free.reqs.any (fun q => decide (q.level = .high)) && !y.masked
      let y := if mask then { y with masked := true } else y
      let s : State := if mask then { s with chan.quotaMasks := s.chan.quotaMasks + 1 } else s
      let y := y.take r
      if x.granted.isSome then .next (s.setChan channel { y with decided := some r })
      else .next ((s.setChan channel y).startGrant channel r)

/-- The bus is free: the grant decided for this moment starts (R227). -/
def State.nextGrant (s : State) (c : Nat) : State :=
  let x := s.channel c
  match x.decided with
  | none => s.setChan c { x with granted := none, idleNull := false }
  | some r => (s.setChan c { x with granted := none, decided := none, idleNull := false }).startGrant c r

/-- What a transaction's end brings about at its die (R142, R145, R147, R209). -/
def State.busDone (s : State) (r : BusReq) : State :=
  let d := dieOfKey r.die
  match r.what with
  | .readCmd =>
    let s := (s.readIssued d).grantTokens (s.groupOf d) (s.colOf d / 16)
    (List.range 16).foldl (fun s c =>
      let e := s.dieOf (s.groupOf d) (16 * (s.colOf d / 16) + c)
      if (s.die e).token then s.settle e else s) s
  | .progConfirm => ((s.updDie d (fun x => { x with progUs := s.now })).busRaise d .normal .status).settle d
  | .eraseConfirm | .resume =>
    ((s.updDie d (fun x => { x with
      erase := x.erase.map (fun (e : EraseRun) => { e with resumedUs := s.now, segmentDone := false }) })).busRaise
        d .normal .status).settle d
  | .sweep => s.endAdoption (roleOf d)
  | _ => s

/-- BUS_TRANSACTION_END (R223, R227). -/
def rowBusTransactionEnd (channel : Nat) (s : State) : Host.Outcome State Fault Refusal :=
  let x := s.channel channel
  match x.granted with
  | none => .next s
  | some r =>
    let s := s.setChan channel { x with granted := none }
    let s := if x.idleNull then s else s.busDone r
    .next (s.nextGrant channel)

/-- A number for each bus transaction, for the record of a cut-off (R226; log 23). -/
def busOpNo : BusOp → Nat
  | .readCmd => 0
  | .dataOut => 1
  | .dataIn => 2
  | .progCmd => 3
  | .progConfirm => 4
  | .eraseCmd => 5
  | .eraseConfirm => 6
  | .suspend => 7
  | .resume => 8
  | .status => 9
  | .sweep => 10
  | .reset => 11
  | .check => 12

/-- The interface checks of the flash channels raised at their scrubber ports, where none waits (R223, R369; log 95). -/
def State.raiseChecks (s : State) : State :=
  (List.range s.channels).foldl (fun s c =>
    let x := s.channel c
    if x.reqs.any (fun r => decide (r.who = 4)) then s
    else s.setChan c { x with reqs := x.reqs ++ [⟨4, .normal, dieKey ⟨c, 0⟩, .check, 0⟩] }) s

/-- HOLD_CUTOFF (R226, R208): the transaction ends at HOLD, is recorded, and is raised again by the bobbin that held it, unless its role
has moved since; the third of a bobbin within 1 s makes it a failed bobbin. -/
def rowHoldCutoff (channel t : Nat) (s : State) : Host.Outcome State Fault Refusal :=
  let s := s.atTime t
  let x := s.channel channel
  match x.granted with
  | none => .next s
  | some r =>
    if x.idleNull then .next s
    else
      let d := dieOfKey r.die
      let b := r.bobbin
      let s := { s with chan.cutoffs := s.chan.cutoffs + 1 }
      let again := decide (r.who = 4 ∨ b = s.holder (roleOf d))
      let s := s.setChan channel { x with granted := none, reqs := if again then r :: x.reqs else x.reqs }
      let y := s.bobbin b
      let cuts := s.now :: y.cutoffs.filter (fun c => decide (s.now < c + 1000000))
      let third := decide (r.who < 4 ∧ 3 ≤ cuts.length)
      let s := s.selvedge { source := 2, code := 0x23, loc := dieLoc d, detail := b * 256 + busOpNo r.what,
                            answer := if third then 4 else 3 }
      let s := if r.who < 4 then s.setBobbin b { y with cutoffs := cuts } else s
      let s := if third then s.bobbinFailed b 5 else s
      .next (s.nextGrant channel)

end Sys2Proof.Machine
end

