-- ==== Sys2Proof/Machine/Io.lean ====
section
/-! DEFINITION. I/O commands past the arbiter's checks and the events of the write path (rows READ to SPILL_TIMER_EXPIRY and
PROGRAM_STATUS_READ). -/

namespace Sys2Proof.Machine

/-! Granted commands (R242, R250). -/

/-- Whether a queued grant is that of a command with an opcode whose Dwords a predicate accepts. -/
def isGrant (c : NvmeCmd) (opcode : BitVec 8) (sel : Sqe → Bool) (p : FnId × (Sqe × Nat)) : Bool :=
  decide (p.1 = c.fn ∧ p.2.2 = c.sqid ∧ p.2.1.cmd = c ∧ p.2.1.opcode = opcode) && sel p.2.1

/-- A command that the arbiter has granted taken up by its row: it leaves the list of grants (R242). -/
def State.takeGrant (s : State) (c : NvmeCmd) (opcode : BitVec 8) (sel : Sqe → Bool := fun _ => true) : Option State :=
  match s.host.granted.find? (isGrant c opcode sel) with
  | none => none
  | some p => some { s with host.granted := s.host.granted.erase p }

/-- What a row does with its command: nothing where the arbiter has not granted it (log 2); a granted command waits at
its grant while the domains it needs are stopped (R450). -/
def State.onGrant (s : State) (c : NvmeCmd) (opcode : BitVec 8) (sel : Sqe → Bool) (act : State → State) : State :=
  if 3 ≤ s.pow.ps then s
  else match s.takeGrant c opcode sel with
  | none => s
  | some s => act s

/-- Whether the Dwords of an entry carry the operands of an I/O command. -/
def ioInEntry (io : IoArgs) (e : Sqe) : Bool :=
  decide (io.slba = e.dw10.toNat + e.dw11.toNat * 2 ^ 32 ∧ io.nlb = e.dw12.toNat % 65536 ∧
    io.dtype = e.dw12.extractLsb' 20 4 ∧ io.dspec = e.dw13.extractLsb' 16 16)

/-- The data-stage violations of a command's pointers, in the order of R250: each with the status that it calls for. -/
def dataFaults (c : NvmeCmd) (mptr lbaf : Nat) : List Nat :=
  let p := match c.dptr with
    | .prp off listOk => if off % 4 ≠ 0 ∨ !listOk then [nvPrpOffset] else []
    | .sgl typeOk lenOk segOk =>
      (if typeOk then [] else [nvSglType]) ++ (if lenOk then [] else [nvSglLength]) ++ (if segOk then [] else [nvSglCount])
  p ++ (if lbaf = 1 ∧ mptr % 4 ≠ 0 then [nvBadField] else [])

/-- A command at its data stage: any violation of its pointers is recorded and it fails with the status of the first (R250). -/
def State.dataStage (s : State) (c : NvmeCmd) (mptr lbaf lba : Nat) (ok : State → State) : State :=
  match dataFaults c mptr lbaf with
  | [] => ok s
  | st :: more => (s.countFaults c.fn c.sqid c.cid (st :: more)).failCmd c.fn c st lba

/-! Reads (R138-R140). -/

/-- A Read past the arbiter (R137, R139, R250). -/
def readCmdRun (c : NvmeCmd) (io : IoArgs) (s : State) : State :=
  match s.tenantOf c.fn, s.outstAt c.fn c.sqid c.cid with
  | some slot, some o =>
    let t := s.tenantD slot
    let n := io.nlb + 1
    let nsid := c.nsid.toNat
    if s.nsze t nsid < io.slba + n then s.failCmd c.fn c nvLbaRange io.slba
    else s.dataStage c io.mptr t.lbaf io.slba (fun s =>
      let cls : ReadClass := if n ≤ 8 ∧ o.cls ≤ 2 then .latency else .bulk
      s.startHostRead c.fn c.sqid c.cid slot nsid io.slba n cls (match c.dptr with | .prp off _ => off | _ => 0))
  | _, _ => s

/-- READ (R138). -/
def rowRead (c : NvmeCmd) (io : IoArgs) (s : State) : Host.Outcome State Fault Refusal :=
  .next (s.onGrant c 0x02#8 (ioInEntry io) (readCmdRun c io))

/-! Writes (R105-R107). -/

/-- A writing command past the arbiter: its range, then its Tack claim (R107, R131). On NSID 1 the end of the range is the matter of
the checks of R118; only a start beyond the namespace is answered here. -/
def writeRun (kind : WKind) (c : NvmeCmd) (io : IoArgs) (s : State) : State :=
  match s.tenantOf c.fn with
  | none => s
  | some slot =>
    let t := s.tenantD slot
    let n := io.nlb + 1
    let nsid := c.nsid.toNat
    let last := if nsid = 1 then io.slba + 1 else io.slba + n
    if s.nsze t nsid < last then s.failCmd c.fn c nvLbaRange io.slba
    else
      s.startWrite { (default : Wr) with
        fn := c.fn
        sqid := c.sqid
        cid := c.cid
        tenant := slot
        nsid := nsid
        kind := kind
        lba := io.slba
        len := n
        dtype := io.dtype
        dspec := io.dspec
        dataErr := if kind = .zeroes then [] else dataFaults c io.mptr t.lbaf }

/-- WRITE (R107). -/
def rowWrite (c : NvmeCmd) (io : IoArgs) (s : State) : Host.Outcome State Fault Refusal :=
  .next (s.onGrant c 0x01#8 (ioInEntry io) (writeRun .write c io))

/-- ZONE_APPEND (R118): its LBA is assigned at reservation. -/
def rowZoneAppend (c : NvmeCmd) (io : IoArgs) (s : State) : Host.Outcome State Fault Refusal :=
  .next (s.onGrant c 0x7D#8 (ioInEntry io) (writeRun .append c io))

/-- WRITE_ZEROES (R106): zero data made inside the device. -/
def rowWriteZeroes (c : NvmeCmd) (io : IoArgs) (s : State) : Host.Outcome State Fault Refusal :=
  .next (s.onGrant c 0x08#8 (ioInEntry io) (writeRun .zeroes c io))

/-- FLUSH (R105, R106): completes with no other effect. -/
def rowFlush (c : NvmeCmd) (s : State) : Host.Outcome State Fault Refusal :=
  .next (s.onGrant c 0x00#8 (fun _ => true) (fun s => s.okCmd c))

/-! Zone Management Send and Receive (R96, R120). -/

/-- A Zone Management Send past the arbiter: its zone start, then its Tack claim (R108, R120). -/
def sendRun (action : Nat) (c : NvmeCmd) (slba : Nat) (all : Bool) (s : State) : State :=
  match s.tenantOf c.fn with
  | none => s
  | some slot =>
    let t := s.tenantD slot
    if !all ∧ s.nsze t 1 ≤ slba then s.failCmd c.fn c nvLbaRange slba
    else if !all ∧ slba % max 1 s.zsize ≠ 0 then s.failCmd c.fn c nvBadField slba
    else (s.startSend ⟨0, c.fn, c.sqid, c.cid, slot, action, slba, all, false, false⟩).tidy

/-- Whether an entry is a Zone Management Send with an action on a zone start (R105). -/
def isSend (action slba : Nat) (all : Bool) (e : Sqe) : Bool :=
  decide (slba = e.dw10.toNat + e.dw11.toNat * 2 ^ 32 ∧ e.dw13.toNat % 256 = action ∧ e.dw13.getLsbD 8 = all)

/-- ZONE_OPEN (R120): Zone Send Action 3. -/
def rowZoneOpen (c : NvmeCmd) (slba : Nat) (all : Bool) (s : State) : Host.Outcome State Fault Refusal :=
  .next (s.onGrant c 0x79#8 (isSend 3 slba all) (sendRun 3 c slba all))

/-- ZONE_CLOSE (R120): Zone Send Action 1. -/
def rowZoneClose (c : NvmeCmd) (slba : Nat) (all : Bool) (s : State) : Host.Outcome State Fault Refusal :=
  .next (s.onGrant c 0x79#8 (isSend 1 slba all) (sendRun 1 c slba all))

/-- ZONE_FINISH (R122): Zone Send Action 2. -/
def rowZoneFinish (c : NvmeCmd) (slba : Nat) (all : Bool) (s : State) : Host.Outcome State Fault Refusal :=
  .next (s.onGrant c 0x79#8 (isSend 2 slba all) (sendRun 2 c slba all))

/-- ZONE_RESET (R561): Zone Send Action 4. -/
def rowZoneReset (c : NvmeCmd) (slba : Nat) (all : Bool) (s : State) : Host.Outcome State Fault Refusal :=
  .next (s.onGrant c 0x79#8 (isSend 4 slba all) (sendRun 4 c slba all))

/-- The ZS value of a zone state (R96; the numbers are the Zoned Namespace command set's, log 35). -/
def zoneStateNo : ZoneSt → Nat
  | .zse => 1
  | .zsio => 2
  | .zseo => 3
  | .zsc => 4
  | .zsro => 13
  | .zsf => 14
  | .zso => 15

/-- Whether a Zone Receive Action Specific Field takes a zone state (R96). -/
def zrasfTakes (zrasf : Nat) (st : ZoneSt) : Bool :=
  match zrasf with
  | 0 => true
  | 1 => decide (st = .zse)
  | 2 => decide (st = .zsio)
  | 3 => decide (st = .zseo)
  | 4 => decide (st = .zsc)
  | 5 => decide (st = .zsf)
  | 6 => decide (st = .zsro)
  | 7 => decide (st = .zso)
  | _ => false

/-- A zone descriptor (R96). -/
def State.zoneDesc (s : State) (z : Nat) (x : Zone) : List Byte :=
  let start := z * s.zsize
  let wp := if x.st.active ∨ x.st = .zse then start + x.rp else 2 ^ 64 - 1
  bytesLE 1 2 ++ bytesLE 1 (zoneStateNo x.st * 16) ++ bytesLE 1 (if x.zfc then 1 else 0) ++ bytesLE 5 0 ++
    bytesLE 8 s.dp.zoneCap ++ bytesLE 8 start ++ bytesLE 8 wp ++ bytesLE 32 0

/-- REPORT_ZONES (R96): zone descriptors from a zone on, as many as the transfer holds. -/
def reportRun (c : NvmeCmd) (slba zra zrasf : Nat) (partialReport : Bool) (maxDesc addr : Nat) (s : State) : State :=
  match s.tenantOf c.fn with
  | none => s
  | some slot =>
    let t := s.tenantD slot
    if zra ≠ 0 ∨ 8 ≤ zrasf then s.failCmd c.fn c nvBadField slba
    else if s.nsze t 1 ≤ slba then s.failCmd c.fn c nvLbaRange slba
    else
      let z0 := slba / max 1 s.zsize
      let zs := ((List.range (t.quota - z0)).map (fun j => z0 + j)).filter (fun z => zrasfTakes zrasf (t.zone z).st)
      let out := zs.take maxDesc
      let n := if partialReport then out.length else zs.length
      let bytes := bytesLE 8 n ++ bytesLE 56 0 ++ out.flatMap (fun z => s.zoneDesc z (t.zone z))
      s.dataStage c 0 0 slba (fun s => (s.emit (.mem c.fn.port addr bytes)).okCmd c)

/-- Zone Management Receive (R96). -/
def rowReportZones (c : NvmeCmd) (slba zra zrasf : Nat) (partialReport : Bool) (maxDesc addr : Nat) (s : State) :
    Host.Outcome State Fault Refusal :=
  .next (s.onGrant c 0x7A#8 (fun e => decide (slba = e.dw10.toNat + e.dw11.toNat * 2 ^ 32))
    (reportRun c slba zra zrasf partialReport maxDesc addr))

/-! Data, lanes, drains and commits (R29, R123, R318, R358). -/

/-- A writing command in flight of a function. -/
def State.writeOf (s : State) (f : FnId) (sqid cid : Nat) : Option Wr :=
  s.wr.writes.find? (fun w => decide (w.fn = f ∧ w.sqid = sqid ∧ w.cid = cid ∧ w.failed = none))

/-- HOST_DATA_ARRIVAL (R29): a sector's data arrives and is put before the lanes; with the last one the host's time ends (R247). -/
def rowHostDataArrival (f : FnId) (sqid cid sector : Nat) (data : SectorData) (md : BitVec 64) (s : State) :
    Host.Outcome State Fault Refusal :=
  match s.writeOf f sqid cid with
  | none => .next s
  | some w =>
    if w.stage = .data ∧ w.kind ≠ .zeroes ∧ sector < w.len ∧ !w.arrived.contains sector ∧ w.dataErr = [] then
      let s := if w.arrived.length + 1 = w.len then s.hostWaited w else s
      .next ((s.sealSector w sector data (if (s.tenantD w.tenant).lbaf = 1 then md else 0#64)).markReady)
    else .next s

/-- SEAM_LANE_COMPLETE (R318): the lane is free again, and its sector goes to the host or into DRAM. -/
def rowSeamLaneComplete (lane : Nat) (tagOk : Bool) (s : State) : Host.Outcome State Fault Refusal :=
  match Tab.find s.rd.lanes lane with
  | none => .next s
  | some j =>
    let s := ({ s with rd.lanes := Tab.del s.rd.lanes lane } : State).seamAssign
    if j.isRead then .next ((s.laneRead j tagOk).tidy)
    else match s.write j.cmd with
      | none => .next s
      | some w =>
        if s.keyReadable w.keySlot w.keyGen then .next (s.sectorSealed w.id j.sector)
        else .next ((s.dataFail w.id nvAccessDenied).pump)

/-- Whether a burst of a sector is still queued on some channel (R359). -/
def State.draining (s : State) (wr sector : Nat) : Bool :=
  s.mem.drains.any (fun p => p.2.any (fun d => decide (d.wr = wr ∧ d.sector = sector)))

/-- Every burst of a swatch, or of a commit record (numbered 64), has drained (R135, R136, R359). -/
def State.sectorProtected (s : State) (wr sector : Nat) : State :=
  match s.write wr with
  | none => s
  | some w =>
    if sector = 64 then
      ({ s with wr.records := s.wr.records ++ [⟨wr, w.tenant, w.nsid, w.lba, w.len, w.gen, s.wr.recordSeq⟩] } : State).updWrite wr
        (fun w => { w with recorded := true })
    else
      let w := { w with prot := addOnce w.prot sector }
      let s := s.updWrite wr (fun _ => w)
      if w.staged ∧ w.allProtected then
        { s with wr.recordSeq := s.wr.recordSeq + 1, mem.drains := Tab.upd [] s.mem.drains 0 (fun q => q ++ [⟨wr, 64, 1⟩]) }
      else s

/-- A channel's oldest queued writes, all of one swatch or record, drained but for `left` bursts (R358, R359). -/
def State.drainHead (s : State) (channel left : Nat) : State :=
  match Tab.get [] s.mem.drains channel with
  | [] => s
  | d :: r =>
    let q := if left = 0 then r else { d with left := left } :: r
    let s := { s with mem.drains := if q = [] then Tab.del s.mem.drains channel else Tab.set s.mem.drains channel q }
    if s.draining d.wr d.sector then s else (s.sectorProtected d.wr d.sector).markReady

/-- DRAM_WRITE_DRAIN (R358): the oldest queued burst of a channel drains. -/
def rowDramWriteDrain (channel : Nat) (s : State) : Host.Outcome State Fault Refusal :=
  match Tab.get [] s.mem.drains channel with
  | [] => .next s
  | d :: _ => .next (s.drainHead channel (d.left - 1))

/-- A read of a swatch whose bursts are still queued on a channel: it waits, counted, while every queued write up to and
including the matching ones drains in order (R358, R375). -/
def State.drainFor (s : State) (channel key : Nat) : State :=
  let q := Tab.get [] s.mem.drains channel
  let hit : Drain → Bool := fun d => match s.write d.wr with
    | some w => decide (d.sector < 64 ∧ secKey w.tenant w.nsid (w.lba + d.sector) = key)
    | none => false
  if q.any hit then
    let n := q.length - (q.reverse.takeWhile (fun d => !hit d)).length
    (List.range n).foldl (fun s _ => s.drainHead channel 0) { s with mem.rawWaits := s.mem.rawWaits + 1 }
  else s

/-- Whether no write that came to satisfy conditions 1-3 earlier waits on the cap: writes that wait on it are admitted in that
order, device-wide (R123). -/
def State.noneBlocked (s : State) (w : Wr) : Bool :=
  s.wr.writes.all (fun x => decide (x.readySeq = 0 ∨ w.readySeq ≤ x.readySeq) ||
    (!x.capWait && decide (s.exposed + x.len ≤ s.capSectors)))

/-- COMMIT_POINT (R123, R558): where every condition holds the write commits; where only the cap stands against it, the oldest
partial chunk is spilled (R124). -/
def rowCommitPoint (f : FnId) (sqid cid t : Nat) (s : State) : Host.Outcome State Fault Refusal :=
  let s := s.atTime t
  match s.writeOf f sqid cid with
  | none => .next s
  | some w =>
    if s.ready123 w && !s.lastCall && s.supply.armed then
      if s.exposed + w.len ≤ s.capSectors then
        if s.noneBlocked w then .next ((s.commit w).pump.tidy) else .next s
      else .next (s.updWrite w.id (fun x => { x with capWait := true })).spillOldest
    else .next s

/-- SPILL_TIMER_EXPIRY (R124): a partial chunk has received no commit for 2 ms. -/
def rowSpillTimerExpiry (tenant nsid index : Nat) (s : State) : Host.Outcome State Fault Refusal :=
  match s.wr.partials.find? (fun p => decide (p.tenant = tenant ∧ p.nsid = nsid ∧ p.index = index)) with
  | none => .next s
  | some p => .next (s.spillPartial p)

/-- PROGRAM_STATUS_READ (R128): a die reports its program, whose confirm has gone out, as passed or failed; `again`: an adopter has
found the die ready and the row erased (R211). -/
def rowProgramStatusRead (die : DieId) (pass : Bool) (us : Nat) (again : Bool) (s : State) : Host.Outcome State Fault Refusal :=
  if s.busPending die .progConfirm || s.adopting die then .next s
  else if again && (s.die die).adopted then .next (s.progAgain die).pump
  else .next ((s.progStatus die pass true us).pump)

end Sys2Proof.Machine
end

