-- ==== Sys2Proof/Machine/Bank.lean ====
section
/-! DEFINITION. The hold-up bank: the flush rate, the gauge's energies and the exposed-data cap (R417, R421-R425). Energies
are kept in half picojoules: one µF times one mV squared. -/

namespace Sys2Proof.Machine

/-! The flush rate (R417). -/

/-- R_F in bytes/s. -/
def State.flushRate (s : State) : Nat :=
  s.channels * min 3200000000 (s.geo.n * 32768 * 100000000 / (1024 + 100 * s.dp.tSlc)) * 1785 / 1920

/-- T0 in µs. -/
def State.flushT0 (s : State) : Nat := s.dp.tProg + 600

/-! The gauge (R421, R422). -/

/-- C in µF: the measured capacitance, or the rated one until a first test (R421). -/
def State.bankUf (s : State) : Nat := if s.supply.cTested then s.supply.cMeasUf else s.supply.prof.cRatedUf

/-- Twice the energy of a bank of `c` µF between `v` and `vmin` mV. -/
def energy2 (c v vmin : Nat) : Nat := c * (v * v - vmin * vmin)

/-- E_V. -/
def State.eV (s : State) : Nat := energy2 s.bankUf s.supply.bankMv s.supply.prof.minMv

/-- E_Q: the same with Q ÷ C for the voltage. -/
def State.eQ (s : State) : Nat :=
  if s.bankUf = 0 then 0
  else s.supply.qUc.toNat * s.supply.qUc.toNat * 1000000 / s.bankUf - s.bankUf * s.supply.prof.minMv * s.supply.prof.minMv

/-- E_USED (R422). -/
def State.eUsed (s : State) : Nat := min s.eQ s.eV

/-- The energy at target. -/
def State.eTarget (s : State) : Nat := energy2 s.bankUf s.supply.prof.targetMv s.supply.prof.minMv

/-- The difference of the two energies. -/
def State.eDiff (s : State) : Nat := max s.eQ s.eV - min s.eQ s.eV

/-- Q anchored to C times the bank's voltage (R421). -/
def State.anchor (s : State) : State := { s with supply.qUc := (s.bankUf * s.supply.bankMv / 1000 : Nat) }

/-- One 100 µs gauge tick: the energies, GAUGE_DISAGREE and the re-anchoring of Q (R421, R422). -/
def State.gaugeTick (s : State) : State :=
  let far := decide (s.eTarget < 10 * s.eDiff)
  let zero := decide (min s.eQ s.eV = 0 ∧ s.eTarget < 10 * max s.eQ s.eV)
  let since : Option Nat → Bool → Option Nat := fun o c => if c then some (o.getD s.now) else none
  let long : Option Nat → Nat → Bool := fun o n => match o with | none => false | some u => decide (u + n ≤ s.now)
  let dis := since s.supply.disagreeUs far
  let ok := since s.supply.okUs (s.supply.disagree && !far && !zero)
  let agree := since s.supply.agreeUs (decide (20 * s.eDiff ≤ s.eTarget ∧ s.supply.cmdMa = 0))
  let flag := long dis 1000000 || zero || (s.supply.disagree && !long ok 10000000)
  let s := { s with
    supply.evMj := s.eV / 2000000000
    supply.eqMj := s.eQ / 2000000000
    supply.disagreeUs := dis
    supply.okUs := if flag then ok else none
    supply.disagree := flag
    supply.agreeUs := agree }
  if long agree 1000000 && !flag then ({ s with supply.agreeUs := some s.now } : State).anchor else s

/-! The cap (R423-R425). -/

/-- Whether an emergency set is fully erased. -/
def State.setReady (s : State) : Bool := s.supply.setErased.any id

/-- The cap in KiB that an energy pays for, within CAP_SET and the room of one emergency set (R424). -/
def State.capFor (s : State) (e2 : Nat) : Nat :=
  if !s.setReady || s.groups = 0 then 0
  else
    let p := s.supply.prof
    let byEnergy := (e2 * p.effPct / (300 * p.pFlushW) - s.flushT0 * 1000000) * s.flushRate / 1000000000000 / 1024
    let room := s.presentGroups.length * (if s.geo.dieType = 3 then 720 else 480) * 1024 * 119 / 120 - 32768
    min p.capKib (min byEnergy room) / 256 * 256

/-- The energy that the cap counts on: during a test, no more than at 0.9 of the target (R423). -/
def State.capEnergy (s : State) : Nat :=
  if s.supply.testWait.isSome || s.supply.testRun.isSome then
    min s.eUsed (energy2 s.bankUf (s.supply.prof.targetMv * 9 / 10) s.supply.prof.minMv)
  else s.eUsed

/-- E_REQ of a cap in KiB, in mJ (R424). -/
def State.eReqMj (s : State) (kib : Nat) : Nat :=
  let p := s.supply.prof
  150 * p.pFlushW * (s.flushT0 + kib * 1024 * 1000000 / max 1 s.flushRate) / p.effPct / 1000

/-- CAP_REDUCED and the times that R425 counts, after a change of CAP_EFF; the flag clears when CAP_EFF is back at
CAP_SET (log 25). -/
def State.noteCap (s : State) : State :=
  let eff := s.supply.capEffKib
  let tiny := if eff < 256 then some (s.supply.capTinyUs.getD s.now) else none
  let s : State := { s with supply.capTinyUs := tiny }
  if s.supply.prof.capKib ≤ eff then
    { s with supply.capReached := true, supply.capShortUs := none, supply.capReduced := false }
  else
    let since := s.supply.capShortUs.getD s.now
    let s : State := { s with supply.capShortUs := some since }
    if (s.supply.capReached || decide (since + 30000000 ≤ s.now)) && !s.supply.capReduced then
      ({ s with supply.capReduced := true } : State).smartEventAll 4 0
    else s

/-- CAP_EFF recomputed: a lower value applies at once, with spills where the exposed count is above it; a higher one waits
100 ms (R124, R424). -/
def State.recap (s : State) : State :=
  let x := s.capFor s.capEnergy
  let s : State :=
    if x < s.supply.capEffKib then
      let s := { s with supply.capEffKib := x, supply.capNext := none }
      State.spillDown s.wr.partials.length s
    else if x = s.supply.capEffKib then { s with supply.capNext := none }
    else { s with supply.capNext := match s.supply.capNext with
        | none => some (x, s.now)
        | some (y, t) => some (min x y, t) }
  s.noteCap

/-- A higher CAP_EFF that has stood for 100 ms applied (R424). -/
def State.raiseCap (s : State) : State :=
  match s.supply.capNext with
  | none => s
  | some (y, t) =>
    if t + 100000 ≤ s.now then ({ s with supply.capEffKib := y, supply.capNext := none } : State).noteCap else s

end Sys2Proof.Machine
end

