-- ==== Sys2Proof/Machine/PowerState.lean ====
section
/-! DEFINITION. Power domains, power states and VCORE levels (R448-R467): the sequencer's steps, wakes, and the idle
timer's conditions. -/

namespace Sys2Proof.Machine

/-! Domains (R448). -/

/-- Flash domains, and bobbin groups, of the part. -/
def State.flashDomains (s : State) : Nat := s.channels / 4

/-- Domains that exist on the part. -/
def State.domains (s : State) : List Nat :=
  [0, 1, 2, 3] ++ (List.range s.flashDomains).map (4 + ·) ++ (List.range s.flashDomains).map (12 + ·) ++ [20] ++
    (if s.cipher then [21] else []) ++ [22, 23, 24, 25]

/-- A port's state. -/
def State.portSt (s : State) : Port → PortSt
  | .a => s.port.a
  | .b => s.port.b

/-- The state with a port's state changed. -/
def State.updPort (s : State) (p : Port) (f : PortSt → PortSt) : State :=
  match p with
  | .a => { s with port.a := f s.port.a }
  | .b => { s with port.b := f s.port.b }

/-- Whether a domain exists and is in Run; a port's domain is stopped while its PERST_N is asserted (R464), and a failed
pair's while it is retired. -/
def State.inRun (s : State) (d : Nat) : Bool :=
  s.domains.contains d && !s.pow.stopped.contains d &&
    (match d with
      | 2 => s.port.a.domainOn
      | 3 => s.port.b.domainOn
      | _ => !(decide (22 ≤ d) && decide (s.eng.pairs.getD (d - 22) 3 = 3)))

/-- The standby Tailor pair, if there is one (R214). -/
def State.standby (s : State) : Option Nat := [0, 1, 2, 3].find? (fun p => decide (s.eng.pairs.getD p 3 = 1))

/-- The bobbin group of a bobbin (R448). -/
def State.groupOfBobbin (s : State) (b : Nat) : Nat := if b < 4 * s.channels then b / 16 else b - 4 * s.channels

/-- The roles whose owner is in a bobbin group. -/
def State.rolesOfGroup (s : State) (f : Nat) : List Nat :=
  (List.range (4 * s.channels)).filter (fun r => decide (s.groupOfBobbin (s.role r).owner = f))

/-- The dies of a role (R203). -/
def State.roleDies (s : State) (r : Nat) : List DieId :=
  ((List.range s.geo.n).map (fun p => (⟨r / 4, p⟩ : DieId))).filter (fun d => decide (roleOf d = r))

/-- Whether a die is ready: it does no read and no program, and its erase, if any, is suspended (R448). -/
def Die.atRest (x : Die) : Bool :=
  x.reading.isEmpty && x.prog.isNone && (match x.erase with | none => true | some e => e.suspended)

/-- Whether no host request waits at a die; background reads keep their place through PS3 and PS4 (R455). -/
def Die.noRequest (x : Die) : Bool := x.progs.isEmpty && x.reads.all (fun r => decide (r.cls = .internal))

/-- Whether the busy bits of a port are those of commands that an entry does not wait for. -/
def State.onlyLatched (s : State) (p : Port) (busy : BitVec 64) : Bool :=
  decide ((s.mbx.accepted.filter (fun c => decide (c.req.port = p) && c.latched && c.holdsSlot)).foldl
    (fun (b : BitVec 64) c => b &&& ~~~(BitVec.ofNat 64 (2 ^ c.req.slot))) busy = 0#64)

/-- Whether no mailbox command keeps a Tailor domain from stopping: none executes or waits and no slot is busy, but for what
arrived since the entry began (R68). -/
def State.mbxAtRest (s : State) : Bool :=
  s.mbx.accepted.all (·.latched) && s.onlyLatched .a s.mbx.portA.busy && s.onlyLatched .b s.mbx.portB.busy

/-- Whether a domain's condition for Stop holds (R448). -/
def State.stopCond (s : State) (d : Nat) : Bool :=
  if d = 2 then s.port.a.l12 || s.port.a.perst
  else if d = 3 then s.port.b.l12 || s.port.b.perst
  else if d < 12 then
    let chs := (List.range 4).map (fun j => 4 * (d - 4) + j)
    chs.all (fun c => (s.channel c).granted.isNone &&
      (List.range 4).all (fun k => !s.inRun (12 + s.groupOfBobbin (s.role (4 * c + k)).owner)))
  else if d < 20 then
    (s.rolesOfGroup (d - 12)).all (fun r => (s.roleDies r).all (fun x => (s.die x).atRest && (s.die x).noRequest)) &&
      s.eng.reqs.all (fun q => decide (s.groupOfBobbin q.dest ≠ d - 12))
  else if d = 20 then s.rd.decodes.isEmpty
  else if d = 21 then s.rd.lanes.isEmpty && s.rd.seamQ.isEmpty
  else
    decide (s.eng.pairs.getD (d - 22) 3 = 1) || s.mbxAtRest

/-- The domains that a power state stops, in the order of R462; a port counts as one whose link has L1.2 enabled where it is
in L1.2 (log 24). -/
def State.composition (s : State) (ps : Nat) : List Nat :=
  let tail := [22 + s.eng.setH, 22 + s.eng.setA, 22 + s.eng.setM]
  let sb := match s.standby with | none => [] | some p => [22 + p]
  let non := (if s.cipher then [21] else []) ++ [20] ++ (List.range s.flashDomains).map (12 + ·) ++
    (List.range s.flashDomains).map (4 + ·) ++ (sb ++ tail).eraseDups
  let ports := if s.pow.polFlags.testBit 2 then
      (if s.port.a.l12 ∧ s.port.a.domainOn then [2] else []) ++ (if s.port.b.l12 ∧ s.port.b.domainOn then [3] else [])
    else []
  match ps with
  | 0 => []
  | 1 => sb
  | 2 => sb
  | 3 => non
  | _ => non ++ ports

/-! VCORE (R27, R466, R467). -/

/-- VCORE_VID driven to a level: the settling wait begins and the working pace is held (R27, R466). -/
def State.setVid (s : State) (l : Nat) : State :=
  if l = s.pow.vid then s
  else
    let hold := if s.pow.vid < l then paceFloor l else s.pace
    { s with
      gauge.hold := some hold
      gauge.newWindows := 0
      pow.oldVcore := s.pow.vcore
      pow.vid := l
      pow.settling := true
      pow.vsteps := s.pow.vsteps + 1 }

/-- The VCORE level of a power state. -/
def State.levelOf (s : State) (ps : Nat) : Nat := s.pow.levels.getD ps 0

/-! Accounting (R472). -/

/-- The state in force becomes `ps`. -/
def State.setPs (s : State) (ps : Nat) : State :=
  { s with
    pow.residUs := bumpAt s.pow.residUs s.pow.ps (s.now - s.pow.psUs)
    pow.psUs := s.now
    pow.ps := ps }

/-- A stop of a domain counted and made. -/
def State.stopDomain (s : State) (d : Nat) : State :=
  { s with
    pow.stopped := d :: s.pow.stopped.erase d
    pow.stops := Tab.upd 0 s.pow.stops d (fun n => min (n + 1) 65535) }

/-- A domain started. -/
def State.startDomain (s : State) (d : Nat) : State := { s with pow.stopped := s.pow.stopped.erase d }

/-- The operational state that is in force or returned to: the one host software selected, raised to CAP_STATE (R457), or PS0
while a sanitise runs (R432). -/
def State.opState (s : State) : Nat := if s.san.s.running then 0 else max s.pow.opPs s.pow.capState

/-! Exit (R448, R457, R462). -/

/-- Every function's queues fetched from. -/
def State.fetchAllFns (s : State) : State :=
  State.fetchIn (4 * s.host.fns.foldl (fun n p => n + p.2.sqs.length) 0) s (s.host.fns.map (fun p => fnOfKey p.1))

/-- Every die looked at again. -/
def State.settleAll (s : State) : State := s.dies.table.foldl (fun s p => s.settle (dieOfKey p.1)) s

/-- The exit has ended: the operational state is in force, CAP_EFF is recomputed before the first commit, and what waited
goes on (R455, R457). -/
def State.exitDone (s : State) : State :=
  let s := ({ s with pow.napFrom := s.pow.psUs, pow.napTo := s.now } : State)
  let s := (s.setPs s.opState).recap
  ({ s with pow.step := .none, pow.lastExitUs := s.now - s.pow.exitUs, pow.idleUs := s.now } : State).settleAll.pump.tidy

/-- The starts begin, in the reverse of the order of the stops; flash domains start at the highest rate of the level (R462,
R467). -/
def State.beginStarts (s : State) : State :=
  let keep := s.composition s.opState
  let s := { s with
    pow.flashSlow := decide (s.pow.vid = 3)
    pow.toStart := s.pow.stopped.filter (fun d => !keep.contains d)
    pow.step := .starts }
  if s.pow.toStart.isEmpty then s.exitDone else s

/-- Exit from PS3 or PS4 begins: VCORE is raised before the first start, and fetching resumes (R457, R462). -/
def State.beginExit (s : State) : State :=
  let s := { s with pow.exitUs := s.now, pow.step := .vcoreUp }
  let s := if s.levelOf s.opState ≠ s.pow.vid then s.setVid (s.levelOf s.opState) else s.beginStarts
  s.fetchAllFns

/-! Wakes (R464, R465). -/

/-- The wake fields of DOMAIN_QUERY, as of the state that the wake ends (R472). -/
def State.noteWake (s : State) (src us fn : Nat) : State :=
  { s with pow.wakeUs := us, pow.wakeSrc := src, pow.wakeState := s.pow.ps, pow.wakeFunc := fn }

/-- A wake (R464): it begins the exit in PS3 or PS4, restarts the idle timer, or is latched during a transition that it may
not shorten (R465). A temperature crossing is a wake in PS3 or PS4 alone (R481). Early warning lets no domain start (R456). -/
def State.wakeUp (s : State) (src fn : Nat) : State :=
  if src = 6 ∧ s.pow.ps < 3 then s else
  match s.pow.step with
  | .none =>
    if s.pow.ps < 3 then { s with pow.idleUs := s.now }
    else if s.supply.ewLatched then s
    else ({ s with pow.wakes := s.pow.wakes + 1 } : State).noteWake src s.now fn |>.beginExit
  | .vcoreUp | .starts | .retryWait => { s with pow.idleUs := s.now }
  | _ => { s with
      pow.wakes := s.pow.wakes + 1
      pow.latched := match s.pow.latched with | none => some (src, (s.now, fn)) | some l => some l }

/-- A latched wake replayed (R465). -/
def State.replayWake (s : State) : State :=
  match s.pow.latched with
  | none => s
  | some (src, (us, fn)) =>
    let s := ({ s with pow.latched := none, pow.idleUs := s.now } : State).noteWake src us fn
    if 3 ≤ s.pow.ps ∧ !s.supply.ewLatched then s.beginExit else s

/-! Operational transitions (R458). -/

/-- A Set Features of an operational state, or a policy, that waited for its transition completes (R459). -/
def State.psCmdDone (s : State) (status : Nat) : State :=
  match s.pow.psCmd with
  | none => s
  | some (f, cid) => ({ s with pow.psCmd := none } : State).complete f { sqid := 0, cid := cid, status := status }

/-- The next step of a transition between operational states: raise VCORE, change the flash rate, lower VCORE, stop or start
the standby pair (R458, R467). -/
def State.moveNext (s : State) : State :=
  match s.pow.pendPs with
  | none => { s with pow.step := .none }
  | some n =>
    let l := s.levelOf n
    if l < s.pow.vid then s.setVid l
    else
      let s : State := { s with pow.flashSlow := decide (l = 3) }
      if s.pow.vid < l then s.setVid l
      else
        let toStop := (s.composition n).filter (fun d => s.inRun d)
        let toStart := s.pow.stopped.filter (fun d => !(s.composition n).contains d)
        if !toStop.isEmpty then { s with pow.toStop := toStop }
        else if !toStart.isEmpty then { s with pow.toStart := toStart }
        else
          let done := decide (n ≠ s.pow.ps)
          let s := s.setPs n
          let s := { s with
            pow.step := .none
            pow.pendPs := none
            pow.attempts := 0
            pow.idleUs := s.now
            pow.entries := s.pow.entries + (if done then 1 else 0)
            pow.lastEntryUs := if done then s.now - s.pow.entryUs else s.pow.lastEntryUs }
          ((s.psCmdDone nvOk).replayWake).settleAll

/-- A transition to an operational state begun (R458). -/
def State.moveTo (s : State) (n : Nat) : State :=
  ({ s with
    pow.step := .moving
    pow.pendPs := some n
    pow.entryUs := s.now
    pow.toStop := []
    pow.toStart := [] } : State).moveNext

/-- Whether POWER_POLICY permits a non-operational state. -/
def State.psPermitted (s : State) (n : Nat) : Bool :=
  match n with
  | 3 => s.pow.polFlags.testBit 0
  | 4 => s.pow.polFlags.testBit 1
  | _ => decide (n < 3)

/-- What a policy change moves: the operational state, or a non-operational state that is no longer permitted (R471). -/
def State.applyPolicy (s : State) : State :=
  if s.pow.step ≠ .none ∨ s.lastCall then s
  else if s.pow.ps < 3 then (if s.opState = s.pow.ps then s else s.moveTo s.opState)
  else if s.psPermitted s.pow.ps then s
  else s.beginExit

/-! Entry to PS3 and PS4 (R454, R461-R463). -/

/-- Every partial chunk's committed sectors spilled (R454 step 4). -/
def State.spillAll (s : State) : State := s.wr.partials.foldl (fun s p => s.spillPartial p) s

/-- Whether the drain of an entry is complete: granted commands done, nothing exposed, nothing staged alone, every die at
rest, and no mailbox slot busy (R68, R454). -/
def State.drained (s : State) : Bool :=
  s.host.granted.isEmpty && s.host.fns.all (fun p => p.2.granted.isEmpty) && s.wr.writes.isEmpty && s.wr.sends.isEmpty &&
    s.rd.reads.isEmpty && decide (s.exposed = 0) && s.wr.staging.isEmpty &&
    s.dies.table.all (fun p => p.2.atRest && p.2.noRequest) && s.mbxAtRest

/-- Entry to PS3 or PS4 begins with its drain (R454). -/
def State.enterNonOp (s : State) (target : Nat) (auto : Bool) : State :=
  let s := { s with
    mbx.accepted := s.mbx.accepted.map (fun (c : MbxCmd) => { c with latched := false })
    pow.target := some target
    pow.auto := auto
    pow.step := .drain
    pow.entryUs := s.now
    pow.held := none }
  (s.spillAll).settleAll

/-- The entry has ended (R465, R472). -/
def State.entered (s : State) : State :=
  let s := s.setPs (s.pow.target.getD 3)
  ({ s with
    pow.step := .none
    pow.target := none
    pow.attempts := 0
    pow.entries := s.pow.entries + 1
    pow.lastEntryUs := s.now - s.pow.entryUs } : State).replayWake

/-- The last stop is done: VCORE steps down to the level of the target (R462). -/
def State.stopsDone (s : State) : State :=
  let l := s.levelOf (s.pow.target.getD 3)
  if l = s.pow.vid then s.entered else ({ s with pow.step := .vcoreDown } : State).setVid l

/-- The stops of an entry begin (R454 step 5, R462). -/
def State.beginStops (s : State) : State :=
  let ds := (s.composition (s.pow.target.getD 3)).filter (fun d => s.inRun d)
  let s := { s with pow.step := .stops, pow.toStop := ds }
  if ds.isEmpty then s.stopsDone else s

/-- An entry given up after eight refusals (R463). -/
def State.entryFailed (s : State) : State :=
  (({ s with
    pow.step := .none
    pow.target := none
    pow.pendPs := none
    pow.attempts := 0
    pow.idleUs := if s.pow.auto then s.now else s.pow.idleUs } : State).psCmdDone 0x021).fetchAllFns

/-- A rollback has ended: the entry is tried again 1 ms later, or given up after the eighth attempt (R463). -/
def State.rollbackDone (s : State) : State :=
  let s := if 8 ≤ s.pow.attempts then s.entryFailed else ({ s with pow.step := .retryWait } : State).fetchAllFns
  (s.replayWake).settleAll

/-- A domain refuses its stop (R463): the refusal is recorded, and the domains stopped in this entry are started again. -/
def State.refuseStop (s : State) (d : Nat) : State :=
  let base := s.composition s.pow.ps
  let back := s.pow.stopped.filter (fun x => !base.contains x)
  let (code, s) := s.draw
  let s := s.selvedge { source := 4, code := code, loc := d, detail := s.pow.target.getD (s.pow.pendPs.getD 0) }
  let s := { s with
    pow.attempts := s.pow.attempts + 1
    pow.refUs := s.now
    pow.refDomain := d
    pow.refTarget := s.pow.target.getD (s.pow.pendPs.getD 0)
    pow.refBack := back.length
    pow.refusals := s.pow.refusals + 1
    pow.toStop := []
    pow.toStart := back
    pow.step := .rollback }
  let s := if s.pow.target.isNone then s.setVid (s.levelOf s.pow.ps) else s
  if back.isEmpty && !s.pow.settling then s.rollbackDone else s

/-- The idle timer's conditions (R461). -/
def State.idle (s : State) : Bool :=
  s.host.granted.isEmpty &&
    s.host.fns.all (fun p => p.2.granted.isEmpty && p.2.sqs.all (fun q => q.pre.isEmpty && decide (q.fetching = 0))) &&
    decide (s.mbx.portA.busy = 0#64 ∧ s.mbx.portB.busy = 0#64) &&
    s.recl.items.all (fun i => decide (i.urg = .background)) &&
    s.host.tenants.all (fun p => decide (p.2.formatting ≠ 1)) && decide (s.hem.actStep = 0) &&
    s.supply.testRun.isNone && s.supply.testWait.isNone && !s.san.s.running

/-- Whether a request for PS3 or PS4 is recorded and acted on later: a format, an activation or a capacitance test runs
(R461). -/
def State.holdsPs (s : State) : Bool :=
  s.host.tenants.any (fun p => decide (p.2.formatting = 1)) || decide (s.hem.actStep ≠ 0) || s.supply.testRun.isSome ||
    s.supply.testWait.isSome

/-- A recorded request for PS3 or PS4 acted on once nothing holds it (R461). -/
def State.releaseHeld (s : State) : State :=
  match s.pow.held, s.pow.step with
  | some n, .none => if s.holdsPs || s.san.s.running || decide (n ≤ s.pow.ps) then s else s.enterNonOp n false
  | _, _ => s

/-- PS3 or PS4 requested by Set Features, its completion already posted (R459, R461). -/
def State.requestNonOp (s : State) (n : Nat) : State :=
  if s.san.s.running then s
  else if s.holdsPs then { s with pow.held := some n }
  else match s.pow.step with
    | .none => s.enterNonOp n false
    | .retryWait => s.enterNonOp n false
    | _ => { s with pow.target := s.pow.target.map (fun _ => n) }

end Sys2Proof.Machine
end

