-- ==== Sys2Proof/Machine/Supply.lean ====
section
/-! DEFINITION. The charger, early warning and the flush, and the capacitance tests (R410-R416, R420, R423). -/

namespace Sys2Proof.Machine

/-! The charger (R410, R420). -/

/-- Whether the charger may charge: armed, no flush, no discharge test (R409, R423, R558). -/
def State.mayCharge (s : State) : Bool := s.supply.armed && !s.supply.flushing && s.supply.testRun.isNone

/-- The commanded charge current in mA (R420). -/
def State.chargeMa (s : State) : Nat :=
  if s.mayCharge && decide (s.supply.bankMv < s.supply.prof.targetMv) then
    s.supply.prof.chgMaxMa * min 400 (s.supply.vinMv - s.supply.prof.ewMv) / 400
  else 0

/-- CHG_CTL driven for a commanded current: its duty in 256ths (R420). -/
def State.driveCharger (s : State) (ma : Nat) : State :=
  if ma = s.supply.cmdMa then s
  else ({ s with supply.cmdMa := ma } : State).emit (.pin 0 (min 255 (ma * 256 / max 1 s.supply.prof.chgMaxMa)))

/-- The charger looked at again: its command and CHG_LIMITED (R420). -/
def State.charge (s : State) : State :=
  let s := s.driveCharger s.chargeMa
  let below := decide (s.supply.bankMv < s.supply.prof.targetMv)
  let fold := s.mayCharge && below && decide (s.supply.vinMv < s.supply.prof.ewMv + 400)
  let weak := decide (s.supply.measMa * 10 < (s.supply.cmdMa : Int) * 9)
  let low := if weak then some (s.supply.lowUs.getD s.now) else none
  let long := match low with | none => false | some u => decide (u + 10000 ≤ s.now)
  { s with
    supply.lowUs := low
    supply.chgLimited := below && (s.supply.chgLimited || fold || long) }

/-! Early warning and the flush (R410-R416). -/

/-- Whether the die of an entry has a program whose confirm has not gone out. -/
def Die.unconfirmed (x : Die) : Bool := x.prog.isSome && decide (x.ledger = .dataIn)

/-- A die at early warning (R410): an unconfirmed program goes back to its queue, and a running erase is suspended. -/
def Die.warned (x : Die) : Die :=
  let x := if x.unconfirmed then { x with progs := x.prog.toList ++ x.progs, prog := none, ledger := .idle } else x
  match x.erase with
  | none => x
  | some e =>
    if e.suspended then x else { x with erase := some { e with suspended := true, suspending := false }, ledger := .eraseSuspended }

/-- Whether a bus request belongs to a program, or to a new or resumed erase. -/
def BusOp.writes : BusOp → Bool
  | .progCmd => true
  | .dataIn => true
  | .progConfirm => true
  | .eraseCmd => true
  | .eraseConfirm => true
  | .resume => true
  | _ => false

/-- A channel at early warning: requests for programs and erases are dropped. -/
def Chan.warned (x : Chan) : Chan :=
  { x with reqs := x.reqs.filter (fun r => !r.what.writes),
           decided := match x.decided with | none => none | some r => if r.what.writes then none else some r }

/-- What the flush writes, in the order of R414: staged blocks, the staging journal, exposed sectors in commit order, and the
tail of the map journal. -/
def State.buildPlan (s : State) : List FlushItem :=
  let staged := (s.wr.staging.filter (fun p => s.wr.expo.contains (p.1, p.2.gen))).map (fun p => FlushItem.sector p.1 p.2)
  let recs := s.wr.records.map (fun r => FlushItem.record r.wr)
  let expo := s.wr.expo.filterMap (fun k =>
    if (Tab.find s.wr.staging k.1).isSome then none else (Tab.find s.wr.swatches k.1).map (FlushItem.sector k.1))
  staged ++ recs ++ expo ++ [.journal]

/-- Whether a flush runs at early warning: not in PS3 or PS4, and not past the drain of an entry to them (R456). -/
def State.flushRuns (s : State) : Bool := s.setReady && !s.asleep

/-- Sectors in a flush plan. -/
def planSectors (xs : List FlushItem) : Nat :=
  (xs.filter (fun x => match x with | .sector _ _ => true | _ => false)).length

/-- Domains stopped by the flush sequencer, which none refuses; the decodes and lane operations under way in them are lost (R448,
R463). -/
def State.forceStops (s : State) (ds : List Nat) : State :=
  let s := (ds.filter (fun d => s.inRun d)).foldl State.stopDomain s
  let s : State := if s.pow.stopped.contains 20 then { s with rd.decodes := [] } else s
  if s.pow.stopped.contains 21 then { s with rd.lanes := [], rd.seamQ := [] } else s

/-- The host ports stopped: both links go down and nothing more is sent (R412). -/
def State.stopPorts (s : State) : State :=
  ({ s with supply.portsStopped := true, port.a.linkUp := false, port.b.linkUp := false } : State).forceStops [2, 3]

/-- What the hard threshold stops besides the host ports: the Tailor, LDPC and cipher domains (R412). -/
def State.hardStops (s : State) : State := s.stopPorts.forceStops [21, 20, 22, 23, 24, 25]

/-- The columns of a half of a group whose dies have failed. -/
def State.deadCols (s : State) (g h : Nat) : List Nat :=
  ((List.range 16).map (fun c => 16 * h + c)).filter (fun c => s.dieFailed (s.dieOf g c))

/-- The descriptor of a flushed item, the `order`th that the flush writes (R415). -/
def State.flushDesc (s : State) (x : FlushItem) (order : Nat) : FlushDesc :=
  let of := fun (handle nsid kind lba gen : Nat) =>
    FlushDesc.mk handle nsid kind lba gen order (Config.flushCrc [handle, nsid, kind, lba, gen, order])
  match x with
  | .sector key y => of y.handle (keyNsid key) 0 (keyLba key) y.gen
  | .record wr => match s.wr.records.find? (fun r => decide (r.wr = wr)) with
    | some r => of (s.handleOf 1 r.tenant) r.nsid 1 r.lba r.gen
    | none => of 0 0 1 0 0
  | .journal => of 0 0 2 0 0

/-- The sequence of the flush under way. -/
def State.flushSeq (s : State) : Nat := s.supply.flushes + 1

/-- A half-stripe of the flush under way, whose first item is the `order`th that the flush writes. -/
def State.flushStripe (s : State) (g h r : Nat) (items : List FlushItem) (order : Nat) (dead bad : List Nat) (abandoned : Bool) :
    FlushStripe :=
  ⟨g, h, r, items, dead, bad, abandoned, items.zipIdx.map (fun e => s.flushDesc e.1 (order + e.2)), s.flushSeq, s.hem.bootCount⟩

/-- The half-stripes that a flush writes from the `k`th on, row by row over the present groups and their halves: 119 sectors in each
after its index sector. A failed die's column is skipped, a program that fails (`fails`: its die and row) is made again at the next
free row of its column, and with a second failure the half-stripe is abandoned and its sectors go on to the next (R415, R416; log
98). `o` items have been written before. -/
def State.layStripes (s : State) (gs : List Nat) (fails : List (DieId × Nat)) : Nat → Nat → Nat → List FlushItem → List FlushStripe
  | 0, _, _, _ => []
  | n + 1, k, o, items =>
    if items = [] then []
    else
      let g := gs.getD (k / 2 % gs.length) 0
      let h := k % 2
      let r := k / (2 * gs.length)
      let dead := s.deadCols g h
      let bad := ((List.range 16).map (fun c => 16 * h + c)).filter (fun c => !dead.contains c && fails.contains (s.dieOf g c, r))
      if 2 ≤ dead.length + bad.length then s.flushStripe g h r [] o dead bad true :: s.layStripes gs fails n (k + 1) o items
      else s.flushStripe g h r (items.take 119) o dead bad false :: s.layStripes gs fails n (k + 1) (o + 119) (items.drop 119)

/-- The half-stripes of the flush under way. -/
def State.flushStripes (s : State) (fails : List (DieId × Nat)) : List FlushStripe :=
  let gs := s.presentGroups
  if gs = [] then [] else s.layStripes gs fails (2 * gs.length * s.dp.rows) 0 0 s.supply.flushPlan

/-- The seal of the flush under way, on the dies at column 0 of the two lowest present groups (R415). -/
def State.flushSealOf (s : State) (stripes : List FlushStripe) : FlushSealRec :=
  ⟨s.flushSeq, stripes.length, s.supply.ewExposed, s.supply.ewStaged,
    Config.flushCrc (stripes.flatMap (fun x => x.index.map (·.crc))), (s.presentGroups.take 2).map (fun g => s.dieOf g 0)⟩

/-- The units of the target set whose programs failed, each with its die and bolt (R416). -/
def State.failedUnits (s : State) (xs : List FlushStripe) : List (DieId × (Nat × Nat)) :=
  (xs.flatMap (fun x =>
    let b := boltNo x.group (4 + s.supply.targetSet)
    x.again.map (fun c => (s.dieOf x.group c, (b, s.unitOf b c))))).eraseDups

/-- The seal is written: the flush has ended, its set is used, and the host ports stop (R412, R415, R416, R440). -/
def State.sealFlush (s : State) (fails : List (DieId × Nat)) : State :=
  let stripes := s.flushStripes fails
  let s := { s with
    supply.flushing := false
    supply.flushed := stripes.flatMap (fun (x : FlushStripe) => x.items)
    supply.stripes := stripes
    supply.sealRec := some (s.flushSealOf stripes)
    supply.retireDue := s.failedUnits stripes
    supply.flushPlan := []
    supply.flushSealed := true
    supply.setErased := s.supply.setErased.set s.supply.targetSet false
    supply.lastFlush := 1
    supply.lastFlushUs := s.now - s.supply.ewUs
    supply.lastFlushKib := 4 * planSectors s.supply.flushPlan
    supply.flushes := s.supply.flushes + 1
    supply.holdEn := s.supply.holdEn && s.supply.hardHit }
  (s.pbExtreme 15 (s.supply.lastFlushUs : Int)).stopPorts

/-- A thermal shutdown's last steps: every domain but the always-on and the DRAM domain stops and the latch is set; the Pattern Book and the Selvedge log show it
from the next power-on (R485, R486). -/
def State.tripShutdown (s : State) : State :=
  ({ s with therm.latch := true, therm.shutDue := false, therm.pastShutdown := true } : State).stopPorts.forceStops (s.domains.drop 4)

/-- The emergency set that the next flush writes: the other one where the target is not erased (R413, R427). -/
def State.pickSet (s : State) : State :=
  if s.supply.setErased.getD s.supply.targetSet false then s
  else if s.supply.setErased.getD (1 - s.supply.targetSet) false then { s with supply.targetSet := 1 - s.supply.targetSet }
  else s

/-- What early warning and a thermal shutdown share: programs and erases stop, and the flush begins where it runs (R410,
R485). A flush under way goes on, and one that has ended for either of them is not made again. Where none runs because the
device is in PS3 or PS4, or past the drain of an entry, LAST_FLUSH reads 0 (R456). -/
def State.beginFlush (s : State) : State :=
  let runs := s.flushRuns
  let s := { s with
    dies.table := s.dies.table.map (fun (q : Nat × Die) => (q.1, q.2.warned))
    chan.table := s.chan.table.map (fun (q : Nat × Chan) => (q.1, q.2.warned)) }
  if s.supply.flushing || s.supply.ewLatched || s.therm.latch then s
  else
    ({ s with
      supply.ewUs := s.now
      supply.lastFlush := if s.asleep then 0 else s.supply.lastFlush
      supply.flushing := runs
      supply.ewExposed := s.exposed
      supply.ewStaged := s.wr.staging.length
      supply.onInput := false
      supply.flushPlan := if runs then s.buildPlan else [] } : State).pickSet

/-- Early warning latched (R410, R456), but for a capacitance test under way. -/
def State.warn (s : State) : State :=
  let runs := s.flushRuns
  let s := s.beginFlush
  let s := ({ s with supply.ewLatched := true, supply.ewEvents := s.supply.ewEvents + 1 } : State).driveCharger 0
  if runs then
    let s : State := match s.pow.step with
      | .drain => { s with pow.step := .none, pow.target := none, pow.attempts := 0 }
      | .retryWait => { s with pow.step := .none, pow.target := none, pow.attempts := 0 }
      | _ => s
    if s.pow.vid = 3 then ({ s with pow.step := .moving, pow.toStop := [], pow.toStart := [] } : State).setVid 2 else s
  else s

/-- A shutdown falls due (R485): the flush runs first where anything may be exposed. -/
def State.shutdownDue (s : State) : State :=
  let s : State := ({ s with therm.shutDue := true } : State).beginFlush
  if s.supply.flushing then s else s.tripShutdown

/-- The draws of an unsealed flush: one for each staged write, which is found whole or not at all (R430, R426 step 4). -/
def State.drawStaged (s : State) : List (Nat × Bool) × State :=
  (s.wr.stagedHeld.map (·.id)).foldl (fun (p : List (Nat × Bool) × State) id =>
    let (v, s) := p.2.draw
    (p.1 ++ [(id, decide (v % 2 = 0))], s)) ([], s)

/-- A device reset finds the flush without its seal (R419, R430): any of what it was writing may or may not be there, a staged
write as a whole (log 11). -/
def State.abandonFlush (s : State) : State :=
  if s.supply.flushing then
    let (staged, s) := s.drawStaged
    let r := s.supply.flushPlan.foldl (fun (p : List FlushItem × State) x =>
      let fate : Option Bool := match x with
        | .sector key _ => (s.wr.stagedHeld.find? (fun e => e.left.any (fun k => decide (k.1 = key)))).bind (fun e => Tab.find staged e.id)
        | .journal => some true
        | _ => none
      match fate with
      | some keep => (if keep then p.1 ++ [x] else p.1, p.2)
      | none =>
        let (v, s) := p.2.draw
        (if v % 2 = 0 then p.1 ++ [x] else p.1, s)) ([], s)
    { r.2 with
      supply.flushing := false
      supply.flushed := r.1
      supply.flushPlan := []
      supply.flushSealed := false
      supply.setErased := s.supply.setErased.set s.supply.targetSet false
      supply.lastFlush := 2
      supply.lastFlushUs := s.now - s.supply.ewUs
      supply.lastFlushKib := 4 * planSectors r.1
      supply.flushes := s.supply.flushes + 1 }
  else s

/-! Capacitance tests (R423). -/

/-- A waiting test begins once the exposed count is down to its cap: the charger stops and HOLD_TEST is asserted. -/
def State.tryTest (s : State) : State :=
  if s.supply.testWait.isSome && decide (s.exposed ≤ s.capSectors) then
    (({ s with supply.testWait := none, supply.testRun := some s.now, supply.holdTest := true } : State).driveCharger 0).emit (.pin 2 1)
  else s

/-- A test begins to wait, with the cap lowered. -/
def State.startTest (s : State) (cmd : Option MbxCmd) : State :=
  (({ s with supply.testWait := some s.now, supply.testCmd := cmd, supply.testRetry := none } : State).recap).tryTest

/-- A test given up or ended: HOLD_TEST is released and charging resumes. -/
def State.stopTest (s : State) : State :=
  let s := if s.supply.holdTest then s.emit (.pin 2 0) else s
  ({ s with supply.testWait := none, supply.testRun := none, supply.testCmd := none, supply.holdTest := false, pow.idleUs := s.now } : State).charge

end Sys2Proof.Machine
end

