-- ==== Sys2Proof/Machine/Mailbox.lean ====
section
/-! DEFINITION. The manager mailbox (R39-R54, R64, R65): doorbells, acceptance, the order of execution, completions and
the outcome log. -/

namespace Sys2Proof.Machine

/-! Registers (R41, R42). -/

/-- The mailbox registers of a port. -/
def State.mbxPort (s : State) : Port → MbxPort
  | .a => s.mbx.portA
  | .b => s.mbx.portB

/-- The state with the mailbox registers of a port replaced. -/
def State.setMbxPort (s : State) (p : Port) (x : MbxPort) : State :=
  match p with
  | .a => { s with mbx.portA := x }
  | .b => { s with mbx.portB := x }

/-- The state with the mailbox registers of a port changed. -/
def State.updMbxPort (s : State) (p : Port) (f : MbxPort → MbxPort) : State := s.setMbxPort p (f (s.mbxPort p))

/-- MBX_STATUS.READY of a port: READY follows a manager reset within 1 ms (R42). -/
def State.mbxReady (s : State) (p : Port) : Bool :=
  (s.mbxPort p).ready || (match (s.mbxPort p).readyAt with | none => false | some u => decide (u ≤ s.now))

/-- Whether a Tailor pair in service serves set M (R214, R217). -/
def State.mServed (s : State) : Bool := decide (s.eng.pairs.getD s.eng.setM 3 = 0)

/-- MBX_STATUS.STATE of a port (R39, R42, R65, R67, R217, R220). -/
def State.mbxState (s : State) (p : Port) : BitVec 2 :=
  if p ≠ s.mbx.manager ∨ s.eng.dead then 3#2
  else if !s.mbxReady p then 2#2
  else if s.mServed then 0#2 else 1#2

/-- A misuse of BAR2 recorded (R39, R41, R48, R51). -/
def State.bar2Misuse (s : State) (p : Port) (detail : Nat) : State :=
  s.selvedge { source := 1, code := 0x0D, fn := fnField ⟨p, 0⟩, detail := detail }

/-- A rejected doorbell or head write: DB_ERR, and its record (R48, R51). -/
def State.mbxReject (s : State) (p : Port) (detail : Nat) : State :=
  (s.updMbxPort p (fun x => { x with dbErr := true })).bar2Misuse p detail

/-- Whether a slot is busy. -/
def MbxPort.slotBusy (x : MbxPort) (slot : Nat) : Bool := x.busy.getLsbD slot

/-- The busy bit of a slot set or cleared. -/
def MbxPort.setBusy (x : MbxPort) (slot : Nat) (b : Bool) : MbxPort :=
  let m := BitVec.ofNat 64 (2 ^ slot)
  { x with busy := if b then x.busy ||| m else x.busy &&& ~~~m }

/-- The registers of a port as a manager reset leaves them; its slot memory keeps its bytes (R42, R46). -/
def State.mbxFresh (s : State) (p : Port) (ready : Bool) (readyAt : Option Nat) : MbxPort :=
  { (default : MbxPort) with slots := (s.mbxPort p).slots, ready := ready, readyAt := readyAt, phase := true }

/-- The registers of a port that takes the manager role: READY, with an empty ring that expects phase 1; what only a manager
reset returns stays, and so do the busy bits of commands still running for the port (R37). -/
def MbxPort.takesRole (x : MbxPort) : MbxPort :=
  { x with ring := [], ready := true, readyAt := none, head := 0#6, tail := 0#6, phase := true, posted := 0, waiting := [] }

/-! Outcome log (R64). -/

/-- The outcome of a command that finishes is written to the outcome log. -/
def State.logOutcome (s : State) (e : OutcomeEntry) : State :=
  { s with
    mbx.log := Tab.set s.mbx.log (s.mbx.logIndex % 64) e
    mbx.logIndex := (s.mbx.logIndex + 1) % 64
    mbx.logNewest := e.seq }

/-- POSTED set in the outcome log once the completion entry is in the ring. -/
def State.markPosted (s : State) (seq : Nat) : State :=
  { s with mbx.log := s.mbx.log.map (fun (p : Nat × OutcomeEntry) =>
      if p.2.seq = seq then (p.1, { p.2 with posted := true }) else p) }

/-! Posting completions (R45, R46, R49, R50). -/

/-- The MSI-X message of a mailbox completion, or the count of its omission (R42, R49). -/
def State.mbxIrq (s : State) (p : Port) (noIrq : Bool) : State :=
  let x := s.mbxPort p
  let v := x.vector.toNat
  if !x.irqEn || noIrq then s
  else if (s.blockOf ⟨p, 0⟩ v).isSome then s.dueMsix ⟨p, 0⟩ v
  else s.selvedge { source := 4, code := 0x50, fn := fnField ⟨p, 0⟩, detail := v }

/-- The power state change of a POWER_POLICY, once its completion is neither to come nor waiting for ring space (R68). -/
def State.policySettle (s : State) : State :=
  let waits (c : List MbxCqe) : Bool := c.any (fun e => decide (e.opcode = 0x0601#16))
  if s.pow.policyDue && !s.mbx.accepted.any (fun c => decide (c.opcode = 0x0601#16) && c.applied) &&
      !waits s.mbx.portA.waiting && !waits s.mbx.portB.waiting then
    ({ s with pow.policyDue := false } : State).applyPolicy
  else s

/-- The role moves to a port (R37, R63): the old function's outstanding commands are cut off, and the new one starts with
an empty ring. -/
def State.moveManager (s : State) (p : Port) : State :=
  if p = s.mbx.manager then s
  else
    let old := s.mbx.manager
    let x := s.mbxPort old
    let held : BitVec 64 := (s.mbx.accepted.filter (fun c => decide (c.req.port = old) && c.holdsSlot)).foldl
      (fun m c => m ||| BitVec.ofNat 64 (2 ^ c.req.slot)) 0#64
    let s := if held = x.busy then s else { s with pow.idleUs := s.now }
    let s := s.setMbxPort old { x with waiting := [], busy := held }
    let cut := s.mbx.accepted.map (fun (c : MbxCmd) => { c with posted := false })
    let s := { s with mbx.manager := p, mbx.movePending := none, mbx.downSince := none, mbx.accepted := cut }
    (s.updMbxPort p MbxPort.takesRole).policySettle

/-- A completion entry written into the ring, after its busy bit is cleared and before its message (R49). -/
def State.mbxStore (s : State) (p : Port) (e : MbxCqe) : State :=
  let x := (s.mbxPort p).setBusy e.slot false
  let i := x.tail.toNat
  let e := { e with phase := x.phase, replayed := decide (e.pair ≠ s.eng.setM) }
  let x := { x with
    ring := Tab.set x.ring i e
    tail := x.tail + 1#6
    phase := if x.tail = 63#6 then !x.phase else x.phase
    posted := x.posted + 1 }
  let s := (((s.setMbxPort p x).markPosted e.seq).emit (.mbx p i e)).mbxIrq p e.noIrq
  { s with pow.idleUs := s.now }

/-- A completion entry written, and a role move that waited for it follows (R63). -/
def State.mbxWrite (s : State) (p : Port) (e : MbxCqe) : State :=
  let s := s.mbxStore p e
  match s.mbx.movePending with
  | none => s
  | some q => if e.opcode = 0x0806#16 then s.moveManager q else s

/-- Waiting completions written in SEQ order while the ring has room (R50). -/
def State.mbxDrain : Nat → State → Port → State
  | 0, s, _ => s
  | n + 1, s, p =>
    let x := s.mbxPort p
    match x.waiting with
    | [] => s
    | e :: r => if x.posted < 64 then State.mbxDrain n ((s.setMbxPort p { x with waiting := r }).mbxWrite p e) p else s

/-- A completion posted, or made to wait for ring space in SEQ order (R50). -/
def State.mbxPost (s : State) (p : Port) (e : MbxCqe) : State :=
  let x := s.mbxPort p
  let w := x.waiting.filter (fun y => decide (y.seq < e.seq)) ++ e :: x.waiting.filter (fun y => decide (e.seq < y.seq))
  (s.setMbxPort p { x with waiting := w }).mbxDrain w.length p

/-- A command finishes (R45, R64, R65): its outcome is logged, and its completion is posted where it still may be. -/
def State.mbxEnd (s : State) (c : MbxCmd) (status offset handle result : Nat) : State :=
  match s.mbx.accepted.find? (fun d => decide (d.seq = c.seq)) with
  | none => s
  | some c =>
    let s := { s with mbx.accepted := s.mbx.accepted.filter (fun d => decide (d.seq ≠ c.seq)) }
    let h := BitVec.ofNat 32 handle
    let st := BitVec.ofNat 8 status
    let s := s.logOutcome ⟨c.seq, c.req.tag, c.opcode, st, false, decide (c.pair ≠ s.eng.setM), h⟩
    if c.posted then
      let lat := s.now - c.atUs
      ((s.pbSample none 19 (bucketQ lat)).pbExtreme 13 (lat : Int)).mbxPost c.req.port ⟨c.req.tag, c.opcode, st, false, c.pair, false, c.req.slot, c.seq, BitVec.ofNat 16 offset, h,
        BitVec.ofNat 96 result, c.req.noIrq⟩
    else if c.holdsSlot then
      { s.updMbxPort c.req.port (fun x => x.setBusy c.req.slot false) with pow.idleUs := s.now }
    else s

/-- A command finishes, and a power state change that waited for its completion follows (R68). -/
def State.mbxFinish (s : State) (c : MbxCmd) (status offset handle result : Nat) : State :=
  (s.mbxEnd c status offset handle result).policySettle

/-! Executing commands (R52). -/

/-- The tenant that a command's target belongs to, if it names one. -/
def State.mbxOwner (s : State) (c : MbxCmd) : Option Nat := s.handleOwner c.req.target.toNat

/-- Whether two commands execute one at a time (R52). -/
def State.mbxConflict (s : State) (c d : MbxCmd) : Bool :=
  decide (c.req.target = d.req.target ∧ c.req.target ≠ 0#32) ||
    (match s.mbxOwner c, s.mbxOwner d with
      | some a, some b => decide (a = b)
      | _, _ => false)

/-- Whether the Tailor pair of set M is there to execute a command: its domain is in Run and no entry to PS3 or PS4 is under
way, and a pair serves the set (R68, R217, R220). -/
def State.mbxServed (s : State) : Bool :=
  decide (s.pow.ps < 3) && !s.eng.dead && s.mServed && !s.entering && !s.pow.stopped.contains (22 + s.eng.setM)

/-- The groups whose allocators a DIEGROUP_ASSIGN or CONV_REGION_SET takes: those of its tenant's set and of the set that it asks
for (R93). -/
def State.allocGroups (s : State) (c : MbxCmd) : List Nat :=
  match s.mbxOwner c with
  | none => []
  | some k =>
    let own := (s.tenantD k).groups
    if c.opcode = 0x0302#16 then own ++ bitsOf (c.req.p 16 4) 32 else if c.opcode = 0x0307#16 then own else []

/-- Whether an executing command holds the allocator of a group that a queued one needs (R93). -/
def State.allocHeld (s : State) (c : MbxCmd) : Bool :=
  s.mbx.accepted.any (fun d => d.started && (s.allocGroups d).any (fun g => (s.allocGroups c).contains g))

/-- Whether the two rules of R52 and the allocators of R93 let a queued command start. -/
def State.mbxFree (s : State) (c : MbxCmd) : Bool :=
  let lower := s.mbx.accepted.filter (fun d => decide (d.seq < c.seq))
  !c.started && !s.allocHeld c && !lower.any (fun d => s.mbxConflict c d || d.req.ordered) && (!c.req.ordered || lower.isEmpty)

/-- Whether a queued command is the one to start now: fewer than 16 execute, and of those that the rules let start it has the
lowest SEQ (R52). -/
def State.mbxMayStart (s : State) (c : MbxCmd) : Bool :=
  s.mbxServed && decide ((s.mbx.accepted.filter (·.started)).length < 16) && s.mbxFree c &&
    !s.mbx.accepted.any (fun d => decide (d.seq < c.seq) && s.mbxFree d)

/-- Whether the boot ROM serves an opcode in recovery mode (R395). -/
def recoveryServes (op : BitVec 16) : Bool := [0x0801#16, 0x0802#16, 0x0803#16, 0x0805#16].contains op

/-- Whether an opcode is not served: in recovery mode most are not (R395), nor without DRAM (R349). -/
def State.mbxBarred (s : State) (op : BitVec 16) : Bool :=
  (s.hem.recovery && !recoveryServes op) || (s.aon.noDram && !decide (op.toNat / 256 = 0x08 ∨ op.toNat / 256 = 0x0A))

/-- What a command that is not served answers: STATE_CONFLICT, unless its own checks answer what R60 puts before that. -/
def MbxRes.barred (s : State) (r : MbxRes) : MbxRes :=
  match r.status with
  | some st => if statusRank st < statusRank stConflict then { state := s, status := some st, offset := r.offset }
    else MbxRes.err s stConflict
  | none => MbxRes.err s stConflict

/-- A command's execution begins (R52): its handler runs, and unless it goes on executing it finishes. RESULT_HANDLE is the
handle created, else the object acted on (R45). -/
def State.mbxRun (s : State) (handler : MbxCmd → MbxReq → State → MbxRes) (c : MbxCmd) : State :=
  let s := { s with mbx.accepted := s.mbx.accepted.map (fun (d : MbxCmd) =>
    if d.seq = c.seq then { d with started := true, applied := true } else d) }
  let r := if s.mbxBarred c.opcode then (handler c c.req s).barred s else handler c c.req s
  match r.status with
  | none => r.state
  | some st =>
    r.state.mbxFinish c st r.offset (if st = stOk ∧ r.handle = 0 then c.req.target.toNat else r.handle) r.result

/-- A doorbell of the manager port accepted (R42, R45): the slot is busy and the command has its SEQ. -/
def State.mbxAccept (s : State) (op : BitVec 16) (r : MbxReq) : MbxCmd × State :=
  let c : MbxCmd := ⟨op, r, s.mbx.seq + 1, false, false, true, s.eng.setM, true, s.entering, s.now⟩
  let s := s.updMbxPort r.port (fun x => x.setBusy r.slot true)
  (c, { s with mbx.seq := s.mbx.seq + 1, mbx.accepted := s.mbx.accepted ++ [c] })

/-- The slot's bytes written, unless the slot is busy (R41). -/
def State.mbxSlotWrite (s : State) (op : BitVec 16) (r : MbxReq) : State :=
  let x := s.mbxPort r.port
  if x.slotBusy r.slot then s.bar2Misuse r.port r.slot
  else s.setMbxPort r.port { x with slots := x.slots.writeBytes (64 * r.slot) (slotBytes op r) }

/-- Whether a port's physical function is there for a host (R38). -/
def State.portThere (s : State) (p : Port) : Bool := !(s.host.joined && decide (p = .b))

/-- A mailbox command as the host submits it: the slot's bytes and the doorbell. A rejected doorbell sets DB_ERR (R39,
R48); an accepted command is a wake (R68), starts at once where R52 lets it, and is queued otherwise. The shutdown latch
lets no doorbell count (R486). -/
def State.mbxSubmit (s : State) (op : BitVec 16) (handler : MbxCmd → MbxReq → State → MbxRes) (r : MbxReq) : State :=
  if !s.portThere r.port ∨ 64 ≤ r.slot ∨ s.therm.latch then s
  else
    let busy := (s.mbxPort r.port).slotBusy r.slot
    let s := s.mbxSlotWrite op r
    if s.mbx.manager ≠ r.port ∨ s.eng.dead ∨ busy ∨ !s.mbxReady r.port then s.mbxReject r.port r.slot
    else
      let (c, s) := s.mbxAccept op r
      let s := s.wakeUp 2 s.managerBase
      if s.mbxMayStart c then s.mbxRun handler c else s

/-! MBX_CQ_HEAD (R51). -/

/-- A write to MBX_CQ_HEAD: entries are consumed, or the write is rejected. -/
def State.mbxHead (s : State) (p : Port) (value : BitVec 32) : State :=
  let x := s.mbxPort p
  let h := value.extractLsb' 0 6
  let adv := (h - x.head).toNat
  if !s.portThere p then s
  else if s.mbx.manager ≠ p ∨ x.posted < adv then s.mbxReject p value.toNat
  else
    let x := { x with head := h, posted := x.posted - adv }
    ((s.setMbxPort p x).mbxDrain x.waiting.length p).policySettle

/-! Resets of the manager function (R42, R65). -/

/-- A mailbox register file whose reset is under way becomes ready. -/
def MbxPort.settleReset (x : MbxPort) : MbxPort :=
  match x.readyAt with
  | none => x
  | some _ => { x with ready := true, readyAt := none }

/-- What an idle block does: READY follows a manager reset within 1 ms (R42, log 1). -/
def State.idleTick (s : State) : State :=
  { s with mbx.portA := s.mbx.portA.settleReset, mbx.portB := s.mbx.portB.settleReset }

/-- What manager resets return besides the mailbox registers: the Pattern Book view, the debug authorisation and the Fray
unit (R498, R521, R529). -/
def State.resetManagerUnits (s : State) : State :=
  { s with
    pb.view := 0
    pb.viewTenant := 0
    dbg.authUntil := none
    dbg.perms := 0#8
    dbg.armed := false
    dbg.trigOut := false
    dbg.rules := []
    dbg.ballDrops := 0 }

/-- A reset of a physical function's mailbox: its registers return, and accepted commands run on with their outcomes in the
outcome log only (R65). A role move that waited for its entry, which is now never written, comes about at once (log 81). -/
def State.resetMailbox (s : State) (p : Port) : State :=
  let s := { s with mbx.accepted := s.mbx.accepted.map (fun (c : MbxCmd) =>
    if c.req.port = p then { c with posted := false, holdsSlot := false } else c) }
  let mgr := decide (p = s.mbx.manager)
  let s := if (s.mbxPort p).busy = 0#64 then s else { s with pow.idleUs := s.now }
  let s := s.setMbxPort p (s.mbxFresh p false (if mgr && s.aon.booted && !s.aon.coreReset then some (s.now + 1000) else none))
  let s : State := match s.mbx.movePending, mgr with
    | some q, true => s.moveManager q
    | _, _ => s
  (if mgr then s.resetManagerUnits else s).policySettle

end Sys2Proof.Machine
end

