-- ==== Sys2Proof/Machine/SupplyRows.lean ====
section
/-! DEFINITION. Rows of the supply: early warning, the hard threshold and the flush, the samples and ticks of the gauge and
the cap, capacitance tests, and their mailbox commands (R408-R425, R440-R443, R558). -/

namespace Sys2Proof.Machine

/-! Early warning, hard threshold, flush (R410-R419). -/

/-- DURATION_MS of a capacitance test. -/
def State.testMs (s : State) : Nat := (s.now - s.supply.testRun.getD s.now) / 1000

/-- The completion fields of a capacitance test (R442). -/
def testResult (cUf result ms : Nat) : Nat := fld 20 4 cUf + fld 24 1 result + fld 28 4 ms

/-- A capacitance test that early warning aborts (R423, R442). -/
def State.abortTest (s : State) : State :=
  if s.supply.testWait.isSome || s.supply.testRun.isSome then
    let cmd := s.supply.testCmd
    let ms := s.testMs
    let s := ({ s with supply.lastTest := 4, supply.lastTestUs := s.now } : State).stopTest
    match cmd with
    | none => s
    | some c => s.mbxFinish c stPowerLimited 0xFFFF 0 (testResult s.supply.cMeasUf 4 ms)
  else s

/-- EARLY_WARNING (R410): latched once the comparators are armed; a crossing while it is latched changes nothing. -/
def execEarlyWarning (t : Nat) (s : State) : Host.Outcome State Fault Refusal :=
  let s := s.atTime t
  if !s.supply.armed || s.supply.ewLatched then .next s
  else .next ((s.abortTest.warn).driveCharger 0)

/-- HARD_THRESHOLD (R412, R418): HOLD_EN is asserted, and the host ports and the Tailor, LDPC and
cipher domains stop, unless the seal is already written. -/
def execHardThreshold (t vinMv : Nat) (s : State) : Host.Outcome State Fault Refusal :=
  let s := s.atTime t
  if s.supply.ewLatched && decide (vinMv < s.supply.prof.hardMv) && !s.supply.flushSealed then
    let s := if s.supply.holdEn then s else s.emit (.pin 1 1)
    .next (({ s with supply.hardHit := true, supply.holdEn := true } : State).hardStops)
  else .next s

/-- FLUSH_SEAL (R415): the flush ends, with the programs that failed in it (R416); a thermal shutdown that waited for it latches
(R410, R485). -/
def execFlushSeal (e : FlushEnd) (s : State) : Host.Outcome State Fault Refusal :=
  let s := s.atTime e.us
  if s.supply.flushing then
    let s := s.sealFlush e.fails
    let s := if s.therm.shutDue then s.tripShutdown else s
    .next s.charge
  else .next s

/-- INPUT_RETURN (R418): HOLD_EN is released. -/
def rowInputReturn (vinMv : Nat) (s : State) : Host.Outcome State Fault Refusal :=
  if s.supply.holdEn && decide (s.supply.prof.ewMv + 200 ≤ vinMv) then
    .next (({ s with supply.holdEn := false } : State).emit (.pin 1 0))
  else .next s

/-- COMPARATOR_ARM (R558): the comparators are armed and charging starts. -/
def execComparatorArm (vinMv : Nat) (s : State) : Host.Outcome State Fault Refusal :=
  if !s.supply.armed && decide (s.supply.prof.ewMv + 200 ≤ vinMv) then
    .next (({ s with supply.armed := true, supply.vinMv := vinMv } : State).charge)
  else .next s

/-! Samples and ticks (R408, R420-R425). -/

/-- VIN_SAMPLE (R408, R420, R493): the sample for the status page, the charger and the extremes. -/
def execVinSample (vinMv bankMv : Nat) (measMa : Int) (s : State) : Host.Outcome State Fault Refusal :=
  let s := { s with
    supply.vinMv := vinMv
    supply.vinMinMv := min s.supply.vinMinMv vinMv
    supply.bankMv := bankMv
    supply.measMa := measMa }
  .next (((s.pbExtreme 3 (vinMv : Int)).pbExtreme 4 (vinMv : Int)).charge)

/-- GAUGE_UPDATE (R421, R422): charge is integrated and both energies computed. -/
def execGaugeUpdate (t bankMv : Nat) (dqUc : Int) (s : State) : Host.Outcome State Fault Refusal :=
  let s := s.atTime t
  let s := ({ s with supply.bankMv := bankMv, supply.qUc := s.supply.qUc + dqUc } : State).gaugeTick
  .next (s.pbExtreme 5 ((s.eUsed / 2000000000 : Nat) : Int))

/-- CAP_RECOMPUTE (R424): the 10 ms tick; a test that waits for the exposed count looks at it (R423). -/
def execCapRecompute (t : Nat) (s : State) : Host.Outcome State Fault Refusal :=
  .next (((s.atTime t).recap).tryTest)

/-- CAP_RAISE_DELAY (R424): a higher cap that has stood for 100 ms is applied. -/
def execCapRaiseDelay (t : Nat) (s : State) : Host.Outcome State Fault Refusal := .next ((s.atTime t).raiseCap)

/-! Capacitance tests (R423, R442). -/

/-- Whether a test may start: none is under way, and early warning has not latched. -/
def State.testFree (s : State) : Bool :=
  s.supply.testWait.isNone && s.supply.testRun.isNone && !s.lastCall && s.supply.armed

/-- CAPACITANCE_TEST_PERIOD (R423): a scheduled test begins. -/
def execCapacitanceTestPeriod (t : Nat) (s : State) : Host.Outcome State Fault Refusal :=
  let s := s.atTime t
  if s.testFree && decide (s.pow.ps < 3) && s.supply.testRetry.isNone &&
      decide (s.supply.lastTestUs + s.supply.prof.testPeriodH * 3600000000 ≤ s.now) then
    .next (s.startTest none)
  else .next s

/-- CAPACITANCE_TEST_RETRY (R423): 60 s after a scheduled test was given up it begins again. -/
def execCapacitanceTestRetry (t : Nat) (s : State) : Host.Outcome State Fault Refusal :=
  let s := s.atTime t
  match s.supply.testRetry with
  | none => .next s
  | some u => if s.testFree && decide (u + 60000000 ≤ s.now) then .next (s.startTest none) else .next s

/-- CAPACITANCE_TEST_WAIT_LIMIT (R423, R442): a test that has waited 1 s is given up: a scheduled one is retried later, a
commanded one completes with BUSY_RETRY. -/
def execCapacitanceTestWaitLimit (t : Nat) (s : State) : Host.Outcome State Fault Refusal :=
  let s := s.atTime t
  match s.supply.testWait with
  | none => .next s
  | some u =>
    if u + 1000000 ≤ s.now then
      match s.supply.testCmd with
      | none => .next (({ s.stopTest with supply.testRetry := some s.now } : State).releaseHeld)
      | some c => .next ((s.stopTest.mbxFinish c stBusyRetry 0xFFFF 0 0).releaseHeld)
    else .next s

/-- CAPACITANCE_TEST_END (R423): C_MEAS is the charge over the voltage drop, and the result is graded. BACKUP_FAILED clears at
the next test that passes (log 26). -/
def rowCapacitanceTestEnd (t dqUc dvMv : Nat) (timedOut : Bool) (s : State) : Host.Outcome State Fault Refusal :=
  let s := s.atTime t
  if s.supply.testRun.isNone then .next s
  else
    let c := if dvMv = 0 then 0 else dqUc * 1000 / dvMv
    let rated := s.supply.prof.cRatedUf
    let res := if timedOut ∨ 2 * c < rated then 3 else if 10 * c < 8 * rated then 2 else 1
    let ms := s.testMs
    let cmd := s.supply.testCmd
    let s := { s with
      supply.cMeasUf := c
      supply.cTested := true
      supply.lastTest := res
      supply.lastTestUs := s.now
      supply.backupFailed := decide (res = 3) || (s.supply.backupFailed && decide (res ≠ 1))
      supply.noSealWarn := s.supply.noSealWarn && decide (res ≠ 1) }
    let s := s.pbExtreme 16 (c : Int)
    let s := (if res = 1 then s.anchor else s).stopTest
    let s : State := match cmd with
      | none => s
      | some m => s.mbxFinish m stOk 0xFFFF 0 (testResult c res ms)
    .next s.releaseHeld

/-- CAPACITANCE_TEST (R442): it runs the test and completes when the test ends. -/
def capacitanceTestCmd (c : MbxCmd) (r : MbxReq) (s : State) : MbxRes :=
  r.guard0 s [r.rsv 16 48]
    ((s.supply.ewLatched, stPowerLimited) :: (s.supply.testWait.isSome || s.supply.testRun.isSome, stBusyRetry) :: s.acts)
    (fun _ => MbxRes.goesOn (s.startTest (some c)))

/-- CAPACITANCE_TEST. -/
def execCapacitanceTest (r : MbxReq) (s : State) : Host.Outcome State Fault Refusal :=
  .next (s.mbxSubmit 0x0606#16 capacitanceTestCmd r)

/-! The supply area (R440, R441). -/

/-- A flag byte from its bits, lowest first. -/
def flagByte (bs : List Bool) : Nat := (bs.zipIdx.map (fun p => if p.1 then 2 ^ p.2 else 0)).foldl (· + ·) 0

/-- The 256 bytes of R440. -/
def State.supplyArea (s : State) : List Byte :=
  let x := s.supply
  let flags := flagByte [x.ewLatched, x.flushing, x.chgLimited, x.disagree, x.capReduced, x.backupFailed, x.holdEn,
    x.testRun.isSome]
  let sets := flagByte [x.setErased.getD 0 false, x.setErased.getD 1 false, decide (x.targetSet = 1)]
  bytesLE 2 x.vinMv ++ bytesLE 2 x.vinMinMv ++ bytesLE 2 x.bankMv ++ bytesLE 2 x.cmdMa ++
    bytesLE 2 (x.measMa % 65536).toNat ++ bytesLE 2 0 ++ bytesLE 4 x.evMj ++ bytesLE 4 x.eqMj ++
    bytesLE 4 (min x.evMj x.eqMj) ++ bytesLE 4 (s.eReqMj x.prof.capKib) ++ bytesLE 4 x.prof.capKib ++
    bytesLE 4 x.capEffKib ++ bytesLE 4 (4 * s.exposed) ++ bytesLE 4 x.cMeasUf ++ bytesLE 4 x.prof.cRatedUf ++
    bytesLE 8 x.lastTestUs ++ bytesLE 1 flags ++ bytesLE 1 sets ++ bytesLE 1 x.lastFlush ++ bytesLE 1 x.lastTest ++
    bytesLE 4 x.lastFlushUs ++ bytesLE 4 x.lastFlushKib ++ bytesLE 4 x.flushes ++ bytesLE 4 x.ewEvents ++ bytesLE 180 0

/-- HOLDUP_QUERY (R441). -/
def holdupQueryCmd (_ : MbxCmd) (r : MbxReq) (s : State) : MbxRes :=
  r.guard0 s (r.bufOffences 16 24 256 ++ [r.rsv 28 36]) s.buffers
    (fun _ => r.buffer s 16 (fun _ => MbxRes.ok (r.output s 16 24 s.supplyArea)))

/-- HOLDUP_QUERY. -/
def execHoldupQuery (r : MbxReq) (s : State) : Host.Outcome State Fault Refusal :=
  .next (s.mbxSubmit 0x0605#16 holdupQueryCmd r)

/-! EXPOSED_CAP_SET (R443). -/

/-- Whether a field of PARAMS lies outside a range. -/
def outOf (r : MbxReq) (off len lo hi : Nat) : Option Nat := badIf (decide (r.p off len < lo ∨ hi < r.p off len)) off

/-- The offences of the groups that SELECT names (R443). -/
def capSetOffences (r : MbxReq) : List (Option Nat) :=
  (if r.bit 20 0 then [outOf r 16 4 256 4194304, badIf (decide (r.p 16 4 % 256 ≠ 0)) 16] else []) ++
  (if r.bit 20 1 then [outOf r 24 2 10400 11800, badIf (decide (r.p 26 2 < 9600 ∨ r.p 24 2 < r.p 26 2 + 400)) 26] else []) ++
  (if r.bit 20 2 then [outOf r 28 2 20000 38000, badIf (decide (r.p 30 2 < 8000 ∨ r.p 28 2 < r.p 30 2 + 5000)) 30,
    outOf r 32 4 1000 100000, outOf r 36 2 20 400, outOf r 38 1 50 99, outOf r 39 1 1 168, outOf r 40 2 100 4000] else [])

/-- A profile with the selected groups of the command applied. -/
def capSetApply (r : MbxReq) (p : Profile) : Profile :=
  let p : Profile := if r.bit 20 0 then { p with capKib := r.p 16 4 } else p
  let p : Profile := if r.bit 20 1 then { p with ewMv := r.p 24 2, hardMv := r.p 26 2 } else p
  if r.bit 20 2 then
    { p with
      targetMv := r.p 28 2
      minMv := r.p 30 2
      cRatedUf := r.p 32 4
      pFlushW := r.p 36 2
      effPct := r.p 38 1
      testPeriodH := r.p 39 1
      chgMaxMa := r.p 40 2 }
  else p

/-- EXPOSED_CAP_SET past its checks. -/
def capSetRun (r : MbxReq) (s : State) : MbxRes :=
  let save := r.bit 20 3
  let s := { s with
    supply.savedProf :=
      if save then some (capSetApply r (s.supply.savedProf.getD State.reset.supply.prof)) else s.supply.savedProf
    supply.prof := capSetApply r s.supply.prof
    supply.capReached := if r.bit 20 0 then false else s.supply.capReached
    supply.capShortUs := if r.bit 20 0 then none else s.supply.capShortUs }
  let s := s.recap.charge
  MbxRes.ok s 0 (fld 20 4 s.supply.capEffKib + fld 24 4 (s.eReqMj s.supply.prof.capKib) + fld 28 1 (if save then 1 else 0))

/-- EXPOSED_CAP_SET (R443): with PERSIST the selected values are saved too. -/
def exposedCapSetCmd (_ : MbxCmd) (r : MbxReq) (s : State) : MbxRes :=
  r.guard0 s ([r.rsvBits 20 4, r.rsv 21 3, r.rsv 42 22] ++ capSetOffences r)
    (if r.bit 20 3 then s.writes else s.acts)
    (fun _ => if r.bit 20 3 then r.hem s (fun _ => capSetRun r s) else capSetRun r s)

/-- EXPOSED_CAP_SET. -/
def execExposedCapSet (r : MbxReq) (s : State) : Host.Outcome State Fault Refusal :=
  .next (s.mbxSubmit 0x0607#16 exposedCapSetCmd r)

end Sys2Proof.Machine
end

