-- ==== Sys2Proof/Machine/PowerRows.lean ====
section
/-! DEFINITION. Rows of the power sequencer (R454-R466) and the mailbox commands POWER_POLICY, DOMAIN_QUERY and VCORE_POLICY
(R471-R473). -/

namespace Sys2Proof.Machine

/-! VCORE_POLICY waits for its step (R473). -/

/-- RESULT of VCORE_POLICY. -/
def State.vcoreResult (s : State) (r : MbxReq) : Nat := fld 20 1 s.pow.vcore + fld 21 1 (if r.bit 21 0 then 1 else 0)

/-- VCORE_POLICY commands whose step has ended complete. -/
def State.finishVcore (s : State) : State :=
  if s.pow.step = .none then
    (s.mbx.accepted.filter (fun c => c.started && decide (c.opcode = 0x0603#16))).foldl
      (fun s c => s.mbxFinish c stOk 0xFFFF 0 (s.vcoreResult c.req)) s
  else s

/-! Idle timer and entry (R454, R460-R463). -/

/-- ITPS and ITPT (ms) of the APST entry of a power state (R460). -/
def State.apstOf (s : State) (ps : Nat) : Nat × Nat :=
  let e := s.pow.apst.getD ps 0#64
  ((e.extractLsb' 3 5).toNat, (e.extractLsb' 8 24).toNat)

/-- IDLE_TIMER_EXPIRY (R461): entry to the target of the current state's APST entry begins. -/
def execIdleTimerExpiry (t : Nat) (s : State) : Host.Outcome State Fault Refusal :=
  let s := s.atTime t
  let (itps, itpt) := s.apstOf s.pow.ps
  if s.pow.apste && s.idle && decide (3 ≤ itps ∧ itps ≤ 4 ∧ s.pow.ps < itps) && s.psPermitted itps &&
      decide (s.pow.step = .none) && !s.lastCall && decide (s.pow.idleUs + itpt * 1000 ≤ s.now) then
    .next (s.enterNonOp itps true)
  else .next s

/-- POWER_DRAIN_END (R454): the stops begin once the drain is complete; a checkpoint of the Pattern Book falls due (R496). -/
def rowPowerDrainEnd (t : Nat) (s : State) : Host.Outcome State Fault Refusal :=
  let s := s.atTime t
  if s.pow.step = .drain then
    if s.drained then .next (({ s with pb.ckptDue := s.pb.ckptDue || s.pb.dirty } : State).beginStops)
    else .next s.spillAll
  else .next s

/-- The domain asked to stop next, if the sequencer is stopping domains. -/
def State.asked (s : State) : Option Nat :=
  if s.pow.step = .stops ∨ s.pow.step = .moving then s.pow.toStop.head? else none

/-- A domain has stopped; early warning lets the sequencer go no further in an entry (R456, R462). -/
def State.stopped (s : State) (d : Nat) : State :=
  let s := s.stopDomain d
  let s := { s with pow.toStop := s.pow.toStop.tail }
  if s.pow.step = .moving then (if s.pow.toStop.isEmpty then s.moveNext else s)
  else if s.supply.ewLatched then { s with pow.toStop := [] }
  else if s.pow.toStop.isEmpty then s.stopsDone
  else s

/-- DOMAIN_STOP_ANSWER (R463): a domain accepts where its condition for Stop holds, and otherwise refuses. -/
def rowDomainStopAnswer (domain : Nat) (accept : Bool) (t : Nat) (s : State) : Host.Outcome State Fault Refusal :=
  let s := s.atTime t
  if s.asked = some domain then
    if accept && s.stopCond domain then .next (s.stopped domain).finishVcore else .next (s.refuseStop domain)
  else .next s

/-- DOMAIN_STOP_TIMEOUT (R463): no answer within 100 µs counts as a refusal. -/
def rowDomainStopTimeout (domain t : Nat) (s : State) : Host.Outcome State Fault Refusal :=
  let s := s.atTime t
  if s.asked = some domain then .next (s.refuseStop domain) else .next s

/-- ENTRY_RETRY (R463): 1 ms after a rollback the entry is attempted again. -/
def execEntryRetry (t : Nat) (s : State) : Host.Outcome State Fault Refusal :=
  let s := s.atTime t
  if s.pow.step = .retryWait then
    match s.pow.target, s.pow.pendPs with
    | some n, _ => .next (s.enterNonOp n s.pow.auto)
    | none, some n => .next (s.moveTo n)
    | none, none => .next { s with pow.step := .none }
  else .next s

/-- DOMAIN_START_DONE (R448, R462): the next start proceeds, or the exit, rollback or transition goes on. -/
def rowDomainStartDone (domain t : Nat) (s : State) : Host.Outcome State Fault Refusal :=
  let s := s.atTime t
  if s.pow.toStart.head? = some domain ∧ !s.pow.settling then
    let s := s.startDomain domain
    let s := { s with pow.toStart := s.pow.toStart.tail }
    if s.pow.toStart.isEmpty then
      match s.pow.step with
      | .starts => .next s.exitDone
      | .rollback => .next s.rollbackDone
      | .moving => .next s.moveNext.finishVcore
      | _ => .next s
    else .next s
  else .next s

/-- VCORE_SETTLED (R466): the level commanded is reached, and the transition goes on. After early warning in PS1 or PS2 the
flash channels return to 3,600 MT/s (R456). -/
def rowVcoreSettled (t : Nat) (s : State) : Host.Outcome State Fault Refusal :=
  let s := s.atTime t
  if s.pow.settling then
    let s := { s with pow.settling := false, pow.vcore := s.pow.vid, pow.settledUs := s.now }
    match s.pow.step with
    | .vcoreDown => .next s.entered
    | .vcoreUp => .next s.beginStarts
    | .moving =>
      if s.supply.ewLatched then .next { s with pow.step := .none, pow.pendPs := none, pow.flashSlow := false }
      else .next s.moveNext.finishVcore
    | .rollback =>
      let s := { s with pow.flashSlow := decide (s.pow.vcore = 3) }
      if s.pow.toStart.isEmpty then .next s.rollbackDone else .next s
    | _ => .next s
  else .next s

/-! Wakes (R455, R464). -/

/-- WAKE (R464): a source with its code. -/
def rowWake (source t : Nat) (tenant : Option Nat) (s : State) : Host.Outcome State Fault Refusal :=
  let s := s.atTime t
  if 1 ≤ source ∧ source ≤ 7 ∧ !s.therm.latch then .next (s.wakeUp source (tenant.getD 0xFFFF)) else .next s

/-- L1_2_EXIT (R464): the host leaves L1.2; on a stopped port that is a wake. -/
def rowL12Exit (port : Port) (t : Nat) (s : State) : Host.Outcome State Fault Refusal :=
  let s := s.atTime t
  let was := (s.portSt port).l12
  let s := s.updPort port (fun p => { p with l12 := false })
  if was ∧ s.pow.stopped.contains (2 + portNo port) ∧ !s.therm.latch then .next (s.wakeUp 3 0xFFFF) else .next s

/-- LINK_L1_2_ENTRY (R448): the port's condition for Stop can hold. -/
def execLinkL12Entry (port : Port) (s : State) : Host.Outcome State Fault Refusal :=
  .next (s.updPort port (fun p => if p.linkUp ∧ !p.perst then { p with l12 := true } else p))

/-- MAINTENANCE_WAKE (R455): MAINT_H hours have passed in PS3 or PS4. -/
def execMaintenanceWake (t : Nat) (s : State) : Host.Outcome State Fault Refusal :=
  let s := s.atTime t
  if 3 ≤ s.pow.ps ∧ s.pow.psUs + s.pow.maintH * 3600000000 ≤ s.now ∧ !s.therm.latch then .next (s.wakeUp 7 0xFFFF) else .next s

/-! POWER_POLICY (R471). -/

/-- PROFILE_DATA as 15 numbers. -/
def profileOf (r : MbxReq) : List Nat := (List.range 15).map (fun i => r.p (24 + 2 * i) 2)

/-- The offences of PROFILE_DATA: an MP of 0, or above that of a lower-numbered state. -/
def profileOffences (r : MbxReq) : List (Option Nat) :=
  if r.bit 17 4 then
    (List.range 5).map (fun i => badIf (decide (r.p (24 + 6 * i) 2 = 0 ∨
      (0 < i ∧ r.p (24 + 6 * (i - 1)) 2 < r.p (24 + 6 * i) 2))) (24 + 6 * i))
  else []

/-- POWER_POLICY past its checks; the power state change that it causes waits for its completion entry (R68). -/
def powerPolicyRun (r : MbxReq) (s : State) : MbxRes :=
  let save := r.bit 17 3
  let s := { s with
    pow.capState := r.p 16 1
    pow.polFlags := r.p 17 1 % 8
    pow.maintH := r.p 18 2
    pow.profile := if r.bit 17 4 then profileOf r else s.pow.profile }
  let s := if save then { s with pow.savedPolicy := some (s.pow.capState, (s.pow.polFlags, (s.pow.maintH, s.pow.profile))) } else s
  MbxRes.ok { s with pow.policyDue := true } 0 (fld 20 1 s.pow.ps + fld 21 1 s.pow.capState + fld 22 1 (if save then 1 else 0))

/-- POWER_POLICY (R471). -/
def powerPolicyCmd (_ : MbxCmd) (r : MbxReq) (s : State) : MbxRes :=
  r.guard0 s ([outOf r 16 1 0 2, r.rsvBits 17 5, badIf (r.bit 17 1 && !r.bit 17 0) 17, outOf r 18 2 1 168, r.rsv 20 4,
      r.rsv 54 10] ++ profileOffences r)
    (if r.bit 17 3 then s.writes else s.acts)
    (fun _ => if r.bit 17 3 then r.hem s (fun _ => powerPolicyRun r s) else powerPolicyRun r s)

/-- POWER_POLICY. -/
def execPowerPolicy (r : MbxReq) (s : State) : Host.Outcome State Fault Refusal :=
  .next (s.mbxSubmit 0x0601#16 powerPolicyCmd r)

/-! DOMAIN_QUERY (R472). -/

/-- STATE of a domain entry. -/
def State.domainState (s : State) (d : Nat) : Nat :=
  if !s.domains.contains d then 4
  else if s.asked = some d then 2
  else if s.pow.toStart.head? = some d then 3
  else if s.inRun d then 0
  else 1

/-- The number of a clock source. -/
def clkSrcNo : ClkSrc → Nat
  | .crystal => 0
  | .rcQualify => 1
  | .rcFallback => 2

/-- PS_TARGET. -/
def State.psTarget (s : State) : Nat := match s.pow.target, s.pow.pendPs with
  | some n, _ => n
  | none, some n => n
  | none, none => 0xFF

/-- The 256 bytes of R472. -/
def State.domainArea (s : State) : List Byte :=
  let x := s.pow
  let flags := flagByte [s.entering || decide (x.step = .moving), s.exiting, x.latched.isSome, x.apste, s.clk.fault]
  let resid := bumpAt x.residUs x.ps (s.now - x.psUs)
  bytesLE 1 x.ps ++ bytesLE 1 s.psTarget ++ bytesLE 1 x.vcore ++ bytesLE 1 (if x.flashSlow then 1 else 0) ++
    bytesLE 1 (clkSrcNo s.clk.src) ++ bytesLE 1 flags ++ bytesLE 2 0 ++
    bytesLE 4 (maskOf ((List.range 26).filter (fun d => s.inRun d))) ++ bytesLE 4 (maskOf s.domains) ++
    bytesLE 8 x.wakeUs ++ bytesLE 1 x.wakeSrc ++ bytesLE 1 x.wakeState ++ bytesLE 2 x.wakeFunc ++ bytesLE 4 x.wakes ++
    bytesLE 8 x.refUs ++ bytesLE 1 x.refDomain ++ bytesLE 1 x.refTarget ++ bytesLE 1 x.refBack ++ bytesLE 1 0 ++
    bytesLE 4 x.refusals ++ bytesLE 4 x.entries ++ bytesLE 4 x.vsteps ++ bytesLE 4 x.lastEntryUs ++ bytesLE 4 x.lastExitUs ++
    resid.flatMap (fun u => bytesLE 8 (u / 1000)) ++ bytesLE 24 0 ++
    (List.range 26).flatMap (fun d => bytesLE 1 (s.domainState d) ++ bytesLE 1 0 ++ bytesLE 2 (Tab.get 0 x.stops d)) ++
    bytesLE 24 0

/-- DOMAIN_QUERY (R472). -/
def domainQueryCmd (_ : MbxCmd) (r : MbxReq) (s : State) : MbxRes :=
  r.guard0 s (r.bufOffences 16 24 256 ++ [r.rsv 28 36]) s.buffers
    (fun _ => r.buffer s 16 (fun _ => MbxRes.ok (r.output s 16 24 s.domainArea)))

/-- DOMAIN_QUERY. -/
def execDomainQuery (r : MbxReq) (s : State) : Host.Outcome State Fault Refusal :=
  .next (s.mbxSubmit 0x0602#16 domainQueryCmd r)

/-! VCORE_POLICY (R473). -/

/-- The offences of the level codes: above 3, code 3 for PS0 or PS1, or below that of a lower-numbered state. -/
def levelOffences (r : MbxReq) : List (Option Nat) :=
  (List.range 5).map (fun i => badIf (decide (3 < r.p (16 + i) 1 ∨ (i < 2 ∧ r.p (16 + i) 1 = 3) ∨
    (List.range i).any (fun j => decide (r.p (16 + i) 1 < r.p (16 + j) 1)) = true)) (16 + i))

/-- VCORE_POLICY past its checks: the step of the state in force is made at once. -/
def vcorePolicyRun (r : MbxReq) (s : State) : MbxRes :=
  let levels := (List.range 5).map (fun i => r.p (16 + i) 1)
  let s := { s with pow.levels := levels, pow.savedLevels := if r.bit 21 0 then some levels else s.pow.savedLevels }
  if s.pow.step = .none ∧ s.pow.ps < 3 ∧ !s.lastCall ∧ s.levelOf s.pow.ps ≠ s.pow.vid then
    let s := s.moveTo s.pow.ps
    if s.pow.step = .none then MbxRes.ok s 0 (s.vcoreResult r) else MbxRes.goesOn s
  else MbxRes.ok s 0 (s.vcoreResult r)

/-- VCORE_POLICY (R473). -/
def vcorePolicyCmd (_ : MbxCmd) (r : MbxReq) (s : State) : MbxRes :=
  r.guard0 s (levelOffences r ++ [r.rsvBits 21 1, r.rsv 22 42])
    ((decide (s.hem.actStep ≠ 0), stBusyRetry) :: (if r.bit 21 0 then s.writes else s.acts))
    (fun _ => if r.bit 21 0 then r.hem s (fun _ => vcorePolicyRun r s) else vcorePolicyRun r s)

/-- VCORE_POLICY. -/
def execVcorePolicy (r : MbxReq) (s : State) : Host.Outcome State Fault Refusal :=
  .next (s.mbxSubmit 0x0603#16 vcorePolicyCmd r)

end Sys2Proof.Machine
end

