-- ==== Sys2Proof/Machine/Firmware.lean ====
section
/-! DEFINITION. Tailor pairs, firmware activation and the firmware commands (R214-R220, R389-R407; rows TAILOR_TRAP to
SELF_TEST_DONE and FW_STAGE to BOOT_QUERY). -/

namespace Sys2Proof.Machine

/-! Twins and select words (R391-R394). -/

/-- The twin of a number: 1 is A, 2 is B. -/
def State.twin (s : State) (n : Nat) : Twin := if n = 2 then s.hem.twinB else s.hem.twinA

/-- The state with a twin replaced. -/
def State.setTwin (s : State) (n : Nat) (x : Twin) : State :=
  if n = 2 then { s with hem.twinB := x } else { s with hem.twinA := x }

/-- The inactive twin: the one that is not running; twin A in recovery mode (log 28). -/
def State.otherTwin (s : State) : Nat := if s.hem.running = 1 then 2 else 1

/-- A select word written (R393). -/
def State.writeSelect (s : State) (twin mode fallback : Nat) (confirmed : Bool) : State :=
  let seq := match s.hem.select with | none => 0 | some w => (w.seq + 1) % 65536
  { s with hem.select := some ⟨seq, twin, confirmed, fallback, mode⟩ }

/-- SEQ of the newest select word. -/
def State.selectSeq (s : State) : Nat := match s.hem.select with | none => 0 | some w => w.seq

/-- The newest select word confirmed, and the minimum SVN raised by a ratchet image (R391, R393). -/
def State.confirmSelect (s : State) : State :=
  match s.hem.select with
  | none => s
  | some w =>
    let x := s.twin w.twin
    { s with
      hem.select := some { w with confirmed := true }
      hem.minSvn := if x.ratchet then max s.hem.minSvn x.svn else s.hem.minSvn }

/-! Pairs and sets (R214, R217-R219). -/

/-- The state of a pair: 0 active, 1 standby, 2 self-test, 3 retired, 4 activating firmware (R230). -/
def State.pairSt (s : State) (p : Nat) : Nat := s.eng.pairs.getD p 3

/-- The state with a pair's state set. -/
def State.setPair (s : State) (p st : Nat) : State := { s with eng.pairs := s.eng.pairs.set p st }

/-- Whether a pair serves some set. -/
def State.serves (s : State) (p : Nat) : Bool := decide (s.eng.setM = p ∨ s.eng.setA = p ∨ s.eng.setH = p)

/-- A set, 0 M, 1 A, 2 H, by the pair that serves it. -/
def State.setPairOf (s : State) : Nat → Nat
  | 0 => s.eng.setM
  | 1 => s.eng.setA
  | _ => s.eng.setH

/-- A pair takes a set (R217). With set M it resumes every journalled command; what it completes of another pair's counts as
replayed (R54, R67). -/
def State.giveSet (s : State) (k p : Nat) : State :=
  match k with
  | 0 => { s with eng.setM := p }
  | 1 => { s with eng.setA := p }
  | _ => { s with eng.setH := p }

/-- The pair that takes a trapped pair's sets: the standby, else an active pair beside its own (R217, R219). -/
def State.taker (s : State) (p : Nat) : Option Nat :=
  match s.standby with
  | some q => some q
  | none =>
    match [0, 1, 2, 3].find? (fun q => decide (q ≠ p ∧ s.pairSt q = 0)) with
    | some q => some q
    | none => [0, 1, 2, 3].find? (fun q => decide (q ≠ p ∧ s.pairSt q = 4))

/-- Every set of a pair passed to another (R217). -/
def State.takeover (s : State) (p q : Nat) : State :=
  let s := (List.range 3).foldl (fun s k => if s.setPairOf k = p then s.giveSet k q else s) s
  { s.setPair q 0 with eng.takeovers := s.eng.takeovers + 1 }

/-! Activation (R396-R399). -/

/-- RESULT of FW_ACTIVATE (R405). -/
def activateResult (outcome cause pause seq : Nat) : Nat :=
  fld 20 1 outcome + fld 21 1 cause + fld 24 4 pause + fld 28 2 seq

/-- The status of a revert's cause (R405). -/
def causeStatus : Nat → Nat
  | 1 => stAuthFail
  | 6 => stMediaFault
  | _ => stTimeout

/-- An activation has ended: its command completes, and a power state that waited for it goes on (R399, R461). The pause
was at most 2 ms and is free within that (R67, log 11). -/
def State.activationOver (s : State) (outcome cause : Nat) : State :=
  let (v, s) := s.draw
  let pause := v % 2001
  let cmd := s.hem.actCmd
  let nv := s.hem.actNvme
  let s := { s with
    hem.actStep := 0
    hem.actCmd := none
    hem.actNvme := none
    hem.actNew := []
    pow.idleUs := s.now
    hem.lastResult := if outcome = 2 then 2 else 1
    hem.lastActUs := s.now
    hem.lastPauseUs := pause }
  let st := if outcome = 2 then causeStatus cause else stOk
  let s : State := match cmd with
    | none => s
    | some c => s.mbxFinish c st 0xFFFF 0 (activateResult outcome cause pause s.selectSeq)
  let s : State := match nv with
    | none => s
    | some (f, cid) =>
      let st := if outcome = 2 then nvFwImage else nvOk
      s.complete f { sqid := 0, cid := cid, status := st, dnr := dnrOf st }
  s.releaseHeld

/-- The set handed back to a pair that passes its self-test while another serves two: the later one in the order M, A, H
(R219, log 29). -/
def State.doubled (s : State) : Option Nat :=
  [2, 1, 0].find? (fun k => (List.range 3).any (fun j => decide (j < k ∧ s.setPairOf j = s.setPairOf k)))

/-- A set whose pair is not in service: its last one trapped with no other to take over. -/
def State.unserved (s : State) : List Nat := (List.range 3).filter (fun k => decide (s.pairSt (s.setPairOf k) ≠ 0))

/-- A pair that has passed its self-test, or reloaded the old image, back in service (R218, R219, R399). -/
def State.pairBack (s : State) (p : Nat) : State :=
  match s.unserved with
  | [] =>
    match s.doubled with
    | some k => (s.giveSet k p).setPair p 0
    | none => s.setPair p 1
  | ks => (ks.foldl (fun s k => s.giveSet k p) s).setPair p 0

/-- The pair of the old image that takes a set from one of the new image in a revert: a standby, else an active one (R219, R399). -/
def State.oldPair (s : State) (new : List Nat) : Option Nat :=
  [1, 0].findSome? (fun st => [0, 1, 2, 3].find? (fun q => !new.contains q && decide (s.pairSt q = st)))

/-- The pairs of a revert (R399): the sets pass to pairs that run the old image, and the pairs of the new one reload the old; where no
pair runs the old image, a pair reloads beside its set. -/
def State.revertPairs (s : State) : State :=
  let new := s.hem.actNew
  let s := (List.range 3).foldl (fun s k =>
    if new.contains (s.setPairOf k) then
      match s.oldPair new with
      | some q => ({ s with eng.takeovers := s.eng.takeovers + 1 } : State).giveSet k q |>.setPair q 0
      | none => s
    else s) { s with hem.actNew := [] }
  new.foldl (fun s p =>
    if s.pairSt p = 2 ∨ s.pairSt p = 3 then s
    else if s.serves p then s.setPair p 0
    else s.pairBack p) s

/-- The end of a revert (R399): a select word names the old twin, and the command completes with its cause. After early warning no
word is written, and boot falls back on the unconfirmed one (R388, R398). -/
def State.reverted (s : State) (cause : Nat) : State :=
  let new := s.otherTwin
  let s := s.setTwin new { s.twin new with st := if cause = 1 ∨ cause = 6 then 2 else 3 }
  let s := if s.lastCall then s else s.writeSelect s.hem.running 4 0 true
  ({ s with hem.actBobbins := [] } : State).activationOver 2 cause

/-- A revert begun (R399): pairs of the new image reload the old one; bobbins that run the new microcode do so too, spares at once and
the rest as their roles move back (log 94). -/
def State.revert (s : State) (cause : Nat) : State :=
  let s := s.revertPairs
  let left := s.hem.actBobbins.filter (fun (b : Nat) => decide ((s.bobbin b).st = .owns))
  if left = [] then s.reverted cause
  else { s with hem.actStep := 9, hem.actCause := cause, hem.actBobbins := left }

/-- Steps 7 and 8 of R396: the word is confirmed and the command completes; early warning leaves the word unconfirmed
(R398). -/
def State.activated (s : State) : State :=
  if s.lastCall then s
  else
    let new := s.otherTwin
    let old := s.hem.running
    let s := s.confirmSelect
    let s := (s.setTwin new { s.twin new with st := 4 }).setTwin old { s.twin old with st := 3 }
    ({ s with hem.running := new, hem.actBobbins := [] } : State).activationOver 0 0

/-! The bobbins of an activation (R212, R396 step 6, R399). -/

/-- Whether a role is on its way to another bobbin, or its HANDOVER is. -/
def State.moving (s : State) : Bool :=
  s.eng.roles.any (fun p => decide (p.2.st = .adopting)) || (s.eng.msgs ++ s.eng.unsent).any (fun m => decide (m.verb = vHandover))

/-- The roles whose owners still run the other image's microcode. -/
def State.rolesToMove (s : State) : List Nat :=
  (List.range s.roles).filter (fun r =>
    decide ((s.role r).st = .active) && (s.hem.actBobbins.contains (s.role r).owner != decide (s.hem.actStep = 6)))

/-- HANDOVER sent to the owner of a role (R212). -/
def State.sendHandover (s : State) (r : Nat) : State :=
  let x := s.role r
  s.sendReq ⟨x.owner, supervisorAddr, vHandover, r, x.epoch, 0, 0#128⟩

/-- An activation goes on (R396 steps 6-8, R399): the roles are handed over one at a time; with all moved, it is over once the last
pair is the standby, or the revert ends. -/
def State.actMove (s : State) : State :=
  let loaded := !(List.range 4).any (fun q => decide (s.pairSt q = 4))
  if s.hem.actStep = 7 then (if loaded then s.activated else s)
  else if s.hem.actStep ≠ 6 ∧ s.hem.actStep ≠ 9 ∨ s.moving then s
  else match s.rolesToMove with
    | r :: _ => s.sendHandover r
    | [] =>
      if s.hem.actStep = 9 then s.reverted s.hem.actCause
      else
        let s : State := { s with hem.actStep := 7 }
        if loaded then s.activated else s

/-- The next switch of an activation (R396 steps 4-6): a pair that has loaded the new image takes the next set that an old
pair serves, and the pair it frees loads it too. With every set switched the spare bobbins have reloaded and the roles begin to move,
and the last pair becomes the standby. -/
def State.switchNext (s : State) (p : Nat) : State :=
  let s := { s with hem.actNew := addOnce s.hem.actNew p }
  match (List.range 3).find? (fun k => !s.hem.actNew.contains (s.setPairOf k)) with
  | some k =>
    let old := s.setPairOf k
    let s := (s.giveSet k p).setPair p 0
    let s := if s.serves old then s
      else ({ s with hem.actNew := addOnce s.hem.actNew old } : State).setPair old 4
    let s := { s with hem.actStep := 5 }
    if (List.range 3).all (fun k => s.hem.actNew.contains (s.setPairOf k)) then
      { s with hem.actStep := 6, hem.actBobbins := s.readySpares }
    else s
  | none => if s.serves p then s else s.setPair p 1

/-- A MODE 0 activation begun (R396 steps 2 and 3): the select word is written, the notice raised, and the standby loads the
new twin. An image that does not verify at load reverts it. -/
def State.startActivation (s : State) (cmd : Option MbxCmd) (nv : Option (FnId × Nat)) (verdict : Nat) : State :=
  match s.standby with
  | none => s
  | some p =>
    let s := s.writeSelect s.otherTwin 1 s.hem.running false
    let s := { s with
      hem.actStep := 3
      hem.actCmd := cmd
      hem.actNvme := nv
      hem.actNew := [p]
      hem.actBobbins := []
      hem.actUs := s.now
      hem.session := none }
    let s := s.setPair p 4
    let s := s.host.fns.foldl (fun s q => s.notice (fnOfKey q.1) 9 1 0x03) s
    if verdict = 0 then s else s.revert (if verdict = 9 then 6 else 1)

/-- ACTIVATION_TIMEOUT (R398): not confirmed within 1 s. -/
def rowActivationTimeout (t : Nat) (s : State) : Host.Outcome State Fault Refusal :=
  let s := s.atTime t
  if s.hem.actStep ≠ 0 ∧ s.hem.actStep ≠ 9 ∧ s.hem.actUs + 1000000 ≤ s.now then .next (s.revert 5) else .next s

/-! Traps and self-tests (R216-R220). -/

/-- A command past its own row that waits on firmware completes with Internal Error (R220). -/
def State.failWaiting (s : State) : Option (FnId × Nat) → State
  | none => s
  | some (f, cid) => s.complete f { sqid := 0, cid := cid, status := nvInternal, dnr := dnrOf nvInternal }

/-- The last serviceable pair is retired (R220): admin commands that wait on firmware complete with Internal Error. -/
def State.allRetired (s : State) : State :=
  if s.eng.pairs.all (fun p => decide (p = 3)) then
    let s := { s with eng.dead := true }
    let ws := s.host.granted.filter (fun p => decide (p.2.2 = 0))
    let s := { s with host.granted := s.host.granted.filter (fun p => decide (p.2.2 ≠ 0)) }
    let s := ws.foldl (fun s p => s.failCmd p.1 p.2.1.cmd nvInternal) s
    let late := s.pow.psCmd :: s.hem.actNvme :: s.san.s.nv :: s.host.tenants.map (·.2.formatCmd)
    late.foldl State.failWaiting { s with
      pow.psCmd := none
      hem.actNvme := none
      san.s := { s.san.s with nv := none }
      host.tenants := s.host.tenants.map (fun (p : Nat × Tenant) => (p.1, { p.2 with formatCmd := none })) }
  else s

/-- A pair traps (R216-R219): it is fenced, its sets are taken over, and it goes to its self-test; a trap of a pair that runs
the new image reverts an activation (R398). -/
def State.trapPair (s : State) (p : Nat) : State :=
  let st := s.pairSt p
  if 4 ≤ p ∨ st = 2 ∨ st = 3 ∨ s.pow.stopped.contains (22 + p) then s
  else
    let times := s.eng.trapTimes.filter (fun x => decide (s.now < x.2 + 86400000000))
    let new := decide (s.hem.actStep ≠ 0) && s.hem.actNew.contains p
    let s := ({ s with eng.trapTimes := times ++ [(p, s.now)] } : State).setPair p 2
    let s : State := match s.serves p, s.taker p with
      | true, some q => s.takeover p q
      | _, _ => s
    let s : State := { s with hem.actNew := s.hem.actNew.filter (fun (q : Nat) => decide (q ≠ p)) }
    if new && decide (s.hem.actStep ≠ 9) then s.revert 3
    else if decide (s.hem.actStep ≠ 0) && !(List.range 4).any (fun q => decide (s.pairSt q = 4)) then
      match s.hem.actNew.find? (fun q => decide (s.pairSt q = 0)) with
      | some q => s.switchNext q
      | none => s
    else s

/-- TAILOR_TRAP (R216): a lockstep mismatch or an uncorrectable instruction fetch. -/
def rowTailorTrap (pair t : Nat) (_ : TrapCause) (s : State) : Host.Outcome State Fault Refusal :=
  .next ((s.atTime t).trapPair pair)

/-- HEARTBEAT_MISS (R216): only an active pair posts heartbeats. -/
def rowHeartbeatMiss (pair t : Nat) (s : State) : Host.Outcome State Fault Refusal :=
  let s := s.atTime t
  if s.pairSt pair = 0 then .next (s.trapPair pair) else .next s

/-- A pair retired (R218). -/
def State.retirePair (s : State) (p : Nat) : State :=
  (({ s with eng.retiredPairs := addOnce s.eng.retiredPairs p } : State).setPair p 3).allRetired

/-- SELF_TEST_DONE (R218, R396): a trapped pair returns or is retired; a pair that loads the new image takes the next set, or
its failure reverts the activation. -/
def rowSelfTestDone (pair : Nat) (pass : Bool) (s : State) : Host.Outcome State Fault Refusal :=
  match s.pairSt pair with
  | 2 =>
    let third := decide (3 ≤ (s.eng.trapTimes.filter (fun x => decide (x.1 = pair ∧ s.now < x.2 + 86400000000))).length)
    if !pass || third then .next (s.retirePair pair)
    else if s.eng.dead then
      .next (({ s with eng.dead := false, eng.retiredPairs := s.eng.retiredPairs.filter (fun (q : Nat) => decide (q ≠ pair)) } :
        State).pairBack pair)
    else if s.hem.actStep ≠ 0 ∧ s.hem.actStep ≠ 9 then .next (s.switchNext pair)
    else .next (s.pairBack pair)
  | 4 =>
    if pass then .next (s.switchNext pair)
    else .next ((s.setPair pair 2).revert 2)
  | _ => .next s

/-- BOBBIN_SELF_FAULT (R208, R209): a bobbin reports its own failure, or a spare fails its check; a microcode check that fails on a
bobbin reloaded by an activation reverts it (R398). -/
def rowBobbinSelfFault (bobbin : Nat) (cause : BobbinFault) (t : Nat) (s : State) : Host.Outcome State Fault Refusal :=
  let s := s.atTime t
  if cause = .spareCheck ∧ (s.bobbin bobbin).st ≠ .spare then .next s
  else
    let new := decide (s.hem.actStep = 6 ∨ s.hem.actStep = 7) && s.hem.actBobbins.contains bobbin && decide (cause = .microcode)
    let s := s.bobbinFailed bobbin (faultCause cause)
    .next (if new then s.revert 4 else s)

/-! Images (R389, R390, R403). -/

/-- Whether a header fails check 3 of R390. -/
def headerBad (b : List Byte) : Bool :=
  let len := bufNum b 8 4
  let co := bufNum b 32 4
  let cl := bufNum b 36 4
  let so := bufNum b 40 4
  let sl := bufNum b 44 4
  decide (bufNum b 4 2 ≠ 1 ∨ bufNum b 6 2 ≠ 512 ∨ len < 1024 ∨ 8388608 < len ∨ len % 64 ≠ 0 ∨ 2 ≤ bufNum b 22 1 ∨
    16 ≤ bufNum b 24 1 ∨ bufNum b 30 2 ≠ 0 ∨ bufNum b 144 368 ≠ 0 ∨ 7340032 < cl ∨ 196608 < sl ∨ co < 512 ∨ so < 512 ∨
    len - 96 < co + cl ∨ len - 96 < so + sl ∨ (co < so + sl ∧ so < co + cl))

/-- The fields of a header that the device keeps, in a twin that is being staged (R389, R392). -/
def headerTwin (b : List Byte) : Twin :=
  { (default : Twin) with
    st := 1
    svn := bufNum b 20 2
    fwRev := BitVec.ofNat 64 (bufNum b 12 8)
    imageLen := bufNum b 8 4
    ratchet := decide (bufNum b 22 1 % 2 = 1)
    stateFormat := bufNum b 26 2
    stitchAbi := bufNum b 28 2
    magic := decide (bufNum b 0 4 = 0x444E4C43)
    headerOk := !headerBad b
    revision := bufNum b 23 1
    parts := bufNum b 24 1
    keyIndex := bufNum b 25 1 }

/-- The verdict of R390 on a twin: the first check that fails, in the order of the codes. What the signature, the digests and the
reads of the Hem store find (7, 8, 9) is the environment's; an image that was never staged to its end fails its signature
(R400). -/
def State.verdictOf (s : State) (x : Twin) (complete : Bool) (env : Nat) : Nat :=
  if !x.magic then 1
  else if !complete then 2
  else if !x.headerOk then 3
  else if x.revision ≠ 0x21 ∨ !x.parts.testBit s.board.part.no then 4
  else if x.svn < s.hem.minSvn then 5
  else if 1 < x.keyIndex then 6
  else if 7 ≤ env ∧ env ≤ 9 then env
  else if !x.whole then 7
  else 0

/-- The inactive twin verified: VALID, or INVALID whatever check failed (R390, R392, R404); a valid image's digest is an opaque number
(log 7). -/
def State.verifyTwin (s : State) (n : Nat) (complete : Bool) (env : Nat) : Nat × State :=
  let x := s.twin n
  let v := s.verdictOf x complete env
  let (d, s) := s.draw
  (v, s.setTwin n { x with
    verdict := v
    st := if v = 0 then 3 else 2
    digest := if v = 0 then d else 0 })

/-- The conditions of every 0x08xx command but BOOT_QUERY (R67 and the chapter's command rules). -/
def State.fwBusy (s : State) : List (Bool × Nat) :=
  (decide (s.hem.actStep ≠ 0), stBusyRetry) :: s.writes

/-- Whether every sector of a session's image has been staged. -/
def State.sessionFull (s : State) : Bool :=
  match s.hem.session with
  | none => true
  | some (len, xs) => (List.range ((len + 4095) / 4096)).all xs.contains

/-- FW_STAGE past its checks (R403). -/
def fwStageRun (r : MbxReq) (s : State) : MbxRes :=
  let len := r.p 24 4
  let off := r.p 28 4
  let hdr := r.env.buf
  let n := s.otherTwin
  if !r.env.bufOk then MbxRes.bad s 16
  else if !r.env.hemOk then
    MbxRes.err (({ s.hemFailed with hem.session := none } : State).setTwin n { s.twin n with st := 1, digest := 0, whole := false }) stMediaFault
  else
    let s := if off = 0 then
        ({ s with hem.session := some (bufNum hdr 8 4, []), hem.sessionHdr := headerTwin hdr } : State).setTwin n (headerTwin hdr)
      else s.setTwin n { s.twin n with st := 1, digest := 0 }
    match s.hem.session with
    | none => MbxRes.err s stConflict
    | some (want, xs) =>
      let xs := ((List.range ((len + 4095) / 4096)).map (off / 4096 + ·)).foldl addOnce xs
      let s := { s with hem.session := some (want, xs) }
      let s := s.setTwin n { s.twin n with whole := s.sessionFull }
      MbxRes.ok s 0 (fld 20 4 want + fld 24 4 xs.length)

/-- FW_STAGE (R403). -/
def fwStageCmd (_ : MbxCmd) (r : MbxReq) (s : State) : MbxRes :=
  let len := r.p 24 4
  let off := r.p 28 4
  let known := decide (0 < off) || (s.bme && r.env.bufOk)
  let want := if off = 0 then (if known then bufNum r.env.buf 8 4 else 8388608) else match s.hem.session with | none => 8388608 | some (n, _) => n
  r.guard0 s (r.bufOffences 16 24 1 ++
      [badIf (known && decide (len % 4096 ≠ 0 ∧ off + len ≠ want)) 24, badIf (decide (8388608 < off + len ∨ want < off + len)) 24,
        badIf (decide (off % 4096 ≠ 0)) 28, badIf (decide (off = 0) && known && headerBad r.env.buf) 16, r.rsv 32 32])
    ((decide (0 < off) && s.hem.session.isNone, stConflict) :: (decide ((s.twin s.otherTwin).st = 6), stConflict) :: s.buffers ++ s.fwBusy)
    (fun _ => fwStageRun r s)

/-- FW_STAGE. -/
def execFwStage (r : MbxReq) (s : State) : Host.Outcome State Fault Refusal :=
  .next (s.mbxSubmit 0x0801#16 fwStageCmd r)

/-- The status of a verdict (R404). -/
def verdictStatus : Nat → Nat
  | 0 => stOk
  | 1 => stConflict
  | 2 => stConflict
  | 3 => stBadField
  | 4 => stNotPermitted
  | 5 => stNotPermitted
  | 9 => stMediaFault
  | _ => stAuthFail

/-- Whether the new image's formats are those of the running one (R396). -/
def State.resetFree (s : State) : Bool :=
  let x := s.twin s.otherTwin
  let y := s.twin s.hem.running
  decide (x.stateFormat = y.stateFormat ∧ x.stitchAbi = y.stitchAbi)

/-- The completion fields of FW_VERIFY: the last verdict on the inactive twin and fields of its header (R404). -/
def State.verifyResult (s : State) : Nat :=
  let x := s.twin s.otherTwin
  fld 20 1 x.verdict + fld 21 1 (if s.resetFree then 1 else 0) + fld 22 2 x.svn + fld 24 8 x.fwRev.toNat

/-- FW_VERIFY (R404): the completion fields are written with every status. The BAD_FIELD of a malformed image header lies in no
field of the slot, so FIELD_OFFSET reads 0xFFFF (DESIGN CHOICE, log 84). -/
def fwVerifyCmd (_ : MbxCmd) (r : MbxReq) (s : State) : MbxRes :=
  let res := r.guard0 s [r.rsv 16 48] s.fwBusy (fun _ =>
    let (v, s) := s.verifyTwin s.otherTwin s.sessionFull r.env.verdict
    { state := if v = 0 then { s with hem.session := none } else s, status := some (verdictStatus v) })
  { res with result := res.state.verifyResult }

/-- FW_VERIFY. -/
def execFwVerify (r : MbxReq) (s : State) : Host.Outcome State Fault Refusal :=
  .next (s.mbxSubmit 0x0802#16 fwVerifyCmd r)

/-- The boot ROM's restart from recovery mode onto a twin that has just been selected (R395): a trial boot, confirmed at
READY (R394). -/
def State.leaveRecovery (s : State) (n : Nat) : State :=
  let s := ((s.writeSelect n 5 (3 - n) false).confirmSelect).setTwin n { s.twin n with st := 4 }
  { s with hem.recovery := false, hem.running := n, hem.lastResult := 1 }

/-- The inactive twin selected for the next power-on (R405 with MODE 1). -/
def State.selectNext (s : State) (n : Nat) : State :=
  (s.writeSelect n 2 s.hem.running false).setTwin n { s.twin n with st := 6 }

/-- The conditions of an activation of the inactive twin (R405). -/
def State.activateConds (s : State) (mode : Nat) : List (Bool × Nat) :=
  let x := s.twin s.otherTwin
  [(decide (x.st ≠ 3 ∧ x.st ≠ 6), stConflict), (decide (x.svn < s.hem.minSvn), stNotPermitted),
    (decide (mode = 0) && (!s.resetFree || s.standby.isNone || s.hem.recovery), stConflict)] ++ s.fwBusy

/-- FW_ACTIVATE past its checks. -/
def activateRun (c : MbxCmd) (r : MbxReq) (mode : Nat) (s : State) : MbxRes :=
  r.hem s (fun _ =>
    if mode = 1 then
      let n := s.otherTwin
      let s := s.selectNext n
      let res := activateResult 1 0 0 s.selectSeq
      MbxRes.ok (if s.hem.recovery then s.leaveRecovery n else s) 0 res
    else MbxRes.goesOn (s.startActivation (some c) none r.env.verdict))

/-- FW_ACTIVATE (R405). -/
def fwActivateCmd (c : MbxCmd) (r : MbxReq) (s : State) : MbxRes :=
  r.guard0 s [outOf r 16 1 0 1, r.rsv 17 47] (s.activateConds (r.p 16 1)) (fun _ => activateRun c r (r.p 16 1) s)

/-- FW_ACTIVATE with MODE 0 (R396). -/
def rowFwActivateNow (r : MbxReq) (s : State) : Host.Outcome State Fault Refusal :=
  .next (s.mbxSubmit 0x0803#16 fwActivateCmd r)

/-- FW_ACTIVATE with MODE 1. -/
def execFwActivateNextPowerOn (r : MbxReq) (s : State) : Host.Outcome State Fault Refusal :=
  .next (s.mbxSubmit 0x0803#16 fwActivateCmd r)

/-- FW_ROLLBACK (R406). -/
def fwRollbackCmd (c : MbxCmd) (r : MbxReq) (s : State) : MbxRes :=
  let n := s.otherTwin
  if (s.twin n).st = 6 then
    r.guard0 s [r.rsv 16 48] s.fwBusy (fun _ => r.hem s (fun _ =>
      let s := (s.writeSelect s.hem.running 4 0 true).setTwin n { s.twin n with st := 3 }
      MbxRes.ok s 0 (activateResult 1 0 0 s.selectSeq)))
  else r.guard0 s [r.rsv 16 48] (s.activateConds 0) (fun _ => activateRun c r 0 s)

/-- FW_ROLLBACK. -/
def rowFwRollback (r : MbxReq) (s : State) : Host.Outcome State Fault Refusal :=
  .next (s.mbxSubmit 0x0804#16 fwRollbackCmd r)

/-- A twin entry (R407). -/
def twinEntry (x : Twin) : List Byte :=
  bytesLE 1 x.st ++ bytesLE 1 x.verdict ++ bytesLE 2 x.svn ++ bytesLE 8 x.fwRev.toNat ++ bytesLE 4 x.imageLen ++
    bytesLE 48 x.digest

/-- LAST_RESULT: 5 throughout recovery mode (R395). -/
def State.lastResult (s : State) : Nat := if s.hem.recovery then 5 else s.hem.lastResult

/-- The 256 bytes of R407. -/
def State.bootArea (s : State) : List Byte :=
  let x := s.hem
  let (sel, (mode, (conf, seq))) := match x.select with
    | none => (0, (0, (0, 0)))
    | some w => (w.twin, (w.mode, (if w.confirmed then 1 else 0, w.seq)))
  let (slen, ssec) := match x.session with | none => (0, 0) | some (n, xs) => (n, xs.length)
  let flags := flagByte [x.twinA.marginLow, x.twinB.marginLow, x.degraded, x.session.isSome]
  bytesLE 1 x.running ++ bytesLE 1 sel ++ bytesLE 1 mode ++ bytesLE 1 conf ++ bytesLE 1 x.actStep ++
    bytesLE 1 s.lastResult ++ bytesLE 2 x.minSvn ++ bytesLE 2 seq ++ bytesLE 1 flags ++ bytesLE 5 0 ++
    twinEntry x.twinA ++ twinEntry x.twinB ++ bytesLE 4 slen ++ bytesLE 4 ssec ++ bytesLE 8 x.lastActUs ++
    bytesLE 4 x.lastPauseUs ++ bytesLE 2 x.start ++ bytesLE 2 x.gap ++ bytesLE 8 x.corrected ++ bytesLE 80 0

/-- BOOT_QUERY (R407). -/
def bootQueryCmd (_ : MbxCmd) (r : MbxReq) (s : State) : MbxRes :=
  r.guard0 s (r.bufOffences 16 24 256 ++ [r.rsv 28 36]) s.buffers
    (fun _ => r.buffer s 16 (fun _ =>
      MbxRes.ok (r.output s 16 24 s.bootArea) 0 (fld 20 1 s.hem.running + fld 21 1 s.hem.actStep)))

/-- BOOT_QUERY. -/
def execBootQuery (r : MbxReq) (s : State) : Host.Outcome State Fault Refusal :=
  .next (s.mbxSubmit 0x0805#16 bootQueryCmd r)

/-! NVMe firmware commands (R401, R402). -/

/-- FIRMWARE_IMAGE_DOWNLOAD past the arbiter: offset and length in bytes, multiples of 4 KiB within 8 MiB. -/
def downloadRun (c : NvmeCmd) (ofst : Nat) (data : List Byte) (s : State) : State :=
  let len := data.length
  if ofst % 4096 ≠ 0 ∨ len % 4096 ≠ 0 ∨ len = 0 ∨ 8388608 < ofst + len then s.failCmd c.fn c nvBadField
  else if s.hem.download.any (fun p => decide (p.1 * 4096 < ofst + len ∧ ofst < (p.1 + p.2) * 4096)) then
    s.failCmd c.fn c nvOverlap
  else
    s.dataStage c 0 0 0 (fun s =>
      let s := { s with
        hem.download := s.hem.download ++ [(ofst / 4096, len / 4096)]
        hem.downloadHdr := if ofst = 0 then headerTwin data else s.hem.downloadHdr }
      s.okCmd c)

/-- FIRMWARE_IMAGE_DOWNLOAD (R402). -/
def execFirmwareImageDownload (c : NvmeCmd) (ofst : Nat) (data : List Byte) (s : State) :
    Host.Outcome State Fault Refusal :=
  .next (s.onGrant c 0x11#8 (fun e => decide (e.dw11.toNat * 4 = ofst ∧ (e.dw10.toNat + 1) * 4 = data.length))
    (downloadRun c ofst data))

/-- Whether the downloaded ranges cover an image. -/
def State.downloadFull (s : State) : Bool :=
  (List.range ((s.hem.downloadHdr.imageLen + 4095) / 4096)).all (fun i =>
    s.hem.download.any (fun p => decide (p.1 ≤ i ∧ i < p.1 + p.2)))

/-- FIRMWARE_COMMIT past the arbiter; the download buffer is emptied (R402). -/
def commitRun (c : NvmeCmd) (ca : BitVec 3) (fs verdict : Nat) (hemOk : Bool) (s : State) : State :=
  let slot := if fs = 0 then s.otherTwin else fs
  let isRunning := decide (slot = s.hem.running)
  let full := s.downloadFull
  let hdr := s.hem.downloadHdr
  let s := { s with hem.download := [], hem.downloadHdr := (default : Twin) }
  if 2 < fs ∨ 4 ≤ ca.toNat then s.failCmd c.fn c (if 2 < fs ∧ ca.toNat < 4 then nvFwSlot else nvBadField)
  else if s.supply.ewLatched then s.failCmd c.fn c nvInternal
  else match ca.toNat with
  | 2 =>
    if isRunning then s.okCmd c
    else if (s.twin slot).st ≠ 3 ∧ (s.twin slot).st ≠ 6 then s.failCmd c.fn c nvFwImage
    else if (s.twin slot).svn < s.hem.minSvn then s.failCmd c.fn c nvFwProhibited
    else if !hemOk then s.hemFailed.failCmd c.fn c nvInternal
    else (s.selectNext slot).okCmd c
  | 3 =>
    if isRunning then s.okCmd c
    else if (s.twin slot).st ≠ 3 ∧ (s.twin slot).st ≠ 6 then s.failCmd c.fn c nvFwImage
    else if (s.twin slot).svn < s.hem.minSvn then s.failCmd c.fn c nvFwProhibited
    else if !hemOk then s.hemFailed.failCmd c.fn c nvInternal
    else if !s.resetFree ∨ s.standby.isNone then (s.selectNext slot).failCmd c.fn c nvFwReset
    else s.startActivation none (some (c.fn, c.cid)) verdict
  | k =>
    if isRunning then s.failCmd c.fn c nvFwSlot
    else if !hemOk then ({ s.hemFailed with hem.session := none } : State).failCmd c.fn c nvInternal
    else
      let s := ({ s with hem.session := none } : State).setTwin slot { hdr with st := 1, whole := full }
      let (v, s) := s.verifyTwin slot full verdict
      if v = 5 then s.failCmd c.fn c nvFwProhibited
      else if v ≠ 0 then s.failCmd c.fn c nvFwImage
      else (if k = 1 then s.selectNext slot else s).okCmd c

/-- FIRMWARE_COMMIT (R398, R402): it waits for an activation in progress to end. -/
def rowFirmwareCommit (c : NvmeCmd) (ca : BitVec 3) (fs verdict : Nat) (hemOk : Bool) (s : State) :
    Host.Outcome State Fault Refusal :=
  if s.hem.actStep ≠ 0 then .next s
  else .next (s.onGrant c 0x10#8 (fun e => decide (e.dw10.toNat % 8 = fs ∧ e.dw10.extractLsb' 3 3 = ca))
    (commitRun c ca fs verdict hemOk))

end Sys2Proof.Machine
end

