-- ==== Sys2Proof/Machine/Reset.lean ====
section
/-! DEFINITION. Token buckets (R273, R274), saveable features, and the resets of functions and of the whole device's settings
(R276-R279, R522-R526, R554). -/

namespace Sys2Proof.Machine

/-! QoS token buckets (R273, R274), in millionths of a token. -/

/-- Tokens per second of a contract's bucket: CAP_IOPS, CAP_BW, FLOOR_IOPS, FLOOR_BW. -/
def QosTerms.rate (q : QosTerms) (i : Nat) : Nat := [q.capIops, q.capBw, q.floorIops, q.floorBw].getD i 0

/-- The depth of a contract's bucket. -/
def QosTerms.depth (q : QosTerms) (i : Nat) : Nat :=
  match i with
  | 0 => max 1000000 (q.capIops * q.burstMs * 1000)
  | 1 => max 64000000 (q.capBw * q.burstMs * 1000)
  | _ => max 1000000 (q.rate i * 1000)

/-- A bucket with its refill up to now. -/
def TokBucket.refilled (b : TokBucket) (rate depth now : Nat) : TokBucket :=
  ⟨min (depth : Int) (b.level + (rate * (now - b.atUs) : Nat)), now⟩

/-- A tenant's bucket as it stands now. -/
def Tenant.bucket (t : Tenant) (i now : Nat) : TokBucket :=
  (t.buckets.getD i ⟨0, now⟩).refilled (t.contract.rate i) (t.contract.depth i) now

/-- Every bucket of a tenant full (R274). -/
def Tenant.fullBuckets (t : Tenant) (now : Nat) : Tenant :=
  { t with buckets := (List.range 4).map (fun i => ⟨(t.contract.depth i : Nat), now⟩) }

/-- Whether a tenant's cap is spent (R273). -/
def Tenant.capSpent (t : Tenant) (now : Nat) : Bool :=
  [0, 1].any (fun i => decide (t.contract.rate i ≠ 0 ∧ (t.bucket i now).level ≤ 0))

/-- Whether a tenant is below its floor (R273). -/
def Tenant.belowFloor (t : Tenant) (now : Nat) : Bool :=
  [2, 3].any (fun i => decide (t.contract.rate i ≠ 0 ∧ 0 < (t.bucket i now).level))

/-- The cost of a grant charged to every configured bucket: one command, and its units (R273). -/
def Tenant.chargeGrant (t : Tenant) (units now : Nat) : Tenant :=
  { t with buckets := (List.range 4).map (fun i =>
      let b := t.bucket i now
      let cost : Nat := 1000000 * (if i % 2 = 0 then 1 else units)
      if t.contract.rate i = 0 then b
      else { b with level := if i < 2 then b.level - (cost : Nat) else max 0 (b.level - (cost : Nat)) }) }

/-! Saveable features (R154, R195, R229, R249, R460). -/

/-- Feature C2h put in force: every bucket is refilled at the old rate up to now, and clamped to the new depth (R154). -/
def State.applyC2 (s : State) (d11 d12 : BitVec 32) : State :=
  let depth := fieldLE d12 0 2
  let lim : Int := (depth * 10 ^ 9 : Nat)
  let clamp (b : Bucket) : Bucket := { b with level := max (-lim) (min lim b.level) }
  { s with
    rd.threshUs := fieldLE d11 0 2
    rd.pct := fieldLE d11 2 1 % 32
    rd.depth := depth
    rd.buckets := (List.range s.groups).map (fun (g : Nat) => (g, clamp (s.bucket g))) }

/-- Feature C3h put in force (R195), with foreground erase set against the new marks (R176). -/
def State.applyC3 (s : State) (d11 d12 : BitVec 32) : State :=
  let s := { s with
    recl.logLow := fieldLE d11 0 1
    recl.logHigh := fieldLE d11 1 1
    recl.eraseLow := fieldLE d11 2 1
    recl.eraseHigh := fieldLE d11 3 1
    recl.refreshBits := fieldLE d12 0 1
    recl.idleMs := fieldLE d12 1 1
    recl.mergeAgeS := fieldLE d12 2 2 }
  s.presentGroups.foldl State.updFgErase s

/-- Feature C4h put in force from each channel's next window (R229). -/
def State.applyC4 (s : State) (d11 : BitVec 32) : State :=
  { s with chan.hpQuota := fieldLE d11 0 1 % 64, chan.hold := fieldLE d11 1 1 }

/-- Feature C5h put in force (R249). -/
def State.applyC5 (s : State) (d11 : BitVec 32) : State :=
  { s with host.nth := fieldLE d11 0 1, host.ageLimit := fieldLE d11 2 2 }

/-- The features with a saved value return to it, or to their default; Features 02h and 04h to their initial values (R154,
R459, R460, R488, R526). -/
def State.restoreFeatures (s : State) : State :=
  let c2 := s.hem.savedC2.getD (0x000500C8#32, 480#32)
  let c3 := s.hem.savedC3.getD (0x0C043010#32, 0x001E0578#32)
  let s := ((s.applyC2 c2.1 c2.2).applyC3 c3.1 c3.2).applyC4 (s.hem.savedC4.getD 0x00001030#32)
  let s := s.applyC5 (s.hem.savedC5.getD 0x00140020#32)
  let apst := s.hem.savedApst.getD (false, [])
  { s with
    pow.apste := apst.1
    pow.apst := apst.2
    pow.opPs := 0
    therm.overK := [368, 368, 348]
    therm.underK := [0, 0, 0] }

/-- Token levels and darning buckets full (R150, R274). -/
def State.fillBuckets (s : State) : State :=
  { s with
    rd.buckets := []
    host.tenants := s.host.tenants.map (fun (p : Nat × Tenant) => (p.1, p.2.fullBuckets s.now)) }

/-! The reset steps of a function (R277). -/

/-- Whether a die read works for a host Read: one of its sub-reads, or a component of one of its darns. -/
def State.servesRead (s : State) (id : Nat) (q : DieRead) : Bool :=
  if q.src ≠ 256 ∨ q.cls = .internal then false
  else if q.cls = .component then
    s.rd.darns.any (fun n => decide (n.id = q.darn ∧ n.target.cls ≠ .internal ∧ n.target.src = 256 ∧ n.target.cmd = id))
  else decide (q.cmd = id)

/-- Whether a darn works for a host Read. -/
def Darn.servesRead (n : Darn) (id : Nat) : Bool :=
  decide (n.target.cls ≠ .internal ∧ n.target.src = 256 ∧ n.target.cmd = id)

/-- Step 2 for one Read: what waits at a die is withdrawn, what has been issued runs on and is discarded. -/
def State.cutRead (s : State) (r : Rd) : State :=
  let gone := s.servesRead r.id
  let s := { s with
    dies.table := s.dies.table.map (fun (p : Nat × Die) => (p.1, { p.2 with reads := p.2.reads.filter (fun q => !gone q) }))
    rd.darns := s.rd.darns.filter (fun n => !n.servesRead r.id)
    rd.queuedDarns := s.rd.queuedDarns.filter (fun n => !n.servesRead r.id)
    rd.seamQ := s.rd.seamQ.filter (fun j => !(j.isRead && decide (j.cmd = r.id)))
    rd.reads := s.rd.reads.filter (fun q => decide (q.id ≠ r.id)) }
  r.pins.foldl State.unpin s

/-- Step 3 for one write: it goes on to its commit point unseen where its data is protected, and is abandoned otherwise. -/
def State.cutWrite (s : State) (w : Wr) : State :=
  let cut := s.updWrite w.id (fun (x : Wr) => { x with sqid := orphanId })
  if w.failed.isSome then cut
  else
    match w.stage with
    | .data => if w.allProtected ∨ w.recorded then cut else cut.dataFail w.id nvAborted
    | .bindWait => cut.dataFail w.id nvAborted
    | _ => (s.dropWrite w.id).releaseTack w.id

/-- Step 4 for one Zone Management Send. -/
def State.cutSend (s : State) (x : ZSend) : State :=
  if x.waitCommit then
    { s with wr.sends := s.wr.sends.map (fun (y : ZSend) => if y.id = x.id then { y with sqid := orphanId } else y) }
  else ({ s with wr.sends := s.wr.sends.filter (fun y => decide (y.id ≠ x.id)) } : State).releaseTack x.id

/-- Step 5: admin commands whose effect goes on complete unseen. -/
def State.cutAdmin (s : State) (f : FnId) : State :=
  let cut : Option (FnId × Nat) → Option (FnId × Nat) := fun o => o.map (fun p => if p.1 = f then (f, orphanId) else p)
  { s with
    pow.psCmd := cut s.pow.psCmd
    hem.actNvme := cut s.hem.actNvme
    host.tenants := s.host.tenants.map (fun (p : Nat × Tenant) => (p.1, { p.2 with formatCmd := cut p.2.formatCmd })) }

/-- Step 6: the tenant's open zones close (R120), spilling what they hold (R124). -/
def State.closeZones (s : State) (slot : Nat) : State :=
  ((s.tenantD slot).zones.filter (fun z => decide (z.2.st = .zsio ∨ z.2.st = .zseo))).foldl
    (fun s z => s.sendApply slot z.1 1) s

/-- Step 7: the queues are gone, and with them what waits to be signalled. -/
def State.deleteQueues (s : State) (f : FnId) : State :=
  let x := s.fn f
  let tags := x.sqs.foldl (fun n q => n + q.tags) 0
  let s := s.setTags f.port (s.fetchTags f.port - tags)
  let s := s.setFn f { x with
    sqs := []
    cqs := []
    granted := []
    deleting := []
    aers := []
    held := []
    masked := []
    msix := x.msix.map (fun (e : Nat × MsixEntry) => (e.1, { e.2 with unsig := 0, gap := false })) }
  let s := ({ s with host.granted := s.host.granted.filter (fun p => decide (p.1 ≠ f)) } : State).quiet
  match s.tenantOf f with
  | none => s
  | some k => s.updTenant k (fun t => { t.accrue s.now with activeFrom := none })

/-- Step 8: the controller registers and per-function features at their reset values, log C7h cleared; where the reset is as
an FLR, the MSI-X table and the command bits of PCIe too (R276, R277). -/
def State.resetRegs (s : State) (f : FnId) (flr : Bool) : State :=
  s.updFn f (fun x =>
    let y : Fn := { (default : Fn) with errs := x.errs, errCount := x.errCount }
    if flr then { y with msix := x.msix.map (fun (e : Nat × MsixEntry) => (e.1, MsixEntry.fresh)) }
    else { y with bme := x.bme, mse := x.mse, msixEn := x.msixEn, fmask := x.fmask, msix := x.msix })

/-- Grants that wait for a controller reset take effect: revoked pairs return to the pool, and granted ones are in force
(R240, R302). -/
def Tenant.settleQpairs (t : Tenant) : Tenant :=
  { t with qpairs := (t.qpairs.filter (fun q => !q.revoked)).map (fun (q : Qpair) => { q with usable := true }) }

/-- The snapshots of a tenant no longer stand on its function's registers, which a reset of it cleared (R277, R286). -/
def State.snapsGone (s : State) (k : Nat) : State :=
  { s with host.snaps := s.host.snaps.map (fun (y : Snap) => if y.tenant = k then { y with here := false } else y) }

/-- The reset steps of R277 on a function, with `flr` as an FLR takes them; a frozen tenant's function undergoes steps 7
and 8 only (R278). -/
def State.resetFn (s : State) (f : FnId) (flr : Bool) : State :=
  let slot := s.tenantOf f
  let frozen : Bool := match slot with | none => false | some k => (s.tenantD k).frozen && !(s.tenantD k).freezing
  let s : State :=
    if frozen then s
    else
      let s := (s.rd.reads.filter (fun r => decide (r.fn = f))).foldl State.cutRead s
      let s := (s.wr.writes.filter (fun w => decide (w.fn = f ∧ w.sqid ≠ orphanId))).foldl State.cutWrite s
      let s := (s.wr.sends.filter (fun x => decide (x.fn = f ∧ x.sqid ≠ orphanId))).foldl State.cutSend s
      let s := s.cutAdmin f
      match slot with
      | none => s
      | some k => s.closeZones k
  let s := (s.deleteQueues f).resetRegs f flr
  let s : State := match slot with
    | none => s
    | some k =>
      (s.updTenant k Tenant.settleQpairs).snapsGone k
  let s := if f.vf = 0 then s.resetMailbox f.port else s
  ((s.pump).settleAll).tidy

/-! Which functions there are (R38, R263, R265). -/

/-- NumVFs of a port. -/
def State.numVfs (s : State) : Port → Nat
  | .a => s.host.numVfsA
  | .b => s.host.numVfsB

/-- Whether a function exists for a host. -/
def State.fnExists (s : State) (f : FnId) : Bool :=
  s.portThere f.port && decide (f.vf = 0 ∨ f.vf ≤ s.numVfs f.port)

/-- The functions of a port that a reset of the port reaches: every one that is not at its reset values. -/
def State.portFns (s : State) (p : Port) : List FnId :=
  let all : List FnId := s.host.fns.map (fun (q : Nat × Fn) => fnOfKey q.1)
  (all.filter (fun (f : FnId) => decide (f.port = p)) ++ [(⟨p, 0⟩ : FnId)]).eraseDups

/-- A reset requested after early warning is superseded by the brown-out recovery (R411); another acts. -/
def State.unlessWarned (s : State) (act : State → State) : State :=
  if s.supply.ewLatched then { s with aon.superseded := true } else act s

/-! CC (R239, R242, R265, R349, R395, R523, R562). -/

/-- Whether a write of CC.EN = 1 sets CSTS.CFS. -/
def State.enableFails (s : State) (f : FnId) : Bool :=
  let x := s.fn f
  decide (x.asq.toNat % 4096 ≠ 0 ∨ x.acq.toNat % 4096 ≠ 0 ∨ 1 < ccAms x.cc) ||
    decide (x.aqa.toNat % 4096 = 0 ∨ x.aqa.toNat / 65536 % 4096 = 0) ||
    (s.tenantOf f).isNone || s.aon.noDram || s.hem.recovery

/-- The admin queues of a function, with AQA's sizes. -/
def Fn.withAdmin (x : Fn) : Fn :=
  { x with
    sqs := [{ (default : Sq) with base := x.asq.toNat, size := x.aqa.toNat % 4096 + 1 }]
    cqs := [{ (default : Cq) with base := x.acq.toNat, size := x.aqa.toNat / 65536 % 4096 + 1, ien := true, phase := true }] }

/-- CC.EN has become 1: CSTS.CFS is set, the write is held until boot has finished, or the function is ready (R562). -/
def State.enable (s : State) (f : FnId) : State :=
  if !s.aon.booted ∨ s.aon.coreReset then s.updFn f (fun x => { x with enHeld := true })
  else if s.enableFails f then s.updFn f (fun x => { x with cfs := true, enHeld := false })
  else s.updFn f (fun x => { x.withAdmin with ready := true, enHeld := false })

/-- CC.SHN set to 01b or 10b (R523). -/
def State.shutdown (s : State) (f : FnId) (shn : Nat) : State :=
  s.updFn f (fun x => { x with
    cc := (x.cc &&& ~~~0xC000#32) ||| BitVec.ofNat 32 (shn * 2 ^ 14)
    shst := if x.granted = [] then 2 else 1 })

/-- A controller reset: CC.EN has changed from 1 to 0 (R276). -/
def State.controllerReset (s : State) (f : FnId) : State := s.unlessWarned (fun s => s.resetFn f false)

/-- A write of CC; a function with no tenant keeps its reset values, and EN = 1 sets CSTS.CFS (R265). -/
def State.writeCc (s : State) (f : FnId) (v : BitVec 32) : State :=
  let x := s.fn f
  if (s.tenantOf f).isNone then (if ccEn v then s.enable f else s)
  else if ccEn x.cc && !ccEn v then s.controllerReset f
  else
    let s := s.setFn f { x with cc := v }
    let s := if ccShn v ≠ ccShn x.cc ∧ (ccShn v = 1 ∨ ccShn v = 2) then s.shutdown f (ccShn v) else s
    if !ccEn x.cc && ccEn v then s.enable f else s

/-- CC_ENABLE: a write of CC with EN = 1 on a function where it is 0. -/
def rowCcEnable (f : FnId) (value : BitVec 32) (s : State) : Host.Outcome State Fault Refusal :=
  if s.fnExists f ∧ ccEn value ∧ !ccEn (s.fn f).cc then .next (s.writeCc f value) else .next s

/-- CONTROLLER_RESET: CC.EN changed from 1 to 0. -/
def rowControllerReset (f : FnId) (s : State) : Host.Outcome State Fault Refusal :=
  if s.fnExists f ∧ ccEn (s.fn f).cc then .next (s.controllerReset f) else .next s

/-- SHUTDOWN_NOTIFICATION (R523). -/
def rowShutdownNotification (f : FnId) (shn : BitVec 2) (s : State) : Host.Outcome State Fault Refusal :=
  if s.fnExists f ∧ (shn = 1#2 ∨ shn = 2#2) then .next (s.shutdown f shn.toNat) else .next s

/-- FLR (R276): a configuration request, so a wake too (R464). -/
def rowFlr (f : FnId) (s : State) : Host.Outcome State Fault Refusal :=
  if s.fnExists f then .next ((s.wakeUp 3 65535).unlessWarned (fun s => s.resetFn f true)) else .next s

/-! PERST_N (R464, R554). -/

/-- Whether an assertion of a width is recognised: between 1.9 and 2.1 µs either outcome may come (log 11). -/
def State.perstSeen (s : State) (widthNs : Nat) : Bool × State :=
  if widthNs < 1900 then (false, s)
  else if 2100 ≤ widthNs then (true, s)
  else
    let (v, s) := s.draw
    (decide (v % 2 = 0), s)

/-- The reset of a port by its PERST_N: every function of it, as by FLR, with the port's VFs disabled again (R276). -/
def State.perstReset (s : State) (p : Port) : State :=
  let s := (s.portFns p).foldl (fun s f => s.resetFn f true) s
  match p with
  | .a => { s with host.numVfsA := 0, aon.lastReset := 4 }
  | .b => { s with host.numVfsB := 0, aon.lastReset := 5 }

/-- A port's link has gone down (R33); on the manager's port the count of R37 begins. -/
def State.linkLost (s : State) (p : Port) : State :=
  let s := s.updPort p (fun x => { x with linkUp := false, l12 := false })
  if p = s.mbx.manager ∧ s.mbx.downSince = none ∧ s.mbxReady p then { s with mbx.downSince := some s.now } else s

/-- PERST_N_ASSERT: the port goes to electrical idle with its domain stopped, and its functions are reset. -/
def rowPerstNAssert (port : Port) (widthNs : Nat) (s : State) : Host.Outcome State Fault Refusal :=
  let (seen, s) := s.perstSeen widthNs
  if seen ∧ !(s.portSt port).perst then
    let s := (s.updPort port (fun x => { x with perst := true, domainOn := false })).linkLost port
    .next (s.unlessWarned (fun s => s.perstReset port))
  else .next s

/-- PERST_N_DEASSERT: the port's domain starts and a wake follows (R464); the time bounds configuration requests (R554). -/
def execPerstNDeassert (port : Port) (t : Nat) (s : State) : Host.Outcome State Fault Refusal :=
  if (s.portSt port).perst then
    let s := s.atTime t
    let s := s.updPort port (fun x => { x with perst := false, domainOn := true, deassertUs := some s.now })
    .next (s.wakeUp 4 65535)
  else .next s

/-! Warm device reset (R524). -/

/-- A Shuttle channel at its reset values (R374). -/
def ShtCh.fresh : ShtCh := { (default : ShtCh) with retry := 3, entries := 2 }

/-- SHARE of the use that Claind gives a Shuttle channel (R371). -/
def claindShare (c : Nat) : Nat :=
  if c < 8 then 0 else if c < 24 then 64 else if c < 40 then 32 else if c < 48 then 64 else if c < 56 then 16
  else if c < 62 then 0 else 16

/-- Claind gives a Shuttle channel its SHARE; one that completes a descriptor before its reset gets it then (R371, R374). -/
def State.assignShare (s : State) (c : Nat) : State :=
  let x := Tab.get ShtCh.fresh s.mem.shuttle c
  if x.resetDue || decide (claindShare c = 0) then s
  else { s with mem.shuttle := Tab.set s.mem.shuttle c { x with share := claindShare c } }

/-- Every Shuttle channel given its SHARE (R371). -/
def State.assignShares (s : State) : State := (List.range 64).foldl State.assignShare s

/-- Whether a warm device reset can proceed: no mailbox command executes, but for the reset itself, and no activation is under
way (R65, R398, R524). -/
def State.warmFree (s : State) (seq : Nat) : Bool :=
  s.mbx.accepted.all (fun c => !c.started || decide (c.seq = seq)) && decide (s.hem.actStep = 0)

/-- Steps 3 to 6 of a warm device reset: every bound function is reset, and the device-wide settings of R526 return. -/
def State.warmReset (s : State) (cause : Nat) : State :=
  let s := (s.host.tenants.filterMap (fun p => p.2.fn)).foldl (fun s f => s.resetFn f true) s
  let s := s.resetMailbox s.mbx.manager
  let s := { s with
    mem.shuttle := (s.mem.shuttle.filter (fun (p : Nat × ShtCh) => p.2.running)).map (fun (p : Nat × ShtCh) => (p.1, { p.2 with resetDue := true }))
    aon.lastReset := 3
    aon.warmCause := cause
    aon.warmCmd := none
    aon.warmDue := false }
  let s := s.restoreFeatures.fillBuckets.assignShares
  (s.moveTo s.opState).tidy

/-- A WARM_RESET command that waits takes place once nothing else executes; its outcome is logged and not posted. So does the
reset that a duplicated record with both copies lost asks for (R367). -/
def State.tryWarm (s : State) : State :=
  match s.aon.warmCmd with
  | none => if s.aon.warmDue && s.warmFree 0 then s.warmReset 1 else s
  | some c =>
    if s.warmFree c.seq then
      let s := { s with mbx.accepted := s.mbx.accepted.map (fun (d : MbxCmd) =>
        if d.seq = c.seq then { d with posted := false, holdsSlot := false } else d) }
      (s.mbxFinish c stOk 0xFFFF 0 0).warmReset 0
    else s

/-- WARM_RESET (R534); after early warning it completes with POWER_LIMITED, as the commands of its chapter do. -/
def warmResetCmd (c : MbxCmd) (r : MbxReq) (s : State) : MbxRes :=
  r.guard0 s [r.rsv 16 48] ((s.aon.warmCmd.isSome, stBusyRetry) :: s.writes) (fun _ =>
    let s := s.updMbxPort s.mbx.manager (fun x => { x with ready := false, readyAt := none })
    MbxRes.goesOn ({ s with aon.warmCmd := some c } : State).tryWarm)

/-- WARM_RESET. -/
def execWarmReset (r : MbxReq) (s : State) : Host.Outcome State Fault Refusal := .next (s.mbxSubmit 0x0A06#16 warmResetCmd r)

end Sys2Proof.Machine
end

