-- ==== Sys2Proof/Machine/Yardage.lean ====
section
/-! DEFINITION. Host time, billing epochs and their records (R500-R503, R507-R509). -/

namespace Sys2Proof.Machine

/-! Host time (R501). -/

/-- Host time in ms under an OFFSET. -/
def State.hostMs (s : State) (offset : Int) : Int := (s.now / 1000 : Nat) + offset

/-- Host time as completions and records report it: 0 while it is stale. -/
def State.hostTime (s : State) : Nat := if s.yard.stale then 0 else (s.hostMs s.yard.offset).toNat

/-! Epochs (R502, R503). -/

/-- The device time at which host time reaches the next multiple of an epoch's length. -/
def State.alignedEnd (s : State) (lenS : Nat) : Nat :=
  let step : Int := (lenS * 1000 : Nat)
  let h := s.hostMs s.yard.offset
  (((h / step + 1) * step - s.yard.offset) * 1000).toNat

/-- The end of an epoch that opens now. -/
def State.epochEnd (s : State) (lenS : Nat) (align : Bool) : Nat :=
  if align ∧ !s.yard.stale then s.alignedEnd lenS else s.now + lenS * 1000000

/-- The next epoch of a tenant opens now, under the settings that wait for it. -/
def State.openEpoch (s : State) (t : Tenant) : Tenant :=
  { t with
    epochNo := t.epochNo + 1
    meters := List.replicate 6 0
    savedMeters := List.replicate 6 0
    epochStartUs := s.now
    epochLenS := t.nextLenS
    epochAlign := t.nextAlign
    epochEndUs := s.epochEnd t.nextLenS t.nextAlign
    hostStep := false }

/-- FLAGS of a record: HOST_STEP, those given, and HOST_STALE. -/
def State.epochFlags (s : State) (t : Tenant) (extra : Nat) : Nat :=
  (if t.hostStep then 1 else 0) + extra + (if s.yard.stale then 8 else 0)

/-- The open epoch closed with the counts given, the next one opening in the same µs (R502, R503). -/
def State.closeWith (s : State) (slot extra : Nat) (counts : List Nat) : State :=
  s.updTenant slot (fun t =>
    let r := [s.epochFlags t extra, s.now, s.hostTime, (s.now - t.epochStartUs) / 1000] ++ counts
    s.openEpoch { t with closedEpochs := ((t.epochNo, r) :: t.closedEpochs).take 96 })

/-- The open epoch of a tenant closed. -/
def State.closeEpoch (s : State) (slot extra : Nat) : State :=
  let s := s.updTenant slot (fun t => t.accrue s.now)
  s.closeWith slot extra (s.tenantD slot).meters

/-- A new tenant's first epoch (R293, R503). -/
def State.firstEpoch (s : State) (t : Tenant) : Tenant :=
  s.openEpoch { t with epochNo := 0, nextLenS := s.yard.lenS, nextAlign := s.yard.align }

/-- EPOCH_CLOSE (R502): device time reaches the end of a tenant's open epoch. -/
def execEpochClose (tenant t : Nat) (s : State) : Host.Outcome State Fault Refusal :=
  let s := s.atTime t
  match s.tenant tenant with
  | none => .next s
  | some x => if x.epochEndUs ≤ s.now then .next (s.closeEpoch tenant 0) else .next s

/-- EPOCH_SAVE (R503): every 60 s the open epochs' counters are saved among the object records; no Hem program is made after
early warning (R388). -/
def execEpochSave (t : Nat) (s : State) : Host.Outcome State Fault Refusal :=
  let s := s.atTime t
  if s.supply.ewLatched then .next s
  else .next (s.host.tenants.foldl (fun s p => s.updTenant p.1 (fun t =>
    let t := t.accrue s.now
    { t with savedMeters := t.meters })) s)

/-! YARDAGE_SET_EPOCH (R507). -/

/-- New settings for one tenant. -/
def State.setEpoch (s : State) (slot lenS : Nat) (align closeNow persist : Bool) : State :=
  let s := s.updTenant slot (fun t => { t with
    nextLenS := lenS
    nextAlign := align
    savedEpoch := if persist then some (lenS, align) else t.savedEpoch })
  if closeNow then s.closeEpoch slot 2 else s

/-- The offences of the parameter block. -/
def epochOffences (r : MbxReq) : List (Option Nat) :=
  [badIf (decide (r.p 16 4 < 60 ∨ 86400 < r.p 16 4)) 16, r.rsvBits 20 3, r.rsv 21 43]

/-- The effect of YARDAGE_SET_EPOCH on every tenant; the epoch that its completion reports is not stated (log 11). -/
def epochAllRun (r : MbxReq) (s : State) : MbxRes :=
  let lenS := r.p 16 4
  let align := r.bit 20 0
  let frozen := (s.host.tenants.filter (fun p => p.2.frozen)).length
  let live := (s.host.tenants.filter (fun p => !p.2.frozen)).map (·.1)
  let s := live.foldl (fun s k => s.setEpoch k lenS align (r.bit 20 1) (r.bit 20 2)) s
  let s := { s with yard.lenS := lenS, yard.align := align }
  let s := if r.bit 20 2 then { s with yard.savedLenS := lenS, yard.savedAlign := align } else s
  let (v, s) := s.draw
  MbxRes.ok s frozen (fld 20 12 v)

/-- The effect on one tenant. -/
def epochOneRun (r : MbxReq) (slot : Nat) (s : State) : MbxRes :=
  let s := s.setEpoch slot (r.p 16 4) (r.bit 20 0) (r.bit 20 1) (r.bit 20 2)
  let t := s.tenantD slot
  MbxRes.ok s 0 (fld 20 4 t.epochNo + fld 24 8 t.epochEndUs)

/-- YARDAGE_SET_EPOCH. -/
def yardageSetEpochCmd (_ : MbxCmd) (r : MbxReq) (s : State) : MbxRes :=
  let saves (act : Unit → MbxRes) : MbxRes := if r.bit 20 2 then r.hem s act else act ()
  let rest := if r.bit 20 2 then s.writes else s.acts
  if r.target = 0#32 then r.guard s (epochOffences r) rest (fun _ => saves (fun _ => epochAllRun r s))
  else r.guardH s 1 false (epochOffences r) (fun _ _ => rest) (fun slot _ _ => saves (fun _ => epochOneRun r slot s))

/-- YARDAGE_SET_EPOCH. -/
def execYardageSetEpoch (r : MbxReq) (s : State) : Host.Outcome State Fault Refusal :=
  .next (s.mbxSubmit 0x0704#16 yardageSetEpochCmd r)

/-! YARDAGE_READ (R508). -/

/-- A 64-byte record of R503, with its CRC. -/
def epochRecord (no flags endUs endHost lenMs : Nat) (counts : List Nat) : List Byte :=
  let head := bytesLE 1 0xE7 ++ bytesLE 1 flags
  let tail := bytesLE 1 0 ++ bytesLE 4 no ++ bytesLE 8 endUs ++ bytesLE 8 endHost ++ bytesLE 4 lenMs ++
    (List.range 6).flatMap (fun i => bytesLE 6 (min (counts.getD i 0) (2 ^ 48 - 1)))
  head ++ bytesLE 1 (crc8 0 (head ++ tail)) ++ tail

/-- The record of a closed epoch. -/
def closedRecord (e : Nat × List Nat) : List Byte :=
  epochRecord e.1 (e.2.getD 0 0) (e.2.getD 1 0) (e.2.getD 2 0) (e.2.getD 3 0) (e.2.drop 4)

/-- The open epoch's record: the current counts, and its scheduled end. -/
def State.openRecord (s : State) (t : Tenant) : List Byte :=
  let t := t.accrue s.now
  epochRecord t.epochNo (s.epochFlags t 0) t.epochEndUs 0 ((t.epochEndUs - t.epochStartUs) / 1000) t.meters

/-- The oldest and the newest closed epoch kept, 0 while there is none. -/
def Tenant.epochRange (t : Tenant) : Nat × Nat :=
  ((t.closedEpochs.getLast?.map (·.1)).getD 0, (t.closedEpochs.head?.map (·.1)).getD 0)

/-- The 64-byte header. -/
def State.yardageHeader (s : State) (t : Tenant) : List Byte :=
  bytesLE 4 t.epochRange.1 ++ bytesLE 4 t.epochRange.2 ++ bytesLE 8 s.now ++ bytesLE 8 s.hostTime ++ bytesLE 40 0

/-- YARDAGE_READ: the open record, the header, and the closed records that fit, oldest first. -/
def yardageReadCmd (_ : MbxCmd) (r : MbxReq) (s : State) : MbxRes :=
  let late := match s.handleOwner r.target.toNat with
    | some owner => decide ((s.tenantD owner).epochRange.2 < r.p 28 4)
    | none => false
  r.guardH s 1 true (r.bufOffences 16 24 128 ++ [badIf late 28, r.rsv 32 32]) (fun _ _ => s.buffers) (fun _ _ t =>
    r.buffer s 16 (fun _ =>
      let all := (t.closedEpochs.filter (fun e => decide (r.p 28 4 ≤ e.1))).reverse
      let n := (r.p 24 4 - 128) / 64
      let recs := all.take n
      let next := ((all.drop n).head?.map (·.1)).getD 0
      let s := r.output s 16 24 (s.openRecord t ++ s.yardageHeader t ++ recs.flatMap closedRecord)
      MbxRes.ok s 0 (fld 20 4 recs.length + fld 24 4 next)))

/-- YARDAGE_READ. -/
def execYardageRead (r : MbxReq) (s : State) : Host.Outcome State Fault Refusal :=
  .next (s.mbxSubmit 0x0705#16 yardageReadCmd r)

/-! HOST_TIME_SET (R509). -/

/-- An open epoch under a new OFFSET (R502, R509). -/
def State.restep (s : State) (stepped : Bool) (t : Tenant) : Tenant :=
  let limit := t.epochStartUs + t.epochLenS * 1000000
  { t with
    hostStep := t.hostStep || stepped
    epochEndUs := if t.epochAlign then max s.now (min limit (s.alignedEnd t.epochLenS)) else t.epochEndUs }

/-- The effect of HOST_TIME_SET. -/
def hostTimeRun (hostMs : Nat) (s : State) : MbxRes :=
  let prev := s.hostTime
  let old := s.hostMs s.yard.offset
  let stepped := decide (old + 1000 < (hostMs : Int) ∨ (hostMs : Int) + 1000 < old)
  let s := { s with yard.offset := (hostMs : Int) - (s.now / 1000 : Nat), yard.stale := false }
  let s := s.host.tenants.foldl (fun s p => s.updTenant p.1 (s.restep stepped)) s
  MbxRes.ok s 0 (fld 20 8 prev)

/-- HOST_TIME_SET. -/
def hostTimeSetCmd (_ : MbxCmd) (r : MbxReq) (s : State) : MbxRes :=
  r.guard0 s [badIf (decide (r.p 16 8 = 0)) 16, r.rsv 24 40] s.writes (fun _ => r.hem s (fun _ => hostTimeRun (r.p 16 8) s))

/-- HOST_TIME_SET. -/
def execHostTimeSet (r : MbxReq) (s : State) : Host.Outcome State Fault Refusal :=
  .next (s.mbxSubmit 0x0706#16 hostTimeSetCmd r)

end Sys2Proof.Machine
end

