-- ==== Sys2Proof/Machine/Sanitise.lean ====
section
/-! DEFINITION. Sanitise and format (R335, R337, R431-R439, R444-R447), the first initialisation that a block erase runs again
(R72, R76, R433, R560), and the destruction of key slots (R335, R345). -/

namespace Sys2Proof.Machine

/-! Namespaces emptied (R335, R433, R438). -/

/-- Every zone of a tenant reset to Empty with its generation advanced, bound or not (R433, R438). -/
def State.emptyZones (s : State) (slot : Nat) : State :=
  let s := (s.tenantD slot).zones.foldl (fun s z => s.dropZoneBolt slot z.1) s
  s.updTenant slot (fun t => { t with
    zoneGen := t.zoneGen + 1
    zones := (t.zones.filter (fun z => decide (z.2.gen ≠ t.zoneGen))).map (fun (z : Nat × Zone) =>
      (z.1, { (default : Zone) with st := .zse, gen := z.2.gen + 1 })) })

/-- Every bound zone of a tenant reset (R335). -/
def State.resetBound (s : State) (slot : Nat) : State :=
  ((s.tenantD slot).zones.filter (fun z => z.2.bolt.isSome)).foldl (fun s z => s.resetZone slot z.1) s

/-- The log bolts of a tenant. -/
def State.logBoltsOf (s : State) (slot : Nat) : List Nat :=
  (s.bolts.table.filter (fun p => decide (p.2.st = .bound ∧ p.2.use = .log slot))).map (·.1)

/-- NSID 2 of a tenant made unwritten with its region generation advanced: its merges are abandoned, and its region and log
bolts released (R180, R335, R433, R438). -/
def State.emptyConv (s : State) (slot : Nat) : State :=
  let merges := s.recl.items.filter (fun i => match i.kind with | .merge t _ _ => decide (t = slot) | _ => false)
  let s := merges.foldl State.abandonItem s
  let bs := s.logBoltsOf slot ++ (s.tenantD slot).regions.map (·.bolt)
  let s := s.dropData slot
    (fun k => decide (keyTenant k = slot ∧ keyNsid k = 2))
    (fun p => decide (bs.contains p.bolt ∧ p.kind ≠ .reloc) || decide (2 ^ 18 ≤ p.bolt ∧ p.writer = slot ∧ p.kind ≠ .raw))
    (fun p => decide (p.tenant = slot ∧ p.nsid = 2))
    (fun a => bs.contains a.bolt)
  let s := { s with
    wr.convMap := s.wr.convMap.filter (fun p => decide (keyTenant p.1 ≠ slot))
    wr.logOpen := Tab.del s.wr.logOpen slot }
  let s := bs.foldl State.releaseZoneBolt s
  s.updTenant slot (fun t => { t with
    regions := []
    regionGen := t.regionGen + 1
    keys := t.keys.map (fun (k : KeySlot) => { k with conv := 0 }) })

/-! Key slots destroyed (R335, R345). -/

/-- Zones and conventional sectors sealed under a key slot as it stands: how many zones it makes inaccessible (R345, R346). -/
def State.zonesOfKey (s : State) (slot k : Nat) : Nat :=
  let g := s.gen 4 (2 * slot + k)
  ((s.tenantD slot).zones.filter (fun z => decide (z.2.bolt.isSome ∧ z.2.keySlot = some k ∧ z.2.keyGen = g))).length

/-- A key slot destroyed (R345): its key RAM entry is cleared, its record invalidated, or left to the next boot where the Hem
program fails, and the slot becomes EMPTY with its generation advanced, unless it is EMPTY already. -/
def State.destroyKey (s : State) (slot k : Nat) (ok : Bool) : State :=
  let x := (s.tenantD slot).key k
  if x.st = .empty then s
  else
    let y : KeySlot := { x with st := .empty, ram := none, record := none, stale := !ok && x.record.isSome, conv := 0 }
    ((s.updTenant slot (fun t => { t with keys := t.keys.set k y })).bumpGen 4 (2 * slot + k)).c8 slot 2

/-- A crypto erase past its drain (R335): every key is destroyed and every stored record unreadable, every slot EMPTY with its
generation advanced, every bound zone reset, and NSID 2 of every tenant unwritten. -/
def State.cryptoErase (s : State) : State :=
  let empty : KeySlot := ⟨.empty, none, none, false, 0⟩
  let s := { s with hem.keyStoreKey := s.hem.keyStoreKey + 1 }
  s.host.tenants.foldl (fun s p =>
    let s := s.updTenant p.1 (fun t => { t with keys := [empty, empty] })
    let s := (s.bumpGen 4 (2 * p.1)).bumpGen 4 (2 * p.1 + 1)
    ((s.resetBound p.1).emptyConv p.1).resumeQueues p.1) s

/-! First initialisation (R72, R76, R77, R433, R560). -/

/-- The unit maps built again: each column of a bolt names the unit of the bolt's index, or the die's next spare where that
unit is factory-bad or retired (R76, R77, R188). -/
def State.mapUnits (s : State) : State :=
  let s := { s with
    bolts.table := s.bolts.table.map (fun (p : Nat × Bolt) => (p.1, { p.2 with units := [] }))
    dies.table := s.dies.table.map (fun (p : Nat × Die) => (p.1, { p.2 with nextSpare := 0 })) }
  let ds := ((s.board.factoryBad.map (fun p => dieKey p.1)) ++ s.dies.table.map (·.1)).eraseDups
  let bad := fun (k : Nat) =>
    sortOn (· ≤ ·)
      ((((s.board.factoryBad.filter (fun p => decide (p.1 = dieOfKey k))).map (·.2)) ++ (s.die (dieOfKey k)).retired).eraseDups.filter
        (fun u => decide (u < 6 + s.logPerGroup ∨ (s.firstUser ≤ u ∧ u < s.dp.positions))))
  ds.foldl (fun s k =>
    let d := dieOfKey k
    let g := s.groupOf d
    if s.presentGroups.contains g then
      (bad k).foldl (fun s u => match s.takeSpare d with
        | none => s
        | some (v, s) => s.updBolt (boltNo g u) (fun x => { x with units := Tab.set x.units (s.colOf d) v })) s
    else s) s

/-- The dies of a group. -/
def State.groupDies (s : State) (g : Nat) : List DieId := (List.range 32).map (s.dieOf g)

/-! Die discovery (R70, R71). -/

/-- Bits per cell of a die type: TLC holds 3, QLC 4 (R69). -/
def cellBits : Nat → Nat
  | 1 => 3
  | _ => 4

end Sys2Proof.Machine

namespace Sys2Proof

open Machine

/-- Whether a parameter page agrees with a row of R69; its block count is that of one plane, an erase unit having one block on each
(DEDUCED, log 97). -/
def ParamPage.agrees (p : ParamPage) (t : Nat) : Bool :=
  let x := dieParams t
  decide (p.page = 16384 ∧ p.spare = 2048 ∧ p.pages = x.rows * cellBits t ∧ p.planes = 2 ∧ p.bits = cellBits t ∧ p.blocks = x.units)

/-- The type that a die's answer shows, 0 for a die that is missing or unsupported: the first copy of its parameter page with a correct
CRC is taken (R70). A die whose interface does not train counts as unsupported (DESIGN CHOICE, log 97). -/
def DieAnswer.typ : DieAnswer → Nat
  | .missing => 0
  | .answers copies trains _ => match copies.find? (fun p => p.crcOk) with
    | none => 0
    | some p => if trains then ([1, 2, 3].find? p.agrees).getD 0 else 0

end Sys2Proof

namespace Sys2Proof.Machine

/-- The type that a position's die showed at the last discovery: the drive's own where nothing else was found (R70). -/
def State.dieAnswer (s : State) (d : DieId) : Nat :=
  match s.geo.found.find? (fun p => decide (p.1 = d)) with
  | some (_, a) => a.typ
  | none => if d.pos < s.board.positions then s.board.dieType else 0

/-- Whether a die answered at all. -/
def State.dieThere (s : State) (d : DieId) : Bool :=
  match s.geo.found.find? (fun p => decide (p.1 = d)) with
  | some (_, .missing) => false
  | some _ => true
  | none => decide (d.pos < s.board.positions)

/-- Whether a die's factory-marked bad units leave it too few spares, as discovery found it (R77). -/
def State.dieFew (s : State) (d : DieId) : Bool :=
  s.geo.found.any (fun p => decide (p.1 = d) && (match p.2 with | .answers _ _ few => few | .missing => false))

/-- The number of positions of a drive (R71, R72): the smallest permitted that holds every answering position. -/
def State.positionsOf (s : State) : Nat :=
  let chs := List.range s.channels
  let top := ((List.range 32).filter (fun p => chs.any (fun c => s.dieThere ⟨c, p⟩))).foldl (fun m p => max m (p + 1)) 0
  ((if s.channels = 32 then [4, 8, 16, 32] else [8, 16, 32]).find? (fun n => decide (top ≤ n))).getD 32

/-- A die that makes its group absent at first initialisation, with the Selvedge code of its cause (R72, R514): a die that has failed
since the discovery no longer answers. -/
def State.dieCause (s : State) (d : DieId) : Option Nat :=
  if s.dieFailed d ∨ s.dieAnswer d ≠ s.geo.dieType then some 0x25
  else if s.spareLeft d < 64 ∨ s.dieFew d then some 0x26
  else none

/-- The geometry of a first initialisation (R72): the type of the die at channel 0, position 0, n, the unit maps, and the absent groups,
each cause recorded; none where that die is missing or unsupported. -/
def State.initGeo (s : State) : Option State :=
  let typ := if s.dieFailed ⟨0, 0⟩ then 0 else s.dieAnswer ⟨0, 0⟩
  if typ = 0 ∨ 3 < typ then none
  else
    let s := { s with geo := { s.geo with
      recorded := true
      dieType := typ
      n := s.positionsOf
      absent := []
      recordBoot := s.hem.bootCount
      media := true } }
    let s := s.mapUnits
    let causes := ((List.range s.groups).flatMap s.groupDies).filterMap (fun d => (s.dieCause d).map (fun c => (d, c)))
    let s := causes.foldl (fun s p =>
      s.selvedge { source := 2, code := p.2, loc := dieLoc p.1, detail := s.groupOf p.1, answer := 5 }) s
    some { s with geo.absent := (causes.map (fun p => s.groupOf p.1)).eraseDups }

/-- The device comes up without media (R72, R349, R546). -/
def State.withoutMedia (s : State) : State := { s with geo.media := false, aon.noMedia := true }

/-- First initialisation that finds no die to take its type from: the device is without media (R72). -/
def State.initFailed (s : State) : State := (s.selvedge { source := 2, code := 0x25, loc := 0, answer := 5 }).withoutMedia

/-- A namespace of a tenant changed: its entry in the Changed Namespace List, and the notice (R259). -/
def State.nsChange (s : State) (slot nsid : Nat) : State :=
  let s := s.updTenant slot (fun t => { t with nsChanged := addOnce t.nsChanged nsid })
  match (s.tenantD slot).fn with
  | none => s
  | some f => s.notice f 8 0 0x04

/-- The largest quota up to `n` with which a tenant fits. -/
def State.fitQuota (s : State) (slot : Nat) (t : Tenant) : Nat → Nat
  | 0 => 0
  | n + 1 => if s.fits slot { t with quota := n + 1 } then n + 1 else State.fitQuota s slot t n

/-- The largest number of region bolts up to `n` with which a tenant fits. -/
def State.fitConv (s : State) (slot : Nat) (t : Tenant) : Nat → Nat
  | 0 => 0
  | n + 1 => if s.fits slot { t with conv := n + 1 } then n + 1 else State.fitConv s slot t n

/-- The groups newly absent taken from a tenant's set and masks, and its reservations reduced until they fit, its quota
first and its region within the conventional-region limit (R85); each namespace that changes raises Namespace Attribute Changed (R433).
The zones beyond the quota keep their generations (R83). -/
def State.dropGroups (s : State) (slot : Nat) (gone : List Nat) : State :=
  let t := s.tenantD slot
  let keep := fun (gs : List Nat) => gs.filter (fun g => !gone.contains g)
  let t1 := { t with
    groups := keep t.groups
    placements := t.placements.map (fun (p : Placement) => { p with mask := keep p.mask }) }
  let q := if t1.groups.isEmpty then 0 else s.fitQuota slot t1 t.quota
  let t2 := { t1 with quota := q }
  let most := s.convLimit - (s.convAssigned - t.conv)
  let c := if t1.groups.isEmpty then 0 else min most (if q = 0 then s.fitConv slot t2 t.conv else t.conv)
  let s := s.setTenant slot { t2 with conv := c }
  let s := if q = t.quota then s else s.nsChange slot 1
  if c = t.conv then s else s.nsChange slot 2

/-- First initialisation as a block erase runs it (R433, R560): the type, n, the unit maps and the absent groups again, and every bolt
erased, the two highest-indexed user bolts of each group in the float; a group that comes back has its bolts in RELEASED. -/
def State.reinit (s : State) : State :=
  let was := s.presentGroups
  match s.initGeo with
  | none => s.initFailed
  | some s =>
    let gone := was.filter (fun g => !s.presentGroups.contains g)
    let fresh := s.presentGroups.filter (fun g => !was.contains g)
    let s : State := { s with
      bolts.table := s.bolts.table.map (fun (p : Nat × Bolt) => (p.1, { (default : Bolt) with
        st := if was.contains (boltGroup p.1) then .erased else .released
        ec := p.2.ec
        units := p.2.units }))
      bolts.dflt := .erased
      bolts.dfltEc := s.bolts.dfltEc + 1
      bolts.wiped := 0
      bolts.fresh := fresh
      dies.table := s.dies.table.map (fun (p : Nat × Die) => (p.1, { p.2 with retry := [], tailSlot := 0 }))
      supply.setErased := [fresh.isEmpty, fresh.isEmpty] }
    let s := (was.filter s.presentGroups.contains).foldl (fun s g =>
      [boltNo g (s.dp.positions - 1), boltNo g (s.dp.positions - 2)].foldl (fun s b =>
        s.updBolt b (fun x => { x with st := .float })) s) s
    let s := if gone.isEmpty then s else s.host.tenants.foldl (fun s p => s.dropGroups p.1 gone) s
    (s.updLogState).updSpare

/-! The block erase (R433). -/

/-- The bolt number that marks an erase of the block erase, and of one that was running when it began. -/
def wipeMark : Nat := 2 ^ 20

/-- See `wipeMark`. -/
def oldMark : Nat := 2 ^ 20 + 1

/-- A die's internal work given up: what is queued goes, and what runs ends without effect. -/
def Die.quiet (x : Die) : Die :=
  { x with
    progs := x.progs.filter (fun p => decide (p.kind = .raw))
    reads := x.reads.filter (fun r => decide (r.src ≠ 256))
    prog := x.prog.map (fun (p : ProgOp) =>
      if p.kind = .raw then p else { p with kind := .raw, keys := [], count := 0, item := 0, writer := 1024, opId := 65536 })
    erase := x.erase.map (fun (e : EraseRun) => if e.src = 256 then { e with bolt := oldMark } else e)
    eraseQ := x.eraseQ.filter (fun e => decide (e.src ≠ 256)) }

/-- A Hem bank's work for erase intents given up. -/
def HemBank.quiet (b : HemBank) : HemBank :=
  let drop := fun (o : HemOp) => match o.what with
    | .intent _ | .unitIntent _ _ | .close _ => { o with what := .close 0 }
    | _ => o
  { op := b.op.map drop, prog := b.prog.map drop, queue := b.queue.filter (fun o => match o.what with
      | .intent _ | .unitIntent _ _ | .close _ => false
      | _ => true) }

/-- Everything that refers to media content dropped, and every bolt released, before the block erase of the units. -/
def State.clearMedia (s : State) : State :=
  { s with
    bolts.table := s.bolts.table.map (fun (p : Nat × Bolt) =>
      (p.1, { (default : Bolt) with st := .released, ec := p.2.ec, units := p.2.units, relSeq := p.2.relSeq }))
    bolts.dflt := .released
    bolts.intents := []
    bolts.fgErase := []
    bolts.bindWait := []
    bolts.closedRows := []
    dies.table := s.dies.table.map (fun (p : Nat × Die) => (p.1, p.2.quiet))
    dies.spilled := []
    hem.banks := s.hem.banks.map (fun (p : Nat × HemBank) => (p.1, p.2.quiet))
    wr.swatches := []
    wr.expo := []
    wr.partials := []
    wr.ready := []
    wr.accums := []
    wr.staging := []
    wr.stagedHeld := []
    wr.stagingUsed := 0
    bolts.intentWait := []
    wr.records := []
    wr.convMap := []
    wr.logOpen := []
    wr.hostUsed := 0
    wr.reclUsed := 0
    rd.darns := s.rd.darns.filter (fun n => decide (n.target.src ≠ 256))
    rd.queuedDarns := s.rd.queuedDarns.filter (fun n => decide (n.target.src ≠ 256))
    recl.items := []
    pow.idleUs := s.now
    recl.inbox := []
    recl.throttled := []
    supply.flushed := []
    supply.stripes := []
    supply.sealRec := none
    supply.retireDue := []
    supply.flushSealed := false
    supply.restored := []
    host.tenants := s.host.tenants.map (fun (p : Nat × Tenant) => (p.1, { p.2 with
      swatchHeld := 0
      zoneGen := p.2.zoneGen + 1
      zones := (p.2.zones.filter (fun z => decide (z.2.gen ≠ p.2.zoneGen))).map (fun (z : Nat × Zone) =>
        (z.1, { (default : Zone) with st := .zse, gen := z.2.gen + 1 }))
      regions := []
      regionGen := p.2.regionGen + 1
      keys := p.2.keys.map (fun (k : KeySlot) => { k with conv := 0 }) })) }

/-- The dies that have to erase unit `i`: every non-failed die of the present groups where it is not retired (R433). -/
def State.wipeDies (s : State) (i : Nat) : List DieId :=
  (s.presentGroups.flatMap s.groupDies).filter (fun d => !s.dieFailed d && !(s.die d).retired.contains i)

/-- The erase of unit `i` issued to every die, with no erase intent; it raises the erase counts of the bolts and the spare units of that
index (R191). -/
def State.wipeUnit (s : State) (i : Nat) : State :=
  let s := { s with dies.nand := s.dies.nand.filter (fun p =>
    let b := p.1 / 2 ^ 20
    decide (s.unitOf b (chunkColumn b (p.1 % 2 ^ 20 / max 1 (s.unitSectors b))) ≠ i)) }
  let s := { s with
    bolts.wiped := max s.bolts.wiped (i + 1)
    bolts.table := s.bolts.table.map (fun (p : Nat × Bolt) =>
      if boltIndex p.1 = i then (p.1, { p.2 with ec := p.2.ec + 1 }) else p) }
  (s.wipeDies i).foldl (fun s d =>
    let (op, s) := (s.updDie d (fun x => { x with
      retry := Tab.del x.retry i
      spareEc := x.spareEc.map (fun (e : Nat × Nat) => if e.1 = i then (e.1, e.2 + 1) else e) })).newOp
    s.submitErase d (EraseRun.fresh wipeMark (s.colOf d) i 256 op)) s

/-- The sanitise is over: fetching and the power state return (R432). -/
def State.sanitiseOver (s : State) : State :=
  let s := { s with san.s.running := false, san.s.drain := false, san.s.cmd := none, san.s.nv := none, san.s.passed := [], pow.idleUs := s.now }
  (s.fetchAllFns).applyPolicy

/-- A Hem program of the journal has failed: the failure mode is entered (R433). -/
def State.sanitiseFail (s : State) : State :=
  let s := s.hemFailed
  let s := if s.blockErasing then s.mapUnits else s
  ({ s with san.s.failMode := true, san.s.failRestricted := !s.san.s.ause, san.s.sstat := 3 } : State).sanitiseOver

/-- The end word is written: the sanitise has succeeded. -/
def State.sanitiseEnd (s : State) : State :=
  ({ s with san.s.sstat := 1, san.s.written := false } : State).sanitiseOver

/-- The block erase from its lowest index not done: an index with no die to erase it is done at once (R433). -/
def State.wipeFrom : Nat → State → State
  | 0, s => s
  | n + 1, s =>
    let i := s.san.s.next
    if s.san.s.total ≤ i then s.reinit.sanitiseEnd
    else if (s.wipeDies i).isEmpty then
      State.wipeFrom n { s with san.s.next := i + 1, san.s.done := i + 1, san.s.passed := [] }
    else s.wipeUnit i

/-- The block erase goes on. -/
def State.wipe (s : State) : State := s.wipeFrom (s.san.s.total + 1 - s.san.s.next)

/-- The index is done once every die that has to has erased it; its done word is written (R433). -/
def State.wipeStep (s : State) (ok : Bool) : State :=
  if s.blockErasing && (s.wipeDies s.san.s.next).all (fun d => s.san.s.passed.contains (dieKey d)) then
    if ok then
      ({ s with san.s.next := s.san.s.next + 1, san.s.done := s.san.s.next + 1, san.s.passed := [] } : State).wipe
    else s.sanitiseFail
  else s

/-- An erase of the block erase, or one that it overtook, has ended: one that fails retires its unit (R188, R433). -/
def State.wipeStatus (s : State) (d : DieId) (e : EraseRun) (pass ok : Bool) (us : Nat) : State :=
  let s := s.updDie d (fun x => { x with erase := none, ledger := .idle })
  let s : State := if pass then s.pbSample none (128 + s.groupOf d) (bucketQ us)
    else
      let s := s.updDie d (fun x => { x with retired := addOnce x.retired e.unit, retiredErase := x.retiredErase + 1 })
      { s with recl.retiredErase := s.recl.retiredErase + 1 }
  let s : State := if e.bolt = wipeMark then
      ({ s with san.s.passed := addOnce s.san.s.passed (dieKey d) } : State).wipeStep ok
    else s
  ((s.settle d).retryDarns).tidy

/-! The drain and the start of a sanitise (R432). -/

/-- T_BE in seconds, rounded up, T_INIT at its limit of 2 s (R436, R437). -/
def State.etbe (s : State) : Nat := (s.dp.units * s.dp.tErase + 2000000 + 999999) / 1000000

/-- SPROG (R437). -/
def State.sprog (s : State) : Nat :=
  let x := s.san.s
  if !x.running then 65535
  else if x.action = 2 then 65536 * x.done / max 1 x.total
  else 0

/-- Every fetched entry that has not been granted completes with a status where it is taken (R432). -/
def State.failFetched (s : State) (status : Nat) (take : FnId → Sq → Fetched → Bool) : State :=
  s.host.fns.foldl (fun s p =>
    let f := fnOfKey p.1
    p.2.sqs.foldl (fun s q =>
      let gone := q.pre.filter (take f q)
      if gone.isEmpty then s
      else
        let s := s.updFn f (fun x => x.updSq q.qid (fun y => { y with
          pre := y.pre.filter (fun e => !take f q e) }))
        gone.foldl (fun s e => s.completeFetched f q.qid e.sqe.cmd status) s) s) s

/-- A sanitise accepted: its drain begins (R432). -/
def State.sanitiseStart (s : State) (action : Nat) (ause : Bool) (dw10 : BitVec 32) (cmd : Option MbxCmd)
    (nv : Option (FnId × Nat)) (ok : Bool) : State :=
  let s := { s with san.s := { s.san.s with
    running := true, drain := true, action := action, ause := ause, next := 0, passed := []
    total := if action = 2 then s.dp.units else 0
    dw10 := dw10, done := 0, cmd := cmd, nv := nv, ok := ok } }
  (s.failFetched nvSanitizing (fun _ _ _ => true)).applyPolicy

/-- Whether the granted commands have run to completion, the sanitise's own apart (R432). -/
def State.sanitiseDrained (s : State) : Bool :=
  s.rd.reads.isEmpty && s.wr.writes.isEmpty && s.wr.sends.isEmpty && s.host.granted.isEmpty &&
    s.host.fns.all (fun p => p.2.granted.all (fun o => decide (some (fnOfKey p.1, o.cid) = s.san.s.nv ∧ o.sqid = 0)))

/-- The waiting command of a sanitise completes (R432, R444). -/
def State.sanitiseAnswer (s : State) (ok : Bool) : State :=
  let eta := if s.san.s.action = 2 then s.etbe else 1
  let s : State := match s.san.s.cmd with
    | none => s
    | some c => s.mbxFinish c (if ok then stOk else stMediaFault) 0xFFFF 0 (if ok then fld 20 4 eta else 0)
  let s : State := match s.san.s.nv with
    | none => s
    | some (f, cid) => s.complete f { sqid := 0, cid := cid, status := if ok then nvOk else nvInternal, dnr := !ok && dnrOf nvInternal }
  { s with san.s.cmd := none, san.s.nv := none }

/-- Once a sanitise's drain has ended, its start word is written and its command completes; a block erase begins, a crypto
erase runs to its end (R432, R433). -/
def State.sanitiseGo (s : State) : State :=
  if s.san.s.running && s.san.s.drain && s.sanitiseDrained && !s.lastCall then
    let s := { s with san.s.drain := false, san.s.failMode := false, san.s.sstat := 2, san.s.seq := (s.san.s.seq + 1) % 256 }
    let s := s.sanitiseAnswer s.san.s.ok
    if !s.san.s.ok then s.sanitiseFail
    else if s.san.s.action = 2 then (s.clearMedia.wipe).fetchAllFns
    else s.cryptoErase.tidy.sanitiseEnd
  else s

/-- Exit Failure Mode: an unrestricted failure is left (R431). -/
def State.exitFailure (s : State) : State := { s with san.s.failMode := false }

/-! Format (R438, R439). -/

/-- The namespaces of a tenant as bits: 1 for NSID 1, 2 for NSID 2. -/
def nsHas (ns nsid : Nat) : Bool := if nsid = 1 then ns.testBit 0 else ns.testBit 1

/-- The bolts that a format releases. -/
def State.formatHeld (s : State) (slot ns : Nat) : List Nat :=
  let t := s.tenantD slot
  (if nsHas ns 1 then t.zones.filterMap (fun z => z.2.bolt) else []) ++
    (if nsHas ns 2 then t.regions.map (·.bolt) ++ s.logBoltsOf slot else [])

/-- EST_MS (R439). -/
def State.formatMs (s : State) (slot ns ses : Nat) : Nat :=
  let t := s.tenantD slot
  let zones := if nsHas ns 1 then t.quota else 0
  let most := (t.groups.map (fun g => s.heldIn slot g)).foldl max 0
  (50000000 + 60 * ((zones + 3) / 4) + (if ses = 1 then most * s.dp.tErase * 1000 else 0) + 999999) / 1000000

/-- A format accepted: the fetched and ungranted I/O to its namespaces completes with Format In Progress, and its granted
commands drain (R438). -/
def State.formatStart (s : State) (slot ns ses lbaf : Nat) (ok : Bool) (cmd : Option MbxCmd) (nv : Option (FnId × Nat)) : State :=
  let s := s.updTenant slot (fun t => { t with
    formatting := 1
    formatLbaf := lbaf
    formatDone := 0
    formatTotal := 0
    formatSes := ses
    formatNs := ns
    formatDrain := true
    formatOk := ok
    formatBolts := []
    formatMbx := cmd
    formatCmd := nv })
  s.failFetched nvFormatting (fun f q e => decide (some f = (s.tenantD slot).fn ∧ q.qid ≠ 0) && nsHas ns e.sqe.cmd.nsid.toNat &&
    decide (1 ≤ e.sqe.cmd.nsid.toNat ∧ e.sqe.cmd.nsid.toNat ≤ 2))

/-- Whether the granted commands of a format's namespaces have run to completion. -/
def State.formatDrained (s : State) (slot : Nat) : Bool :=
  let t := s.tenantD slot
  s.rd.reads.all (fun r => !(decide (r.tenant = slot) && nsHas t.formatNs r.nsid)) &&
    s.wr.writes.all (fun w => !(decide (w.tenant = slot) && nsHas t.formatNs w.nsid)) &&
    s.wr.sends.all (fun x => !(decide (x.tenant = slot) && nsHas t.formatNs 1)) &&
    s.host.granted.all (fun p => !(decide (some p.1 = t.fn ∧ p.2.2 ≠ 0)))

/-- A format's waiting command completes. -/
def State.formatAnswer (s : State) (slot status released ms : Nat) : State :=
  match (s.tenantD slot).formatMbx with
  | none => s
  | some c =>
    let s := s.updTenant slot (fun t => { t with formatMbx := none })
    s.mbxFinish c status 0xFFFF 0 (if status = stOk then fld 20 4 released + fld 24 4 ms else 0)

/-- A format ends in a state, and its NVMe command completes. -/
def State.formatEnd (s : State) (slot st status : Nat) : State :=
  let nv := (s.tenantD slot).formatCmd
  let s := s.updTenant slot (fun t => { t with formatting := st, formatDrain := false, formatCmd := none })
  let s := { s with pow.idleUs := s.now }
  match nv with
  | none => s
  | some (f, cid) => s.complete f { sqid := 0, cid := cid, status := status, dnr := decide (status ≠ nvOk) && dnrOf status }

/-- The erases of a format with SES = 001b looked at: it ends once every bolt it released has been erased (R438). -/
def State.formatStep (s : State) (slot : Nat) : State :=
  let t := s.tenantD slot
  let waits := fun (b : Nat) =>
    let x := s.bolt b
    decide (x.st = .released ∨ x.st = .erasing) || x.releasePending
  let left := t.formatBolts.filter waits
  let s := s.updTenant slot (fun t => { t with formatBolts := left, formatDone := t.formatTotal - left.length })
  if left.isEmpty then s.formatEnd slot 2 nvOk else s

/-- A format's effect once its namespaces have drained (R438). -/
def State.formatRun (s : State) (slot : Nat) : State :=
  let t := s.tenantD slot
  let held := s.formatHeld slot t.formatNs
  let s : State := if nsHas t.formatNs 1 then s.emptyZones slot else s
  let s : State := if nsHas t.formatNs 2 then s.emptyConv slot else s
  let s : State := if t.formatSes = 2 then (s.destroyKey slot 0 true).destroyKey slot 1 true else s
  let s := s.updTenant slot (fun (t : Tenant) => { t with
    lbaf := t.formatLbaf
    formatDrain := false
    formatTotal := held.length
    formatBolts := if t.formatSes = 1 then held else [] })
  (s.tidy).formatStep slot

/-- A running format looked at: the end of its drain, or of its erases (R438, R446). -/
def State.formatGo (s : State) (slot : Nat) : State :=
  let t := s.tenantD slot
  if t.formatting ≠ 1 ∨ s.lastCall then s
  else if !t.formatDrain then s.formatStep slot
  else if !s.formatDrained slot then s
  else if !t.formatOk then
    (s.hemFailed.formatAnswer slot stMediaFault 0 0).formatEnd slot 3 nvInternal
  else
    let n := (s.formatHeld slot t.formatNs).length
    let ms := s.formatMs slot t.formatNs t.formatSes
    (s.formatAnswer slot stOk n ms).formatRun slot

/-! Conventional regions resized (R104, R315, R323). -/

/-- The conventional sectors of a tenant at or above an LBA that have a copy. -/
def State.convFrom (s : State) (slot lo : Nat) : List Nat :=
  let mine := fun (k : Nat) => decide (keyTenant k = slot ∧ keyNsid k = 2 ∧ lo ≤ keyLba k)
  let regions := (s.tenantD slot).regions.filter (fun x => decide (lo ≤ x.x * s.dp.zoneCap))
  ((s.wr.swatches.map (·.1)).filter mine ++ (s.wr.staging.map (·.1)).filter mine).map keyLba ++
    ((s.wr.convMap.map (·.1)).filter mine).map keyLba ++
    regions.flatMap (fun x => (s.boltSectors x.bolt).map (fun o => x.x * s.dp.zoneCap + o.1)) |>.eraseDups

/-- A region shrunk to `n` bolts (R104): the LBAs beyond are discarded, their key references fall, and their region bolts are
released. -/
def State.shrinkConv (s : State) (slot n : Nat) : State :=
  let lo := n * s.dp.zoneCap
  let gone := s.convFrom slot lo
  let s := gone.foldl (fun s lba => match s.convCopy slot lba with
    | none => s
    | some x => s.addConv slot x.keySlot x.keyGen (-1)) s
  let mine := fun (k : Nat) => decide (keyTenant k = slot ∧ keyNsid k = 2 ∧ lo ≤ keyLba k)
  let s := s.unstage (fun k => mine k.1)
  let s := { s with
    wr.swatches := s.wr.swatches.filter (fun e => !mine e.1)
    wr.expo := s.wr.expo.filter (fun e => !mine e.1)
    wr.staging := s.wr.staging.filter (fun e => !mine e.1)
    wr.convMap := s.wr.convMap.filter (fun e => !mine e.1)
    dies.spilled := s.dies.spilled.filter (fun e => !mine e.1) }
  let s := s.restoredDone (s.supply.restored.filter mine)
  let rs := (s.tenantD slot).regions
  let s := s.updTenant slot (fun t => { t with
    conv := n
    regionGen := t.regionGen + 1
    regions := t.regions.filter (fun x => decide (x.x < n)) })
  ((rs.filter (fun x => decide (n ≤ x.x))).map (·.bolt)).foldl State.releaseZoneBolt s

/-- Whether a fetched entry writes NSID 2 beyond an LBA. -/
def writesBeyond (lo : Nat) (e : Sqe) : Bool :=
  (decide (e.opcode = 0x01#8) || decide (e.opcode = 0x08#8)) &&
    decide (e.cmd.sqid ≠ 0 ∧ e.cmd.nsid = 2#32 ∧ lo < e.dw10.toNat + e.dw11.toNat * 2 ^ 32 + e.dw12.toNat % 65536 + 1)

/-- Whether a write to the range that a shrink discards has been fetched and has not completed (R104). -/
def State.convBusy (s : State) (slot n : Nat) : Bool :=
  let lo := n * s.dp.zoneCap
  s.wr.writes.any (fun w => decide (w.tenant = slot ∧ w.nsid = 2 ∧ lo < w.lba + w.len)) ||
    (match (s.tenantD slot).fn with
      | none => false
      | some f => s.host.granted.any (fun p => decide (p.1 = f) && writesBeyond lo p.2.1) ||
        (s.fn f).sqs.any (fun q => q.pre.any (fun e => writesBeyond lo e.sqe)))

/-- CONV_REGION_SET takes effect (R104). -/
def State.setConv (s : State) (slot n : Nat) : State :=
  let old := (s.tenantD slot).conv
  let s : State :=
    if n = 0 then (if old = 0 then s else (s.emptyConv slot).updTenant slot (fun t => { t with conv := 0 }))
    else if n < old then s.shrinkConv slot n
    else s.updTenant slot (fun t => { t with conv := n })
  let s := if n = old then s else s.nsChange slot 2
  s.tidy

/-- A CONV_REGION_SET that waits takes effect once the writes to the range it discards have completed (R104). -/
def State.convGo (s : State) (slot : Nat) : State :=
  match (s.tenantD slot).convCmd with
  | none => s
  | some c =>
    let n := c.req.p 16 4
    if s.convBusy slot n then s
    else
      let s := (s.updTenant slot (fun t => { t with convCmd := none })).setConv slot n
      s.mbxFinish c stOk 0xFFFF (s.handleOf 1 slot) (fld 20 4 n + fld 24 8 (n * s.dp.zoneCap))

/-! What the end of a command lets go on. -/

/-- What waits for commands to complete goes on: a warm device reset (R524), the drain of a sanitise (R432), formats (R438) and
a power state recorded for their end (R461). -/
def State.after (s : State) : State :=
  let s := s.tryWarm.sanitiseGo
  (s.host.tenants.foldl (fun s p => (s.formatGo p.1).convGo p.1) s).releaseHeld.actMove

/-- The outcome of a row with what it lets go on. -/
def settled (o : Host.Outcome State Fault Refusal) : Host.Outcome State Fault Refusal :=
  match o with
  | .next s => .next s.after
  | .fault f => .fault f
  | .refused r => .refused r

/-! Rows. -/

/-- ERASE_STATUS_READ (R173): a die reports its running erase, whose confirm has gone out, as passed or failed. -/
def execEraseStatusRead (die : DieId) (found : StatusRead) (us : Nat) (hemOk : Bool) (s : State) :
    Host.Outcome State Fault Refusal :=
  match (s.die die).erase with
  | none => .next s
  | some e =>
    if !e.suspended && !e.suspending && !s.adopting die && !s.busPending die .eraseConfirm && !s.busPending die .resume then
      let s := if found.again && (s.die die).adopted then s.eraseAgain die
        else if wipeMark ≤ e.bolt then s.wipeStatus die e found.pass hemOk us else s.eraseStatus die found.pass hemOk us
      .next s.pump.after
    else .next s

/-- SANITISE_START (R431-R433, R444). -/
def sanitiseStartCmd (c : MbxCmd) (r : MbxReq) (s : State) : MbxRes :=
  let a := r.p 16 1
  let ause := r.bit 17 0
  let busy := s.san.s.running || decide (s.hem.actStep ≠ 0) || s.host.tenants.any (fun p => decide (p.2.formatting = 1))
  let restricted := s.san.s.failMode && s.san.s.failRestricted
  r.guard0 s [badIf (decide (a = 0 ∨ 3 < a ∨ (a = 2 ∧ !s.cipher))) 16, r.rsvBits 17 1, r.rsv 18 46]
    [(s.supply.ewLatched, stPowerLimited), (busy, stBusyRetry),
      (decide (a = 3) && !s.san.s.failMode, stConflict), (restricted && (decide (a = 3) || ause), stConflict)] (fun _ =>
    if a = 3 then MbxRes.ok s.exitFailure
    else
      let sanact := 2 * a
      let dw10 := BitVec.ofNat 32 (sanact + (if ause then 8 else 0))
      MbxRes.goesOn (s.sanitiseStart sanact ause dw10 (some c) none r.env.hemOk).sanitiseGo)

/-- The ACTION that the row of SANITISE_START fixes, put into its parameters. -/
def withAction (r : MbxReq) (a : Nat) : MbxReq := { r with params := (r.params >>> 8 <<< 8) ||| BitVec.ofNat 384 a }

/-- SANITISE_START with ACTION 1. -/
def execSanitiseStartBlockErase (r : MbxReq) (s : State) : Host.Outcome State Fault Refusal :=
  settled (.next (s.mbxSubmit 0x0901#16 sanitiseStartCmd (withAction r 1)))

/-- SANITISE_START with ACTION 2. -/
def execSanitiseStartCryptoErase (r : MbxReq) (s : State) : Host.Outcome State Fault Refusal :=
  settled (.next (s.mbxSubmit 0x0901#16 sanitiseStartCmd (withAction r 2)))

/-- SANITISE_START with ACTION 3. -/
def execSanitiseStartExitFailure (r : MbxReq) (s : State) : Host.Outcome State Fault Refusal :=
  settled (.next (s.mbxSubmit 0x0901#16 sanitiseStartCmd (withAction r 3)))

/-- SANITISE_STATUS (R445). -/
def sanitiseStatusCmd (_ : MbxCmd) (r : MbxReq) (s : State) : MbxRes :=
  let x := s.san.s
  r.guard0 s [r.rsv 16 48] [] (fun _ =>
    MbxRes.ok s 0 (fld 20 2 s.sprog + fld 22 1 x.sstat + fld 23 1 (x.action / 2) + fld 24 4 x.done + fld 28 4 x.total))

/-- SANITISE_STATUS. -/
def execSanitiseStatus (r : MbxReq) (s : State) : Host.Outcome State Fault Refusal := .next (s.mbxSubmit 0x0902#16 sanitiseStatusCmd r)

/-- FORMAT_START (R438, R446). -/
def formatStartCmd (c : MbxCmd) (r : MbxReq) (s : State) : MbxRes :=
  let ns := r.p 16 1
  let ses := r.p 17 1
  r.guardH s 1 false
    [badIf (decide (ns = 0 ∨ 3 < ns)) 16, badIf (decide (2 < ses ∨ (ses = 2 ∧ !s.cipher))) 17,
      badIf (decide (1 < r.p 18 1)) 18, r.rsv 19 45]
    (fun _ t => [(s.supply.ewLatched, stPowerLimited),
      ((nsHas ns 1 && decide (s.nsze t 1 = 0)) || (nsHas ns 2 && decide (s.nsze t 2 = 0)), stConflict),
      (decide (t.formatting = 1) || s.san.s.running, stBusyRetry)])
    (fun _ slot _ => MbxRes.goesOn ((s.formatStart slot ns ses (r.p 18 1) r.env.hemOk (some c) none).formatGo slot))

/-- FORMAT_START. -/
def execFormatStart (r : MbxReq) (s : State) : Host.Outcome State Fault Refusal :=
  settled (.next (s.mbxSubmit 0x0903#16 formatStartCmd r))

/-- FORMAT_STATUS (R447). -/
def formatStatusCmd (_ : MbxCmd) (r : MbxReq) (s : State) : MbxRes :=
  r.guardH s 1 true [r.rsv 16 48] (fun _ _ => []) (fun _ _ t =>
    MbxRes.ok s 0 (fld 20 1 t.formatting + fld 21 1 t.formatSes + fld 22 1 t.formatNs + fld 24 4 t.formatBolts.length +
      fld 28 4 t.formatTotal))

/-- FORMAT_STATUS. -/
def execFormatStatus (r : MbxReq) (s : State) : Host.Outcome State Fault Refusal := .next (s.mbxSubmit 0x0904#16 formatStatusCmd r)

/-- FORMAT_NVM past the arbiter (R438). -/
def formatNvmRun (c : NvmeCmd) (lbaf ses : Nat) (mset : Bool) (pi : Nat) (pil : Bool) (hemOk : Bool) (s : State) : State :=
  match s.tenantOf c.fn with
  | none => s.failCmd c.fn c nvBadNs
  | some slot =>
    let t := s.tenantD slot
    let active := (if s.nsze t 1 = 0 then 0 else 1) + (if s.nsze t 2 = 0 then 0 else 2)
    let ns := if c.nsid = 0xFFFFFFFF#32 then active else c.nsid.toNat
    if 1 < lbaf ∨ pi ≠ 0 ∨ pil ∨ mset ∨ 2 < ses ∨ (ses = 2 ∧ !s.cipher) then s.failCmd c.fn c nvBadFormat
    else if t.formatting = 1 then s.failCmd c.fn c nvSequence
    else if s.supply.ewLatched then s.failCmd c.fn c nvInternal
    else (s.formatStart slot ns ses lbaf hemOk none (some (c.fn, c.cid))).formatGo slot

/-- FORMAT_NVM (R438). -/
def execFormatNvm (c : NvmeCmd) (lbaf ses : Nat) (mset : Bool) (pi : Nat) (pil : Bool) (hemOk : Bool) (s : State) :
    Host.Outcome State Fault Refusal :=
  settled (.next (s.onGrant c 0x80#8 (fun e => decide (e.dw10.toNat % 16 = lbaf ∧ e.dw10.toNat / 512 % 8 = ses ∧
    e.dw10.getLsbD 4 = mset ∧ e.dw10.toNat / 32 % 8 = pi ∧ e.dw10.getLsbD 8 = pil))
    (formatNvmRun c lbaf ses mset pi pil hemOk)))

/-- SANITIZE past the arbiter, with an erase action (R431, R432). -/
def sanitizeRun (c : NvmeCmd) (sanact : Nat) (ause ndas hemOk : Bool) (s : State) : State :=
  let dw10 := BitVec.ofNat 32 (sanact + (if ause then 8 else 0))
  if ndas ∨ (sanact = 4 ∧ !s.cipher) then s.failCmd c.fn c nvBadField
  else if s.san.s.running then s.failCmd c.fn c nvSanitizing
  else if s.san.s.failMode && s.san.s.failRestricted && ause then s.failCmd c.fn c nvSanitizeFailed
  else if s.hem.actStep ≠ 0 ∨ s.host.tenants.any (fun p => decide (p.2.formatting = 1)) then s.failCmd c.fn c nvSequence
  else if s.supply.ewLatched then s.failCmd c.fn c nvInternal
  else (s.sanitiseStart sanact ause dw10 none (some (c.fn, c.cid)) hemOk).sanitiseGo

/-- Whether an entry is a Sanitize with an action, AUSE and NDAS. -/
def isSanitize (sanact : Nat) (ause ndas : Bool) (e : Sqe) : Bool :=
  decide (e.dw10.toNat % 8 = sanact ∧ e.dw10.getLsbD 3 = ause ∧ e.dw10.getLsbD 9 = ndas)

/-- SANITIZE with SANACT = 010b. -/
def execSanitizeBlockErase (c : NvmeCmd) (ause ndas : Bool) (hemOk : Bool) (s : State) : Host.Outcome State Fault Refusal :=
  settled (.next (s.onGrant c 0x84#8 (isSanitize 2 ause ndas) (sanitizeRun c 2 ause ndas hemOk)))

/-- SANITIZE with SANACT = 100b. -/
def execSanitizeCryptoErase (c : NvmeCmd) (ause ndas : Bool) (hemOk : Bool) (s : State) : Host.Outcome State Fault Refusal :=
  settled (.next (s.onGrant c 0x84#8 (isSanitize 4 ause ndas) (sanitizeRun c 4 ause ndas hemOk)))

/-- SANITIZE with SANACT = 001b past the arbiter: only an unrestricted failure is left by it (R431). -/
def exitFailureRun (c : NvmeCmd) (s : State) : State :=
  if s.san.s.running then s.failCmd c.fn c nvSanitizing
  else if s.san.s.failMode && s.san.s.failRestricted then s.failCmd c.fn c nvSanitizeFailed
  else s.exitFailure.okCmd c

/-- SANITIZE with SANACT = 001b. -/
def execSanitizeExitFailureMode (c : NvmeCmd) (s : State) : Host.Outcome State Fault Refusal :=
  settled (.next (s.onGrant c 0x84#8 (fun e => decide (e.dw10.toNat % 8 = 1)) (exitFailureRun c)))

end Sys2Proof.Machine
end

