-- ==== Sys2Proof/Machine/Recovery.lean ====
section
/-! DEFINITION. What a loss of power, or a device reset, leaves of the device (R56, R175, R203, R288, R310-R314, R410, R419,
R426-R430, R496, R503, R522, R526): durable records keep their values, volatile state returns to its initial values, and the
committed data that the media, the spills and the flush hold is put back where boot goes on from it. -/

namespace Sys2Proof.Machine

/-! Programs in flight (R211, R410, R429). -/

/-- A program in flight that has ended with pass, as far as the media show it. -/
def State.landed (s : State) (p : ProgOp) : State :=
  match p.kind with
  | .chunk | .pad => s.settleSectors .channel p
  | .parity =>
    match s.wr.accums.find? (fun a => decide (a.bolt = p.bolt ∧ a.half = p.column / 16 ∧ a.row = p.row)) with
    | none => s
    | some a =>
      let s := { s with bolts.closedRows := Tab.set s.bolts.closedRows (p.bolt * 2 + p.column / 16) p.row }
      a.held.foldl (State.settleSectors · .accumulator) (s.clearAccum p.bolt (p.column / 16))
  | .spill =>
    let s := p.keys.foldl (fun s k => match Tab.find s.wr.swatches k.1 with
      | some x => if x.gen = k.2 then { s with dies.spilled := Tab.set s.dies.spilled k.1 x } else s
      | none => s) s
    (s.unexpose p.keys).unstage p.keys.contains
  | _ => s

/-- Every program in flight resolved: after a seal each has ended (R417); without one, each is found not begun, ended or cut
short (log 11). The bolts that hold a program cut short (R429). -/
def State.cutPrograms (s : State) : List Nat × State :=
  let clean := s.supply.flushSealed
  s.dies.table.foldl (fun (acc : List Nat × State) q =>
    match q.2.prog with
    | none => acc
    | some p =>
      if p.src ≠ 256 then acc
      else
        let (v, s) := acc.2.draw
        if clean ∨ v % 3 = 0 then
          let s := s.landed p
          (acc.1, s.updDie (dieOfKey q.1) (fun x => { x with prog := none }))
        else if v % 3 = 1 ∧ p.kind ≠ .spill ∧ p.kind ≠ .reloc ∧ p.kind ≠ .raw then (acc.1 ++ [p.bolt], s)
        else (acc.1, s)) ([], s)

/-! Committed sectors (R427, R428, R430). -/

/-- The sectors of the flush. -/
def flushSectors (xs : List FlushItem) : List (Nat × Sealed) :=
  xs.filterMap (fun x => match x with | .sector k v => some (k, v) | _ => none)

/-- Whether a sector that a swatch holds has a durable copy of that generation: spilled, flushed, or in the set of an earlier
flush. -/
def State.keeps (s : State) (key gen : Nat) : Bool :=
  !s.wr.expo.contains (key, gen) ||
    (flushSectors s.supply.flushed).any (fun e => decide (e.1 = key ∧ e.2.gen = gen)) || s.supply.restored.contains key

/-- The conventional sector that a lost newer copy uncovers in a spill, and the counts of the key slots that sealed the two
(R323, R428). -/
def State.uncover (s : State) (key : Nat) (x : Sealed) : State :=
  let slot := keyTenant key
  let s := s.addConv slot x.keySlot x.keyGen (-1)
  let s : State := match Tab.find s.dies.spilled key with
    | some y => if y.gen < x.gen then { s with wr.swatches := Tab.set s.wr.swatches key y }
      else { s with wr.swatches := Tab.del s.wr.swatches key }
    | none => { s with wr.swatches := Tab.del s.wr.swatches key }
  let s := { s with wr.staging := Tab.del s.wr.staging key }
  match s.convCopy slot (keyLba key) with
  | none => s
  | some y => s.addConv slot y.keySlot y.keyGen 1

/-- The recovered committed pointer of a zone: the end of the longest run of durable sectors from its start (R428). -/
def State.recoveredCp (s : State) (slot z : Nat) (x : Zone) (lost : List Nat) : Nat :=
  let offs := (lost.filter (fun k => decide (keyTenant k = slot ∧ keyNsid k = 1 ∧ keyLba k / max 1 s.zsize = z))).map (fun k =>
    keyLba k % max 1 s.zsize)
  offs.foldl min x.cp

/-- A zone at recovery (R428): its pointers at the recovered committed pointer; an open one closed, or Empty with its bolt
released where nothing is left. -/
def State.recoverZone (s : State) (slot z : Nat) (lost : List Nat) : State :=
  let x := (s.tenantD slot).zone z
  let cp := s.recoveredCp slot z x lost
  let x := { x with rp := cp, cp := cp, dataEnd := min x.dataEnd cp }
  if x.st.active then
    if cp = 0 then
      let s : State := match x.bolt with
        | none => s
        | some b => (s.updBolt b (fun y => { y with pins := 0 })).releaseBolt b
      s.updZone slot z (fun y => { (default : Zone) with st := .zse, gen := if x.bolt.isSome then y.gen + 1 else y.gen })
    else s.updZone slot z (fun _ => { x with st := .zsc })
  else s.updZone slot z (fun _ => x)

/-- A zone whose bolt holds a program cut short, finished by the device, its sectors to be relocated (R429). -/
def State.finishCut (s : State) (b : Nat) : State :=
  match (s.bolt b).st, (s.bolt b).use with
  | .bound, .zone t z =>
    let s := s.updZone t z (fun y => { y with st := .zsf, dataEnd := y.cp, zfc := true })
    let s := s.updBolt b (fun y => { y with closed := true })
    (s.zoneChanged t z).queueItem .refreshUrgent b
  | _, _ => s

/-- Whether a swatch of a recovered state is still wanted: below its zone's committed pointer, or conventional. -/
def State.wantedKey (s : State) (key : Nat) : Bool :=
  if keyNsid key = 1 then
    let x := (s.tenantD (keyTenant key)).zone (keyLba key / max 1 s.zsize)
    x.bolt.isSome && decide (keyLba key % max 1 s.zsize < x.cp)
  else true

/-- A chunk program to be made again from its swatches. -/
def ProgOp.again (p : ProgOp) : ProgOp := { p with opId := 0, src := 256, item := 0 }

/-- The chunk programs that the loss of power left unmade: waiting, held for a parity unit, queued, or in flight. -/
def State.unmade (s : State) : List ProgOp :=
  (s.wr.ready ++ s.wr.accums.flatMap (·.held) ++ s.recl.items.flatMap (·.held) ++
    s.dies.table.flatMap (fun q => q.2.progs ++ q.2.prog.toList)).filter (fun p =>
      decide ((p.kind = .chunk ∨ p.kind = .pad) ∧ p.src = 256))

/-- Conventional sectors gathered again in write order: whole chunks that wait to be placed, and the partial chunk of the
rest (R131). -/
def State.regatherConv (s : State) (slot : Nat) : State :=
  let mine := sortOn (fun a b => decide (a.2 ≤ b.2))
    ((s.wr.swatches.filter (fun e => decide (keyTenant e.1 = slot ∧ keyNsid e.1 = 2))).map (fun e => (e.1, e.2.gen)))
  let runs := runsOf8 mine.length mine
  runs.foldl (fun s r =>
    if r.length = 8 then
      { s with wr.ready := s.wr.ready ++ [{ (default : ProgOp) with
          bolt := 2 ^ 18, kind := .chunk, slc := true, writer := slot, count := 8, keys := r, src := 256 }] }
    else if r.isEmpty then s
    else
      let (k, s) := s.bornSeq
      { s with wr.partials := s.wr.partials ++ [{ (default : Partial) with
          tenant := slot, nsid := 2, lbas := r.map (fun e => (keyLba e.1, e.2)), born := k }] }) s

/-- A partial chunk of a zone that keeps some of its sectors. -/
def State.partOf (s : State) (slot z chunk : Nat) (keys : List (Nat × Nat)) : State :=
  let (k, s) := s.bornSeq
  { s with wr.partials := s.wr.partials ++ [{ (default : Partial) with
      tenant := slot, nsid := 1, index := z * 65536 + chunk, lbas := keys.map (fun e => (keyLba e.1, e.2)), born := k }] }

/-- The chunks of zones put back: a whole chunk waits to be programmed again, one that lost its end is partial again (R427,
R428). -/
def State.putBackChunk (s : State) (p : ProgOp) : State :=
  let here := fun (e : Nat × Nat) => match Tab.find s.wr.swatches e.1 with | some x => decide (x.gen = e.2) | none => false
  match (s.bolt p.bolt).st, (s.bolt p.bolt).use with
  | .bound, .zone t z =>
    let keep := p.keys.filter here
    if keep.length = p.keys.length then { s with wr.ready := s.wr.ready ++ [p.again] }
    else if keep.isEmpty then s
    else s.partOf t z p.chunk keep
  | _, _ => s

/-- The accumulators of what stays bound, without the chunks that are to be made again (R126). -/
def State.keptAccums (s : State) (unmade : List ProgOp) (cut : List Nat) : List Accum :=
  ((s.wr.accums.filter (fun a => decide ((s.bolt a.bolt).st = .bound) && !cut.contains a.bolt &&
    (match (s.bolt a.bolt).use with | .zone _ _ => true | _ => false))).map (fun (a : Accum) =>
      { a with
        chunks := a.chunks.filter (fun c => !unmade.any (fun p => decide (p.bolt = a.bolt ∧ p.column = c ∧ p.row = a.row)))
        held := []
        queued := false }))

/-- The log bolts being filled are closed: the next chunk of their tenant takes another (R132, log 41). -/
def State.closeLogs (s : State) : State :=
  s.wr.logOpen.foldl (fun s e =>
    let (q, s) := s.nextSeq
    s.updBolt e.2.1 (fun x => { x with fillSeq := q })) { s with wr.logOpen := [] }

/-- The emergency bolts after a flush: the set that holds restored sectors stays until each has a durable copy elsewhere, any
other waits to be erased (R427). -/
def State.keepSet (s : State) : State :=
  s.presentGroups.foldl (fun s g => [4, 5].foldl (fun s i =>
    let b := boltNo g i
    let wrote := decide (i = 4 + s.supply.targetSet) && !s.supply.flushed.isEmpty
    if s.supply.restored.isEmpty then
      (if wrote || decide ((s.bolt b).st = .bound) then s.releaseBolt b else s)
    else if wrote then s.updBolt b (fun x => { x with st := .bound, use := .system })
    else s) s) s

/-- The committed data as the media, the spills and the flush hold it (R427, R428, R430). -/
def State.recoverData (s : State) : State :=
  let (cut, s) := s.cutPrograms
  let lostKeys := (s.wr.expo.filter (fun e => !s.keeps e.1 e.2)).map (·.1)
  let lostSectors := s.wr.swatches.filter (fun e => s.wr.expo.contains (e.1, e.2.gen) && !s.keeps e.1 e.2.gen)
  let flushed := ((flushSectors s.supply.flushed).filter (fun e => s.wr.expo.contains (e.1, e.2.gen))).map (·.1)
  let zones := s.host.tenants.flatMap (fun p => p.2.zones.map (fun z => (p.1, z.1)))
  let s := zones.foldl (fun s p => s.recoverZone p.1 p.2 lostKeys) s
  let s := (lostSectors.filter (fun e => decide (keyNsid e.1 = 2))).foldl (fun s e => s.uncover e.1 e.2) s
  let s := { s with wr.swatches := s.wr.swatches.filter (fun e =>
    s.wantedKey e.1 && !lostSectors.any (fun l => decide (l.1 = e.1 ∧ l.2.gen = e.2.gen))) }
  let s := cut.foldl State.finishCut s
  let unmade := s.unmade
  let parts := s.wr.partials.filter (fun p => decide (p.nsid = 1))
  let accums := s.keptAccums unmade cut
  let s := { s with wr.partials := [], wr.ready := [], wr.accums := accums }
  let s := (unmade.filter (fun p => decide (p.bolt < 2 ^ 18 ∧ (p.keys.all (fun e => decide (keyNsid e.1 = 1)))))).foldl State.putBackChunk s
  let s := parts.foldl (fun s p =>
    let keep := p.lbas.filter (fun l => match Tab.find s.wr.swatches (secKey p.tenant 1 l.1) with
      | some x => decide (x.gen = l.2)
      | none => false)
    if keep.isEmpty then s else { s with wr.partials := s.wr.partials ++ [{ p with lbas := keep, spilling := 0 }] }) s
  let s := s.host.tenants.foldl (fun s p => s.regatherConv p.1) s
  let s := s.closeLogs
  let held := fun (slot : Nat) => (s.wr.swatches.filter (fun e => decide (keyTenant e.1 = slot))).length
  let restored := ((s.supply.restored ++ flushed).eraseDups).filter (fun k =>
    (Tab.find s.wr.swatches k).isSome && (Tab.find s.dies.spilled k).isNone)
  ({ s with
    supply.restored := restored
    wr.hostUsed := s.wr.swatches.length
    host.tenants := s.host.tenants.map (fun (p : Nat × Tenant) => (p.1, { p.2 with swatchHeld := held p.1 })) } : State).keepSet

/-! Bolts, dies and engines (R166, R174, R175, R203, R214). -/

/-- A bolt after a loss of power: one that was erasing, or the target of a relocation, waits to be erased; the erases of those in
RELEASED or ERASING are urgent (R175). -/
def Bolt.cold (x : Bolt) : Bolt :=
  let back := decide (x.st = .erasing ∨ x.st = .target) || x.releasePending
  { x with
    st := if back then .released else x.st
    use := if back then .none else x.use
    pins := 0
    passed := []
    urgent := x.urgent || decide (x.st = .erasing ∨ x.st = .released)
    releasePending := false }

/-- Open erase intents resolved (R175): the bolt of each is erased again, urgently; a single unit is erased again before its
rebuild uses it. -/
def State.resolveIntents (s : State) : State :=
  let n := s.bolts.intents.length
  let bolts := (s.bolts.intents.filter (fun p => decide (p.2 / 2 ^ 32 = 1))).map (fun p => p.2 % 2 ^ 32)
  let s := { s with bolts.table := s.bolts.table.map (fun (p : Nat × Bolt) => (p.1, p.2.cold)) }
  let s := bolts.foldl (fun s b => s.updBolt b (fun x => { x with st := .released, use := .none, urgent := true })) s
  { s with bolts.intents := [], recl.intentsReplayed := n }

/-- A die after a loss of power: its durable records. -/
def Die.cold (x : Die) : Die :=
  { (default : Die) with
    failed := x.failed
    nextSpare := x.nextSpare
    retired := x.retired
    retiredErase := x.retiredErase
    spareEc := x.spareEc
    tailSlot := x.tailSlot }

/-- An item queued again from its start. -/
def Item.again (i : Item) : Item :=
  { i with running := false, target := 0, left := 0, snapshot := [], cur := [], got := [], held := [], row := 0, rows := 0 }

/-- Items that a loss of power leaves to be done: column rebuilds from their start (R190), degraded relocations (R187) and urgent
refreshes. -/
def State.coldItems (s : State) : List Item :=
  s.recl.items.filterMap (fun i => match i.kind with
    | .rebuild c _ r =>
      let own := s.columnSectors i.bolt c r
      if (s.bolt i.bolt).st = .bound then
        some { i.again with target := i.bolt, snapshot := own, rows := if own.isEmpty then 0 else r }
      else none
    | .refreshUrgent => some i.again
    | .degraded => some i.again
    | _ => none)

/-- Roles and bobbins from the engine health record: a role whose home bobbin is retired goes to the lowest-numbered
serviceable spare (R203). -/
def State.placeRoles (s : State) : State :=
  let s := { s with eng.roles := [], eng.bobbins := [] }
  let s := s.eng.retiredBobbins.foldl (fun s b => s.setBobbin b { (default : Bobbin) with st := .retired, fenced := true, cause := (s.bobbin b).cause }) s
  (List.range s.roles).foldl (fun s r =>
    if s.eng.retiredBobbins.contains r then
      match s.readySpare with
      | some b => (s.setBobbin b { s.bobbin b with st := .owns, role := some r, epoch := 1 }).setRole r ⟨b, 1, .active, 0⟩
      | none => s.setRole r ⟨r, 1, .none, 0⟩
    else s) s

/-- The pairs and the sets they serve (R214): the serviceable pairs take the sets in pair order. With none serviceable, every pair runs
its self-test, and none serves until one passes (R220; log 96). -/
def State.placePairs (s : State) : State :=
  let good := [0, 1, 2, 3].filter (fun p => !s.eng.retiredPairs.contains p)
  let sets := good.take 3
  { s with
    eng.setM := sets.getD 0 s.eng.setM
    eng.setA := sets.getD 1 (sets.getD 0 s.eng.setA)
    eng.setH := sets.getD 2 (sets.getD 0 s.eng.setH)
    eng.pairs := [0, 1, 2, 3].map (fun p => if good.isEmpty then 2 else if !good.contains p then 3 else if sets.contains p then 0 else 1)
    eng.dead := good.isEmpty }

/-! Tenants (R56, R288, R300, R314, R320, R345, R435, R497). -/

/-- A tenant after a loss of power: thawed, its volatile counters and queues gone, a pending queue-pair return made, its keys
reloaded from their records. -/
def Tenant.cold (t : Tenant) (storeKey : Nat) : Tenant :=
  let started := decide (t.formatting = 1) && !t.formatDrain
  { t.settleQpairs with
    frozen := false
    freezing := false
    freezeCmd := none
    convCmd := none
    freezeSeq := if t.frozen then t.freezeSeq + 1 else t.freezeSeq
    writeSeq := (t.writeSeq / 65536 + 1) * 65536 - 1
    keys := t.keys.map (fun (k : KeySlot) => { k with
      ram := (match k.record with | some (v, w) => if w = storeKey then some v else none | none => none), stale := false })
    c4 := List.replicate 18 0
    c8 := List.replicate 3 0
    smartBusyUs := 0
    activeFrom := none
    hostStep := t.hostStep
    nextLenS := match t.savedEpoch with | some e => e.1 | none => t.nextLenS
    nextAlign := match t.savedEpoch with | some e => e.2 | none => t.nextAlign
    pb := t.savedPb
    formatting := if started then 1 else if t.formatting = 1 then 0 else t.formatting
    formatDrain := false
    formatBolts := []
    formatMbx := none
    formatCmd := none }

/-- A tenant's Pattern Book record back at its last checkpoint, a loss counted where counts were made since (R497). -/
def Tenant.coldRecord (t : Tenant) (lost : Bool) : Tenant :=
  if lost then { t with pb := Tab.bump t.pb (1024 + 7) 1 } else t

/-! The whole device. -/

/-- Whether a bank holds an operation of a window move. -/
def HemBank.moves (b : HemBank) : Bool := (b.op.toList ++ b.prog.toList ++ b.queue).any (fun o => decide (o.what = .gap))

/-- The parts of the Hem store and what it keeps (R387); a window move that was cut short is due again (R385). -/
def State.coldHem (s : State) : State :=
  { s with
    hem.banks := []
    hem.moveDue := s.hem.moveDue || s.hem.banks.any (fun p => p.2.moves)
    hem.corrected := 0
    hem.degraded := false
    hem.running := 0
    hem.recovery := false
    hem.session := none
    hem.sessionHdr := Twin.blank
    hem.actStep := 0
    hem.actCmd := none
    hem.actNvme := none
    hem.actNew := []
    hem.actBobbins := []
    hem.actCause := 0
    hem.download := []
    hem.downloadHdr := Twin.blank
    hem.powerOnUs := s.hem.powerOnUs + (s.now - s.aon.vaonUs) }

/-- The supply: settings and lifetime counts keep, the rest returns (R440, R443). -/
def State.coldSupply (s : State) : Supply :=
  { State.reset.supply with
    prof := s.supply.savedProf.getD State.reset.supply.prof
    savedProf := s.supply.savedProf
    flushed := s.supply.flushed
    stripes := s.supply.stripes
    sealRec := s.supply.sealRec
    retireDue := s.supply.retireDue
    flushSealed := s.supply.flushSealed
    restored := s.supply.restored
    setErased := s.supply.setErased
    targetSet := s.supply.targetSet
    cMeasUf := s.supply.cMeasUf
    cTested := s.supply.cTested
    backupFailed := s.supply.backupFailed
    noSealWarn := s.supply.noSealWarn
    lastTestUs := s.supply.lastTestUs
    lastTest := s.supply.lastTest
    lastFlush := s.supply.lastFlush
    lastFlushUs := s.supply.lastFlushUs
    lastFlushKib := s.supply.lastFlushKib
    flushes := s.supply.flushes
    ewEvents := s.supply.ewEvents }

/-- Volatile state at its initial values, durable records kept (R526). Each placement handle's rotation starts again before
group 0 (DESIGN CHOICE, log 86). -/
def State.coldRecords (s : State) : State :=
  let r := State.reset
  let lost := s.pb.dirty
  let policy := s.pow.savedPolicy.getD (r.pow.capState, (r.pow.polFlags, (r.pow.maintH, r.pow.profile)))
  let port := fun (x : PortSt) => { r.port.a with perst := x.perst, refclk := x.refclk }
  let items := s.coldItems
  { s.coldHem with
    geo.media := false
    mbx := { r.mbx with storedPolicy := s.mbx.storedPolicy }
    bolts.fgErase := []
    bolts.bindWait := []
    bolts.intentWait := []
    bolts.dfltUrgent := s.geo.recorded
    bolts.rr := []
    bolts.logRr := []
    bolts.tailRr := []
    dies.table := s.dies.table.map (fun (p : Nat × Die) => (p.1, p.2.cold))
    dies.nextOp := 1
    dies.nextRead := 1
    dies.tokenRr := []
    wr := { r.wr with
      swatches := s.wr.swatches
      hostUsed := s.wr.hostUsed
      partials := s.wr.partials
      ready := s.wr.ready
      accums := s.wr.accums
      convMap := s.wr.convMap
      logOpen := s.wr.logOpen }
    rd := r.rd
    recl := { r.recl with
      items := items
      nextItem := s.recl.nextItem
      intentsReplayed := s.recl.intentsReplayed
      retiredErase := s.recl.retiredErase
      retiredProgram := s.recl.retiredProgram }
    eng := { r.eng with
      retiredBobbins := s.eng.retiredBobbins
      retiredPairs := s.eng.retiredPairs
      trapTimes := s.eng.trapTimes }
    gauge := r.gauge
    chan := r.chan
    host := { r.host with
      busyUs := s.host.busyUs
      tenants := s.host.tenants.map (fun (p : Nat × Tenant) =>
        (p.1, (p.2.cold s.hem.keyStoreKey).coldRecord (decide (p.2.pb ≠ p.2.savedPb))))
      gens := s.host.gens.filter (fun p => decide (p.1 / 65536 ≠ 6))
      fns := (s.host.fns.filter (fun p => decide (p.2.errCount ≠ 0))).map (fun (p : Nat × Fn) =>
        (p.1, { (default : Fn) with errCount := p.2.errCount })) }
    mem := r.mem
    supply := s.coldSupply
    san.s := if s.san.s.running && s.san.s.drain then
        { s.san.s with running := false, drain := false, cmd := none, nv := none, passed := [] }
      else { s.san.s with passed := [], cmd := none, nv := none }
    pow := { r.pow with
      savedLevels := s.pow.savedLevels
      levels := s.pow.savedLevels.getD r.pow.levels
      savedPolicy := s.pow.savedPolicy
      capState := policy.1
      polFlags := policy.2.1
      maintH := policy.2.2.1
      profile := policy.2.2.2 }
    clk := r.clk
    therm := { r.therm with
      cfg := s.therm.saved.getD r.therm.cfg
      saved := s.therm.saved
      warnMin := s.therm.warnMin
      critMin := s.therm.critMin
      latch := s.therm.latch
      pastShutdown := s.therm.pastShutdown }
    pb := { r.pb with
      hist := s.pb.savedHist
      extremes := s.pb.savedExtremes
      counters := if lost then Tab.bump s.pb.savedCounters 11 1 else s.pb.savedCounters
      savedHist := s.pb.savedHist
      savedExtremes := s.pb.savedExtremes
      savedCounters := if lost then Tab.bump s.pb.savedCounters 11 1 else s.pb.savedCounters
      savedUs := s.pb.savedUs
      copy := s.pb.copy }
    yard := { r.yard with
      lenS := s.yard.savedLenS
      align := s.yard.savedAlign
      savedLenS := s.yard.savedLenS
      savedAlign := s.yard.savedAlign
      offset := s.yard.offset }
    selv := { r.selv with hem := s.selv.hem, threshold := s.selv.threshold }
    dbg := { r.dbg with nonces := s.dbg.nonces }
    port := ⟨port s.port.a, port s.port.b⟩
    aon := r.aon }

/-- A loss of power or a device reset: programs in flight and an unsealed flush resolved, the committed data put where boot
goes on from it, and everything volatile returned. A second loss before the next start finds nothing to change. -/
def State.crash (s : State) : State :=
  let cutFlush := s.supply.flushing
  let s := s.abandonFlush
  let s : State := if cutFlush then { s with supply.noSealWarn := true } else s
  let s := if s.geo.media then s.recoverData.resolveIntents else s
  s.coldRecords.placeRoles.placePairs

end Sys2Proof.Machine
end

