-- ==== Sys2Proof/Machine/Boot.lean ====
section
/-! DEFINITION. Starts of the device (R36, R70-R72, R264, R349-R351, R357, R390-R395, R409, R419, R426-R430, R468, R469, R479,
R486, R522, R546, R552, R560). -/

namespace Sys2Proof.Machine

/-! Boot twins (R390-R395). -/

/-- The verdict on a twin at boot, which knows of no staging session (R390, R394). -/
def State.bootVerdict (s : State) (env : BootEnv) (n : Nat) : Nat :=
  if n = 1 ∨ n = 2 then s.verdictOf (s.twin n) true (if n = 1 then env.verdictA else env.verdictB) else 1

/-- The twin that the newest select word names, with the words that the boot ROM writes first, and LAST_RESULT where it is a
fallback (R394). -/
def State.selectTwin (s : State) : Nat × State :=
  match s.hem.select with
  | none => (1, s.writeSelect 1 3 0 true)
  | some w =>
    if w.confirmed then (w.twin, s)
    else if w.mode = 2 then (w.twin, s.writeSelect w.twin 5 (3 - w.twin) false)
    else (w.fallback, { s.writeSelect w.fallback 3 0 true with hem.lastResult := if w.mode = 5 then 4 else 3 })

/-- A twin as its verdict at boot leaves it: running, or verified within 1 s of READY (R392). -/
def Twin.booted (x : Twin) (running : Bool) (verdict : Nat) (trial : Bool) : Twin :=
  { x with
    verdict := verdict
    st := if running then (if trial then 5 else 4) else if verdict = 0 then 3 else if verdict = 1 then 0 else 2 }

/-- The boot ROM's selection and verification (R394, R395). -/
def State.bootRom (s : State) (env : BootEnv) : State :=
  let (n, s) := s.selectTwin
  let other := if n = 1 then 2 else 1
  let (n, s) : Nat × State :=
    if s.bootVerdict env n = 0 then (n, s)
    else if s.bootVerdict env other = 0 then (other, { s.writeSelect other 3 0 true with hem.lastResult := 3 })
    else (0, { s with hem.recovery := true, hem.lastResult := 5 })
  let trial : Bool := match s.hem.select with | some w => !w.confirmed | none => false
  { s with
    hem.running := n
    hem.twinA := s.hem.twinA.booted (decide (n = 1)) (s.bootVerdict env 1) trial
    hem.twinB := s.hem.twinB.booted (decide (n = 2)) (s.bootVerdict env 2) trial }

/-! DRAM (R349-R351, R357, R360, R375). -/

/-- The populations that R348 permits, in GiB and ranks. -/
def dramPermitted (gib ranks : Nat) : Bool := [(4, 1), (8, 1), (16, 1), (16, 2), (32, 2)].contains (gib, ranks)

/-- The rate at which a channel passes every step: the highest of the three, 3 where there is none (R350). -/
def bootRate (env : BootEnv) (ch : Nat) : Nat :=
  ([0, 1, 2].find? (fun r => !env.trainBad.any (fun x => decide (x.ch = ch ∧ x.rate = r)))).getD 3

/-- Dies that a DRAM population supports: 1 MiB of mapping tables each (R360). -/
def dramDies : Nat → Nat
  | 4 => 256
  | 8 => 512
  | _ => 1024

/-- One violation of DRAM initialisation recorded, with its channel, die and step, or another detail (R351). -/
def State.dramNote (s : State) (code ch die detail : Nat) : State :=
  s.selvedge { source := 3, code := code, loc := ch * 256 + die, detail := detail, answer := 5 }

/-- DRAM initialised: population, mode registers, training and address map (R349-R351, R357). -/
def State.trainDram (s : State) (env : BootEnv) : State :=
  let rate := fun (c : Nat) => bootRate env c
  let chs := [0, 1, 2, 3]
  let worst := (chs.map rate).foldl max 0
  let ok := chs.filter (fun c => decide (rate c < 3))
  let s : State := if env.straps.memmapSel = 3#2 then s.selvedge { source := 4, code := 0x4B, detail := 3, answer := 5 } else s
  let s := { s with
    mem.mapOrder := if env.straps.memmapSel = 3#2 then 2#2 else env.straps.memmapSel
    mem.lock := true
    mem.chOk := BitVec.ofNat 4 (maskOf ok) }
  if !dramPermitted s.board.dramGib s.board.dramRanks then { s.dramNote 0x35 0 0 s.board.dramGib with aon.noDram := true }
  else match env.mrBad with
    | some (c, d) => { s.dramNote 0x31 c d 0 with aon.noDram := true }
    | none =>
      let s := (env.trainBad.filter (·.narrow)).foldl (fun s x => s.dramNote 0x34 x.ch x.die x.step) s
      let last := fun (c r : Nat) => (env.trainBad.find? (fun x => decide (x.ch = c ∧ x.rate = r))).getD default
      let s := (chs.filter (fun c => decide (rate c = 3))).foldl (fun s c => s.dramNote 0x32 c (last c 2).die (last c 2).step) s
      if worst = 3 then { s with aon.noDram := true }
      else
        let s := (chs.filter (fun c => decide (0 < rate c))).foldl (fun s c =>
          s.dramNote 0x33 c (last c (rate c - 1)).die (last c (rate c - 1)).step) s
        let s := { s with mem.up := true, mem.rate := worst, aon.rateReduced := decide (0 < worst) }
        { s with mem.classLow := [s.hostClass, s.reclClass, s.sysClass] }

/-! Die discovery and base tenants (R70-R72, R264, R546). -/

/-- Whether VIO_FL lies in the range of R549 for the level that FLIO_SEL selects (R546). -/
def vioOk (env : BootEnv) : Bool :=
  if env.straps.flioSel then decide (570 ≤ env.vioFlMv ∧ env.vioFlMv ≤ 630)
  else decide (1140 ≤ env.vioFlMv ∧ env.vioFlMv ≤ 1260)

/-- A base tenant as first initialisation creates it (R264, R293). -/
def State.baseTenant (s : State) (port : Port) (bound : Bool) : Tenant :=
  let t : Tenant := { Tenant.nothing with
    fn := if bound then some ⟨port, 0⟩ else none
    threshold := s.selv.threshold
    swatchQuota := 64
    activeZones := 1
    contract := ⟨0, 0, 0, 0, 10, 1⟩
    blocks := [⟨mkHandle 5 (portNo port) (s.gen 5 (portNo port)), 0, 1, 255, false, 0⟩]
    placements := [⟨0, [], 0⟩]
    zoneGen := 1
    keys := [⟨.empty, none, none, false, 0⟩, ⟨.empty, none, none, false, 0⟩]
    writeSeq := 0
    regionGen := 1
    freezeSeq := 0
    c4 := List.replicate 18 0
    c8 := List.replicate 3 0
    smart := List.replicate 7 0
    fdp := [0, 0, 0] }
  s.firstEpoch (t.fullBuckets s.now)

/-- The base tenants, where first initialisation finds none. -/
def State.makeBase (s : State) : State :=
  let add := fun (s : State) (p : Port) =>
    if (s.tenant (portNo p)).isSome then s
    else s.setTenant (portNo p) (s.baseTenant p (!(s.host.joined && decide (p = .b))))
  add (add s .a) .b

/-- First initialisation at a boot with no geometry record (R72, R560): every bolt waits to be erased. -/
def State.firstInit (s : State) : State :=
  match s.initGeo with
  | none => s.initFailed
  | some s => ({ s with bolts.dflt := .released } : State).makeBase

/-- Discovery checked against the geometry record (R72): a die that does not answer, or answers otherwise, fails. -/
def State.checkRecord (s : State) : State :=
  let s := { s with geo.media := true }
  let bad := (s.presentGroups.flatMap s.groupDies).filter (fun d => decide (s.dieAnswer d ≠ s.geo.dieType))
  bad.foldl (fun s d =>
    (s.selvedge { source := 2, code := 0x24, loc := dieLoc d, detail := s.groupOf d, answer := 4 }).failDie d) s

/-- Die discovery (R70-R72, R349, R546): with a record, dies at or beyond its n are ignored. -/
def State.discover (s : State) (env : BootEnv) : State :=
  let s := { s with geo.found := env.dies }
  let n := if s.geo.recorded then s.geo.n else s.positionsOf
  if s.aon.noDram then s
  else if !vioOk env then s.withoutMedia
  else if dramDies s.board.dramGib < s.channels * n then
    (s.selvedge { source := 3, code := 0x35, detail := s.channels * n, answer := 5 }).withoutMedia
  else if s.geo.recorded then s.checkRecord
  else s.firstInit

/-! Manager, diodes and records (R36, R38, R479, R486, R503). -/

/-- The manager as the strap or the policy appoints it (R36, R38); recovery mode goes by the strap alone (R395). -/
def State.appoint (s : State) (env : BootEnv) : State :=
  let joined := env.straps.portJoin
  let word := s.mbx.storedPolicy.getD (.a, true)
  let pick : Port × Bool := match env.straps.mgrSel.toNat with
    | 1 => (.b, false)
    | 2 => if s.hem.recovery then (.a, false) else word
    | _ => (.a, false)
  let p : Port := if joined then .a else pick.1
  let s : State := if env.straps.mgrSel = 3#2 then s.selvedge { source := 4, code := 0x4B, detail := 3, answer := 5 } else s
  { s with
    mbx.manager := p
    mbx.preferred := p
    mbx.failover := pick.2 && !joined }

/-- Each remote input tested once (R479). -/
def State.testDiodes (s : State) (env : BootEnv) : State :=
  (List.range 16).foldl (fun s i =>
    let found := env.diodes.getLsbD i && !env.diodeFaults.getLsbD i
    let enabled := match s.therm.cfg.enable with | some m => m.getLsbD i | none => found
    let bad := enabled && !found
    let x : Remote := { (default : Remote) with enabled := enabled, broken := bad, throttle := bad, level := bad.toNat }
    if x.broken then
      ({ s with therm.remotes := Tab.set s.therm.remotes i x } : State).selvedge { source := 4, code := 0x46, loc := 0, detail := i }
        |>.pbCount 8 1
    else if enabled then { s with therm.remotes := Tab.set s.therm.remotes i x }
    else s) s

/-- What the previous run left to record: an unsealed flush (R430), a thermal shutdown (R486). -/
def State.bootRecords (s : State) : State :=
  let s : State := if !s.supply.flushed.isEmpty && !s.supply.flushSealed then
      s.selvedge { source := 4, code := 0x4E, answer := 5 } else s
  let s : State := if s.therm.pastShutdown then
      ({ s with therm.pastShutdown := false } : State).pbCount 7 1 |>.selvedge { source := 4, code := 0x4F, answer := 5 }
    else s
  { s with supply.flushed := [], supply.stripes := [], supply.sealRec := none, supply.flushSealed := false }

/-- The open epoch of every tenant closed with the counts last saved, and a new one opened (R503). -/
def State.bootEpochs (s : State) : State :=
  s.host.tenants.foldl (fun s p =>
    s.closeWith p.1 (if p.2.meters = p.2.savedMeters then 2 else 6) p.2.savedMeters) s

/-- A start of the device, up to the release of its core reset (R426, R546, R552, log 5). -/
def State.start (s : State) (env : BootEnv) (cause : Nat) : State :=
  let s := s.crash
  let us := s.pb.savedUs + 900000000
  let port := fun (x : PortSt) => { x with deassertUs := if x.perst then none else some us }
  let s := { s with
    aon.us := us
    aon.vaonUs := us
    aon.straps := env.straps
    aon.testHold := env.straps.testEn
    aon.lastReset := cause
    aon.coreReset := true
    host.joined := env.straps.portJoin
    port := ⟨port s.port.a, port s.port.b⟩
    pow.psUs := us
    pow.idleUs := us
    hem.bootCount := s.hem.bootCount + 1
    hem.powerCycles := s.hem.powerCycles + (if cause = 1 then 1 else 0) }
  if env.straps.testEn then s
  else
    let s := (s.bootRom env).trainDram env
    let s := (s.discover env).appoint env
    let s := s.testDiodes env
    let s := (s.bootEpochs).bootRecords
    let key : Option Nat := match s.hem.dkx with | some k => some k | none => some s.fresh
    let s := { s with hem.dkx := key, fresh := s.fresh + (if s.hem.dkx.isNone then 1 else 0) }
    (s.restoreFeatures.fillBuckets).updSpare

/-- What waits for Claind to run: chunks to be programmed again, open half-stripes, interrupted rebuilds, the retirements that a flush
recorded (R416, R426), a sanitise or formats to be resumed (R126, R427, R435). -/
def State.resume (s : State) : State :=
  if !s.geo.media then s
  else
    let s := s.drainReady
    let s := (s.wr.accums.filter (fun a => !a.chunks.isEmpty && !a.queued)).foldl State.queueParityRebuild s
    let s := s.recl.items.foldl (fun s i => match i.kind with
      | .rebuild c u _ => s.unitIntent (s.dieOf (boltGroup i.bolt) c) u true
      | _ => s) s
    let due := s.supply.retireDue
    let s := due.foldl (fun s p => s.rebuildColumn p.1 p.2.1 0 p.2.2 [] true) { s with supply.retireDue := [] }
    let s := s.presentGroups.foldl State.updFgErase s
    let s := s.tidy
    let s := if s.blockErasing then s.wipe else s
    s.host.tenants.foldl (fun s p => if p.2.formatting = 1 then s.formatRun p.1 else s) s

/-- The core reset released (R552, R562): the mailbox is ready, a trial boot is confirmed, and the writes of CC.EN held until
now take effect. -/
def State.coreUp (s : State) : State :=
  let s := { s with aon.coreReset := false, aon.booted := true }
  let s : State := match s.hem.select with
    | some w => if w.confirmed ∨ s.hem.recovery then s
      else { s.confirmSelect.setTwin w.twin { s.twin w.twin with st := 4 } with hem.lastResult := 1 }
    | none => s
  let p := s.mbx.manager
  let s := s.setMbxPort p (s.mbxFresh p true none)
  let s := { s with mbx.downSince := if (s.portSt p).linkUp then none else some s.now }
  let s := s.resume.assignShares
  s.host.fns.foldl (fun s q => if q.2.enHeld then s.enable (fnOfKey q.1) else s) s

/-! Rows. -/

/-- POWER_ON (R522): VAON rises from below its reset level; the shutdown latch is cleared. -/
def execPowerOn (b : BootEnv) (s : State) : Host.Outcome State Fault Refusal :=
  .next (({ s with therm.latch := false } : State).start b 1)

/-- SUPPLY_RESET (R552): VAON or V1P8 below its reset level for 1 µs or longer resets the whole device. -/
def execSupplyReset (us : Nat) (s : State) : Host.Outcome State Fault Refusal :=
  if us = 0 then .next s else .next s.crash

/-- The crystal lost, or not qualified in time: RC fallback (R469). -/
def State.rcFallback (s : State) : State :=
  ({ s with clk.src := .rcFallback, clk.fault := true, clk.bad := 0 } : State).selvedge { source := 4, code := 0x4D, answer := 5 }

/-- CRYSTAL_QUALIFY_WINDOW (R468): one window's count of crystal cycles. -/
def execCrystalQualifyWindow (count : Nat) (s : State) : Host.Outcome State Fault Refusal :=
  let good := decide (994 ≤ count ∧ count ≤ 1054)
  match s.clk.src with
  | .rcQualify =>
    if !good then .next { s with clk.run := 0 }
    else if s.clk.run + 1 < 8 then .next { s with clk.run := s.clk.run + 1 }
    else .next { s with clk.run := 8, clk.bad := 0, clk.src := .crystal }
  | .crystal =>
    if good then .next { s with clk.bad := 0 }
    else if s.clk.bad = 0 then .next { s with clk.bad := 1 }
    else .next s.rcFallback
  | .rcFallback => .next s

/-- RC_FALLBACK (R469): the crystal has not qualified within 50 ms of VAON being good. -/
def execRcFallback (s : State) : Host.Outcome State Fault Refusal :=
  match s.clk.src with
  | .rcQualify => .next s.rcFallback
  | _ => .next s

/-- CORE_RESET_RELEASE (R552): the reference is chosen, and VCORE and VSRAM are in range; TEST_EN sampled at 1 holds the core
in reset (R546). -/
def execCoreResetRelease (vcore vsram : Bool) (s : State) : Host.Outcome State Fault Refusal :=
  if s.aon.coreReset ∧ s.aon.lastReset ≠ 0 ∧ !s.aon.testHold ∧ s.clk.src ≠ .rcQualify ∧ vcore ∧ vsram then .next s.coreUp
  else .next s

/-- BROWN_OUT_RECOVERY (R409, R486): the input has been back for 100 ms, any flush has its seal and the bank is not below
BANK_MIN_MV; the shutdown latch forbids it. -/
def execBrownOutRecovery (b : BootEnv) (t : Nat) (s : State) : Host.Outcome State Fault Refusal :=
  let s := s.atTime t
  if s.supply.ewLatched ∧ !s.therm.latch ∧ !s.supply.flushing ∧ s.supply.prof.minMv ≤ s.supply.bankMv ∧
      s.supply.prof.ewMv + 200 ≤ s.supply.vinMv then
    let vin := s.supply.vinMv
    let bank := s.supply.bankMv
    .next { s.start b 2 with supply.vinMv := vin, supply.bankMv := bank }
  else .next s

/-- BANK_BELOW_MIN (R419): the bank below BANK_MIN_MV before the seal; with the input back the flush goes on, otherwise the
device is reset and the flush has no seal. The decision is made once. -/
def execBankBelowMin (t bankMv vinMv : Nat) (s : State) : Host.Outcome State Fault Refusal :=
  let s := s.atTime t
  let s := { s with supply.bankMv := bankMv, supply.vinMv := vinMv }
  if s.supply.flushing ∧ !s.supply.onInput ∧ bankMv < s.supply.prof.minMv then
    if s.supply.prof.ewMv + 200 ≤ vinMv then .next { s with supply.onInput := true }
    else .next { s.crash with supply.ewLatched := true, supply.vinMv := vinMv, supply.bankMv := bankMv }
  else .next s

end Sys2Proof.Machine
end

