-- ==== Sys2Proof/Machine/Intake.lean ====
section
/-! DEFINITION. Intake: doorbells, fetching, the arbiter (R231-R256), interrupts (R269-R271), and the host ports' links,
configuration requests and errors (R33-R37, R250, R263-R265, R464, R554, R555). -/

namespace Sys2Proof.Machine

/-! Doorbells (R233-R235, R241, R250). -/

/-- A doorbell violation that raises an Asynchronous Event of type Error: recorded, and logged with CID 0xFFFF and a status
that the spec leaves open where the event is not masked (R250, R563, log 11). -/
def State.doorbellError (s : State) (f : FnId) (qid code info detail : Nat) : State :=
  let masked := (s.fn f).masked.contains (aenKey 0 info)
  let s := s.hostViolation f code qid detail 2
  if masked then s
  else
    let (v, s) := s.draw
    (s.errorLog f qid 0xFFFF (v % 2 ^ 15) 0#32 0).asyncEvent f 0 info 1

/-- A doorbell of a function, whose write is also a wake (R464): one of a function with no tenant is recorded only (R265), one
of another width than 32 bits ignored (R233). -/
def State.doorbell (s : State) (f : FnId) (qid width value : Nat) (act : Nat → State → State) : State :=
  if !s.fnExists f then s
  else match s.tenantOf f with
    | none => s.hostNote f 0x0C qid value 0
    | some slot =>
      let s := s.wakeUp 1 slot
      if width ≠ 32 then s.hostViolation f 0x03 qid value 0 else act slot s

/-- A submission tail landed (R234, R235, R237). -/
def State.landTail (s : State) (f : FnId) (qid v : Nat) : State :=
  match (s.fn f).sq qid with
  | none => s.doorbellError f qid 0x01 0 v
  | some q =>
    if q.st = .deleting then s.doorbellError f qid 0x01 0 v
    else if q.size ≤ v then s.doorbellError f qid 0x02 1 v
    else if v = q.tail then s
    else
      let n := (v + q.size - q.tail) % q.size
      let first := if q.fetchPtr = q.tail then s.host.captures else q.capture
      let s := { s with host.captures := s.host.captures + 1 }
      (s.updFn f (fun x => x.updSq qid (fun (q : Sq) =>
        { q with tail := v, landings := q.landings ++ [(n, s.now)], capture := first }))).fetchAllFns

/-- SQ_TAIL_DOORBELL (R234). -/
def execSqTailDoorbell (f : FnId) (qid width : Nat) (value : BitVec 32) (t : Nat) (s : State) :
    Host.Outcome State Fault Refusal :=
  settled (.next ((s.atTime t).doorbell f qid width value.toNat (fun _ s => s.landTail f qid value.toNat)))

/-- The completions that wait for a queue written while it has room (R241). -/
def State.drainCq : Nat → State → FnId → Nat → State
  | 0, s, _, _ => s
  | n + 1, s, f, qid =>
    match (s.fn f).cq qid with
    | none => s
    | some q =>
      match q.waiting, q.hasRoom with
      | e :: r, true =>
        State.drainCq n ((s.updFn f (fun x => x.updCq qid (fun (q : Cq) => { q with waiting := r }))).writeCqe f qid e) f qid
      | _, _ => s

/-- A completion head landed: it frees entries, or is out of range (R241, R250). -/
def State.landHead (s : State) (f : FnId) (qid v : Nat) : State :=
  match (s.fn f).cq qid with
  | none => s.doorbellError f qid 0x01 0 v
  | some q =>
    if q.size ≤ v ∨ q.used < (v + q.size - q.head) % q.size then s.doorbellError f qid 0x02 1 v
    else
      let s := s.updFn f (fun x => x.updCq qid (fun (q : Cq) => { q with head := v }))
      let s := (s.drainCq q.waiting.length f qid).settleDeletes f
      if qid = 0 then s.tryFetch f 0 else s

/-- CQ_HEAD_DOORBELL (R241). -/
def execCqHeadDoorbell (f : FnId) (qid width : Nat) (value : BitVec 32) (s : State) : Host.Outcome State Fault Refusal :=
  settled (.next (s.doorbell f qid width value.toNat (fun _ s => s.landHead f qid value.toNat)))

/-! Arrival of entries (R236, R245-R247). -/

/-- The landing of the next entry of a queue, and the landings that remain. -/
def nextLanding : List (Nat × Nat) → Nat → Nat × List (Nat × Nat)
  | [], now => (now, [])
  | (n, us) :: r, now => if n = 0 then nextLanding r now else (us, if n = 1 then r else (n - 1, us) :: r)

/-- One fetched entry reaches its queue: into a prefetch slot, or to its completion in a queue whose entries are not to be
granted (R254, R281, R432). Its fetch was issued at `asked`: the time since then is the host's (R247). -/
def State.receive (s : State) (f : FnId) (qid asked : Nat) (e : Sqe) : State :=
  match (s.fn f).sq qid with
  | none => s
  | some q =>
    let idx := q.head + q.pre.length
    let (us, rest) := nextLanding q.landings s.now
    let quarantined : Bool := match s.tenantOf f with | none => false | some k => (s.tenantD k).quarantined
    let answer : Option Nat :=
      if s.san.s.running ∧ s.san.s.drain then some nvSanitizing
      else if q.st = .deleting then some nvSqDeleted
      else if q.st = .held ∧ qid ≠ 0 ∧ quarantined then some nvQuarantined
      else none
    let slot : Fetched := ⟨e, idx % max 1 q.size, us, false, 0, s.now - asked, s.napSince asked⟩
    let s := s.updFn f (fun x => x.updSq qid (fun (q : Sq) =>
      { q with landings := rest, fetching := q.fetching - 1, pre := if answer.isSome then q.pre else q.pre ++ [slot] }))
    match answer with
    | none => s
    | some st => s.completeFetched f qid e.cmd st

/-- SQE_ARRIVAL (R236): the entries of the oldest fetch of a queue arrive, and its tag is free again. -/
def execSqeArrival (f : FnId) (qid : Nat) (entries : List Sqe) (s : State) : Host.Outcome State Fault Refusal :=
  match (s.fn f).sq qid with
  | none => .next s
  | some q =>
    let fits := decide (entries ≠ [] ∧ entries.length + (q.tags - 1) ≤ q.fetching ∧
      (q.tags = 1 → entries.length = q.fetching)) &&
      entries.all (fun e => decide (e.cmd.fn = f ∧ e.cmd.sqid = qid))
    let asked := q.asked.headD s.now
    if q.tags = 0 ∨ (q.stale = 0 ∧ !fits) then .next s
    else
      let s := s.setTags f.port (s.fetchTags f.port - 1)
      let s := s.updFn f (fun x => x.updSq qid (fun (q : Sq) => { q with tags := q.tags - 1, asked := q.asked.drop 1, stale := q.stale - 1 }))
      let s := if q.stale = 0 then entries.foldl (fun s e => s.receive f qid asked e) s else s
      settled (.next (s.settleDeletes f).fetchAllFns)

/-! What the arbiter checks of a command (R250, R256). -/

/-- Admin opcodes that every function supports, or the manager alone (R256). -/
def adminSupported (manager : Bool) (op : BitVec 8) : Bool :=
  [0x00#8, 0x01#8, 0x02#8, 0x04#8, 0x05#8, 0x06#8, 0x08#8, 0x09#8, 0x0A#8, 0x0C#8, 0x80#8].contains op ||
    (manager && [0x10#8, 0x11#8, 0x84#8].contains op)

/-- I/O opcodes, the zone commands on NSID 1 only (R87, R256). -/
def ioSupported (op : BitVec 8) (nsid : BitVec 32) : Bool :=
  [0x00#8, 0x01#8, 0x02#8, 0x08#8].contains op || ([0x79#8, 0x7A#8, 0x7D#8].contains op && decide (nsid ≠ 2#32))

/-- Whether an opcode moves data of a number of blocks. -/
def hasNlb (op : BitVec 8) : Bool := [0x01#8, 0x02#8, 0x08#8, 0x7D#8].contains op

end Sys2Proof.Machine

namespace Sys2Proof

open Machine

/-- NLB of an entry, as a count of sectors. -/
def Sqe.blocks (e : Sqe) : Nat := e.dw12.toNat % 65536 + 1

/-- The kind of a command, as its bound and its histograms tell it (R247, R492). -/
def Sqe.kind (e : Sqe) : Nat :=
  if e.cmd.sqid = 0 then 4
  else if e.opcode = 0x02#8 then (if e.dw12.toNat % 65536 < 8 then 0 else 1)
  else if [0x01#8, 0x08#8, 0x7D#8].contains e.opcode then 2
  else 3

/-- The length in bytes that an entry gives for its transfer, other than by NLB. -/
def Sqe.xfer (e : Sqe) : Nat :=
  if e.cmd.sqid = 0 then
    match e.opcode.toNat with
    | 0x02 => 4 * (e.dw10.toNat / 65536 + e.dw11.toNat % 65536 * 65536 + 1)
    | 0x11 => 4 * (e.dw10.toNat + 1)
    | _ => 0
  else if e.opcode = 0x7A#8 then 4 * (e.dw12.toNat + 1)
  else 0

end Sys2Proof

namespace Sys2Proof.Machine

/-- Whether an NSID names an active namespace of a tenant (R94). -/
def State.nsActive (s : State) (slot : Nat) (nsid : BitVec 32) : Bool :=
  let t := s.tenantD slot
  decide ((nsid = 1#32 ∨ nsid = 2#32) ∧ s.nsze t nsid.toNat ≠ 0)

/-- Whether a command's NSID is refused at the arbiter (R105, R250, R438). -/
def State.nsBad (s : State) (slot : Nat) (e : Sqe) : Bool :=
  let all := decide (e.cmd.nsid = 0xFFFFFFFF#32)
  let ok := s.nsActive slot e.cmd.nsid
  if e.cmd.sqid = 0 then decide (e.opcode = 0x80#8) && !all && !ok
  else if e.opcode = 0x00#8 then !all && !ok
  else !ok

/-- Whether a command is outstanding in its queue: granted, awaiting an event, or with its completion waiting (R250). -/
def Fn.outstanding (x : Fn) (sqid cid : Nat) : Bool :=
  (x.outOf sqid cid).isSome || (decide (sqid = 0) && x.aers.contains cid) ||
    x.cqs.any (fun q => q.waiting.any (fun e => decide (e.sqid = sqid ∧ e.cid = cid)))

/-- The rows of R250 that are checked at the grant, in its order: whether they are violated, the status, and the Selvedge code
of a counted one. -/
def State.grantChecks (s : State) (f : FnId) (slot : Nat) (e : Sqe) : List (Bool × (Nat × Option Nat)) :=
  let admin := decide (e.cmd.sqid = 0)
  let known := if admin then adminSupported (s.isManager f) e.opcode else ioSupported e.opcode e.cmd.nsid
  let nlb := !admin && hasNlb e.opcode
  [(!known, (nvBadOpcode, none)),
    (decide (e.cmd.fuse ≠ 0#2), (nvBadField, some 0x04)),
    (decide (e.cmd.psdt = 3#2) || (admin && decide (e.cmd.psdt ≠ 0#2)), (nvBadField, some 0x05)),
    (known && e.cmd.rsvd, (nvBadField, none)),
    (known && s.nsBad slot e, (nvBadNs, none)),
    (known && ((nlb && decide (64 < e.blocks)) || decide (262144 < e.xfer)), (nvBadField, none)),
    ((s.fn f).outstanding e.cmd.sqid e.cmd.cid, (nvCidConflict, some 0x06))]

/-- Admin commands that go on while a tenant is quarantined (R281). -/
def quarantineAllows (op : BitVec 8) : Bool := [0x06#8, 0x02#8, 0x0A#8, 0x0C#8, 0x08#8, 0x00#8, 0x04#8].contains op

/-- Admin commands that go on while a sanitise runs, or after one has failed (R432, as NVMe 2.0 has it: log 35). -/
def sanitiseAllows (failed : Bool) (op : BitVec 8) : Bool :=
  [0x00#8, 0x01#8, 0x02#8, 0x04#8, 0x05#8, 0x06#8, 0x08#8, 0x09#8, 0x0A#8, 0x0C#8].contains op || (failed && decide (op = 0x84#8))

/-- Whether an I/O command acts on a namespace that is being formatted (R438). -/
def Tenant.formats (t : Tenant) (nsid : BitVec 32) : Bool :=
  decide (t.formatting = 1) && (decide (nsid = 0xFFFFFFFF#32) || nsHas t.formatNs nsid.toNat)

/-- Whether an entry is a Zone Management Send of an action with no effect here: Offline, Set Zone Descriptor Extension or a
reserved one, which completes with Invalid Field in Command (R105). -/
def zoneSendBad (e : Sqe) : Bool := decide (e.opcode = 0x79#8) && !([1, 2, 3, 4].contains (e.dw13.toNat % 256))

/-- What the state of the device or the tenant answers a command that passes its own checks (R105, R220, R281, R432, R438,
R484). -/
def State.grantState (s : State) (slot : Nat) (e : Sqe) : Option Nat :=
  let t := s.tenantD slot
  if e.cmd.sqid = 0 then
    if s.eng.dead then some nvInternal
    else if t.quarantined ∧ !quarantineAllows e.opcode then some nvQuarantined
    else if s.san.s.running ∧ !sanitiseAllows false e.opcode then some nvSanitizing
    else if s.san.s.failMode ∧ !sanitiseAllows true e.opcode then some nvSanitizeFailed
    else none
  else if s.san.s.running then some nvSanitizing
  else if s.san.s.failMode then some nvSanitizeFailed
  else if t.formats e.cmd.nsid then some nvFormatting
  else if s.therm.hold ∧ [0x01#8, 0x08#8, 0x7D#8].contains e.opcode then some nvThermalHold
  else if zoneSendBad e then some nvBadField
  else none

/-! Candidates (R242-R247). -/

/-- A head entry: what the arbiter sees of it. -/
structure Head where
  slot : Nat
  fn : FnId
  qid : Nat
  cls : Nat
  e : Fetched

/-- The latest start time of a command (R247): the time of its promotion, or its landing and bound less the remaining
estimate. A Read's slowest sub-read is taken to have the 4 codewords of a page, or all its sectors (DEDUCED, log 89). -/
def State.latestStart (s : State) (h : Head) : Nat :=
  if h.e.urgent then h.e.lst
  else
    let n := h.e.sqe.blocks
    let k := h.e.sqe.kind
    let est := if k ≤ 1 then s.readEstimate .arbiter (min n 4) n
      else if k = 2 then s.writeEstimate false n
      else s.estimate (14 + (if h.e.sqe.opcode = 0x79#8 then 9 else 0) + 12) 0
    h.e.landedUs + (classBound k h.cls).getD 0 - est

/-- The head entries of the ACTIVE queues of a tenant (R242). -/
def State.headsOf (s : State) (slot : Nat) (t : Tenant) : List Head :=
  match t.fn with
  | none => []
  | some f =>
    let x := s.fn f
    x.sqs.filterMap (fun q =>
      match q.st, q.pre with
      | .active, e :: _ => some ⟨slot, f, q.qid, queueClass (ccAms x.cc) q.prio, e⟩
      | _, _ => none)

/-- The next of some queue identifiers in turn after `last`. -/
def nextInTurn (last : Nat) (qids : List Nat) : Option Nat :=
  match minOf (qids.filter (fun q => decide (last < q))) with
  | some q => some q
  | none => minOf qids

/-- Grants left of the burst of a queue. -/
def Fn.burstOf (x : Fn) (qid : Nat) : Nat := match x.sq qid with | none => 0 | some q => q.burst

/-- The queue of a class that is next: the one whose burst goes on, or the next in turn (R242). -/
def Fn.turnOf (x : Fn) (cls : Nat) (hs : List Head) : Option Head :=
  let last := x.rrIo.getD cls 0
  let qids := hs.map (·.qid)
  let pick := if qids.contains last ∧ x.burstOf last ≠ 0 then some last else nextInTurn last qids
  pick.bind (fun q => hs.find? (fun h => decide (h.qid = q)))

/-- The arbitration class of a head entry within its tenant: Urgent once promoted (R246). -/
def Head.arbClass (h : Head) : Nat := if h.e.urgent then 0 else h.cls

/-- Weights of High, Medium and Low (R242). -/
def Fn.weights (x : Fn) : List Nat := [fieldLE x.arb 3 1 + 1, fieldLE x.arb 2 1 + 1, fieldLE x.arb 1 1 + 1]

/-- The class among High, Medium and Low that the weighted round takes, and the grants left in the round (R242). -/
def Fn.weighted (x : Fn) (classes : List Nat) : Option (Nat × List Nat) :=
  let pick := fun (left : List Nat) => classes.find? (fun c => decide (left.getD (c - 1) 0 ≠ 0))
  match pick x.rrCls with
  | some c => some (c, x.rrCls)
  | none => (pick x.weights).map (fun c => (c, x.weights))

/-- The I/O candidate of a function among its I/O heads, and the weighted round it leaves (R242). -/
def Fn.ioCandidate (x : Fn) (hs : List Head) : Option (Head × List Nat) :=
  let of := fun c => hs.filter (fun h => decide (h.arbClass = c))
  match x.turnOf 0 (of 0) with
  | some h => some (h, x.rrCls)
  | none =>
    match x.weighted ([1, 2, 3].filter (fun c => !(of c).isEmpty)) with
    | none => none
    | some (c, left) => (x.turnOf c (of c)).map (fun h => (h, left))

/-- The I/O candidates of all tenants, those with a spent cap apart (R244). -/
def State.ioCandidates (s : State) : List (Head × List Nat) :=
  s.host.tenants.filterMap (fun p =>
    if p.2.capSpent s.now then none
    else match p.2.fn with
      | none => none
      | some f => (s.fn f).ioCandidate ((s.headsOf p.1 p.2).filter (fun h => decide (h.qid ≠ 0))))

/-- The admin candidates of all tenants (R243). -/
def State.adminCandidates (s : State) : List Head :=
  s.host.tenants.flatMap (fun p => (s.headsOf p.1 p.2).filter (fun h => decide (h.qid = 0)))

/-- Whether an admin command may be granted now: at most one grant in 8 while I/O waits (R243). -/
def State.adminMay (s : State) : Bool := s.ioCandidates.isEmpty || decide (7 ≤ s.host.sinceAdmin)

/-- How far a slot is from the one granted last, in turn. -/
def State.turnAfter (s : State) (slot : Nat) : Nat := (slot + 2047 - s.host.rrTenant) % 1024

/-- The order of candidates across tenants: below their floor first, then latest start, then turn (R244). -/
def State.before (s : State) (a b : Head) : Bool :=
  let fl := fun (h : Head) => (s.tenantD h.slot).belowFloor s.now
  let la := s.latestStart a
  let lb := s.latestStart b
  if fl a && !fl b then true
  else if fl b && !fl a then false
  else decide (la < lb ∨ (la = lb ∧ s.turnAfter a.slot < s.turnAfter b.slot))

/-- The first of a list in an order. -/
def firstBy {α : Type} (lt : α → α → Bool) : List α → Option α
  | [] => none
  | a :: r => match firstBy lt r with
    | none => some a
    | some b => if lt b a then some b else some a

/-- The candidate that R242 to R244 take: an admin command where it may go, otherwise the first I/O candidate. -/
def State.pickGrant (s : State) : Option (Head × Option (List Nat)) :=
  let admin := firstBy (fun (a b : Head) => decide (s.turnAfter a.slot < s.turnAfter b.slot)) s.adminCandidates
  match admin, s.adminMay with
  | some h, true => some (h, none)
  | _, _ => (firstBy (fun (a b : Head × List Nat) => s.before a.1 b.1) s.ioCandidates).map (fun p => (p.1, some p.2))

/-- The oldest head entry of a tenant that has a candidate (R245). -/
def State.pickOldest (s : State) : Option Head :=
  let io := s.host.tenants.flatMap (fun p =>
    if p.2.capSpent s.now then [] else (s.headsOf p.1 p.2).filter (fun h => decide (h.qid ≠ 0)))
  let admin := if s.adminMay then s.adminCandidates else []
  firstBy (fun (a b : Head) => decide (a.e.landedUs < b.e.landedUs ∨ (a.e.landedUs = b.e.landedUs ∧
    (a.slot < b.slot ∨ (a.slot = b.slot ∧ a.qid < b.qid))))) (io ++ admin)

/-! The grant (R242-R245, R250, R273). -/

/-- What the pick itself changes: the turns, the burst and the weighted round (R242, R244). -/
def State.turnTaken (s : State) (h : Head) (left : Option (List Nat)) : State :=
  let s := { s with host.rrTenant := h.slot }
  match left with
  | none => s
  | some left =>
    s.updFn h.fn (fun x =>
      let ab := x.arb.toNat % 8
      let c := h.arbClass
      let goesOn := decide (x.rrIo.getD c 0 = h.qid ∧ x.burstOf h.qid ≠ 0)
      let burst := if ab = 7 then 1 else if goesOn then x.burstOf h.qid - 1 else 2 ^ ab - 1
      let x := x.updSq h.qid (fun (q : Sq) => { q with burst := burst })
      { x with
        rrIo := (if x.rrIo.length = 4 then x.rrIo else [0, 0, 0, 0]).set c h.qid
        rrCls := if c = 0 then left else left.set (c - 1) (left.getD (c - 1) 0 - 1) })

/-- An I/O command is outstanding: activity time counts and the activity LED is low (R500, R547). -/
def State.ioBegins (s : State) (slot : Nat) : State :=
  let s := s.updTenant slot (fun t => { t with activeFrom := match t.activeFrom with | none => some s.now | some a => some a })
  let s : State := if s.aon.ledActive || s.aon.ledHold then s else s.emit (.pin 3 0)
  { s with aon.ledActive := true, aon.ledHold := false, host.busyFrom := some (s.host.busyFrom.getD s.now) }

/-- A head entry granted: its prefetch slot is free, its tokens are charged, and it goes to its row, or completes with what a
check finds (R236, R250, R273). -/
def State.grant (s : State) (h : Head) : State :=
  let e := h.e.sqe
  let c := e.cmd
  let admin := decide (h.qid = 0)
  let checks := (s.grantChecks h.fn h.slot e).filter (·.1)
  let clash := (s.fn h.fn).outstanding c.sqid c.cid
  let s := s.updFn h.fn (fun x => x.updSq h.qid (fun (q : Sq) => { q with pre := q.pre.drop 1 }))
  let s := { s with
    host.grants := s.host.grants + 1
    host.sinceAdmin := if admin then 0 else min 7 (s.host.sinceAdmin + 1) }
  let s : State := if admin then s
    else s.updTenant h.slot (fun t => t.chargeGrant (if hasNlb e.opcode then e.blocks else 0) s.now)
  let o : Outst := ⟨c.sqid, c.cid, h.e.landedUs, h.cls, e.kind, false, false, h.e.index, if h.e.urgent then some h.e.lst else none,
    h.e.hostUs, h.e.napUs⟩
  let enter := fun (s : State) =>
    let s := s.updFn h.fn (fun x => { x with granted := x.granted ++ [o] })
    if admin then s else s.ioBegins h.slot
  let s : State := match checks with
    | (_, (st, _)) :: _ =>
      let s := (checks.filterMap (fun k => k.2.2)).foldl (fun s code => s.hostViolation h.fn code c.sqid c.cid 1) s
      if clash then s.completeFetched h.fn c.sqid c st else (enter s).failCmd h.fn c st
    | [] =>
      match s.grantState h.slot e with
      | some st => (enter s).failCmd h.fn c st
      | none =>
        let s := enter s
        { s with host.granted := s.host.granted ++ [(h.fn, (e, h.qid))] }
  s.fetchAllFns

/-- Whether the next grant is a longest-waiter grant (R245). -/
def State.longestNext (s : State) : Bool := decide ((s.host.grants + 1) % max 1 s.host.nth = 0)

/-- Whether the arbiter grants at all: not during the drain of a sanitise (R432). -/
def State.mayGrant (s : State) : Bool := !(s.san.s.running && s.san.s.drain)

/-- ARBITER_GRANT (R244). -/
def execArbiterGrant (t : Nat) (s : State) : Host.Outcome State Fault Refusal :=
  let u := s.atTime t
  if u.longestNext || !u.mayGrant then .next s
  else match u.pickGrant with
    | none => .next s
    | some (h, left) => settled (.next ((u.turnTaken h left).grant h))

/-- LONGEST_WAITER_GRANT (R245). -/
def execLongestWaiterGrant (t : Nat) (s : State) : Host.Outcome State Fault Refusal :=
  let u := s.atTime t
  if !u.longestNext || !u.mayGrant then .next s
  else match u.pickOldest with
    | none => .next s
    | some h => settled (.next (u.grant h))

/-- The age at which a command is promoted, in µs (R249). -/
def State.ageUs (s : State) : Nat := 100 * s.host.ageLimit

/-- AGE_PROMOTION (R246): of an entry in a prefetch slot, or of a write that waits for a Tack entry (R111). -/
def execAgePromotion (f : FnId) (sqid cid t : Nat) (s : State) : Host.Outcome State Fault Refusal :=
  let u := s.atTime t
  match u.tenantOf f, (u.fn f).sq sqid with
  | some slot, some q =>
    let x := u.fn f
    let isIt := fun (e : Fetched) => decide (e.sqe.cmd.cid = cid) && !e.urgent && decide (e.landedUs + u.ageUs ≤ u.now)
    if sqid = 0 then .next s
    else if q.pre.any isIt ∧ queueClass (ccAms x.cc) q.prio ≠ 0 then
      let u := u.updFn f (fun x => x.updSq sqid (fun (q : Sq) => { q with
        pre := q.pre.map (fun (e : Fetched) => if isIt e then { e with urgent := true, lst := u.now } else e) }))
      .next (u.pbTenant slot 1 1)
    else
      let waits := u.wr.writes.any (fun w => decide (w.fn = f ∧ w.sqid = sqid ∧ w.cid = cid ∧ w.stage = .entryWait))
      let old := fun (o : Outst) => decide (o.sqid = sqid ∧ o.cid = cid ∧ o.cls ≠ 0 ∧ o.landedUs + u.ageUs ≤ u.now ∧ o.promotedUs = none)
      if waits ∧ x.granted.any old then
        let u := u.updFn f (fun x => { x with granted := x.granted.map (fun (o : Outst) => if old o then { o with promotedUs := some u.now } else o) })
        .next (u.pbTenant slot 1 1)
      else .next s
  | _, _ => .next s

/-! Interrupts (R270, R271). -/

/-- COALESCING_TIMER: a vector's aggregation time or its minimum gap has elapsed. -/
def execCoalescingTimer (f : FnId) (vector t : Nat) (s : State) : Host.Outcome State Fault Refusal :=
  let u := s.atTime t
  let e := (u.fn f).entry vector
  if e.gap then (if u.gapOver f vector then .next (u.issueMsix f vector) else .next s)
  else if e.unsig ≠ 0 ∧ e.firstUs + u.aggTime f vector ≤ u.now then .next (u.dueMsix f vector)
  else .next s

/-- A message that waits in a PBA bit issued, where nothing masks it any more (R270). -/
def State.unpend (s : State) (f : FnId) (v : Nat) : State :=
  let x := s.fn f
  let e := x.entry v
  if e.pba && !e.mask && !x.fmask && x.msixEn then
    (s.setFn f { x with msix := Tab.set x.msix v { e with pba := false } }).issueMsix f v
  else s

/-- A Dword of a MSI-X entry written (R269). -/
def MsixEntry.put (e : MsixEntry) (dword : Nat) (v : BitVec 32) : MsixEntry :=
  match dword with
  | 0 => { e with addrLo := v }
  | 1 => { e with addrHi := v }
  | 2 => { e with data := v }
  | _ => { e with mask := v.getLsbD 0 }

/-- A write to a MSI-X table entry: one in no block of the function's tenant ignores it (R265, R269). -/
def State.msixWrite (s : State) (f : FnId) (entry dword : Nat) (value : BitVec 32) : State :=
  if s.fnExists f ∧ dword < 4 ∧ (s.blockOf f entry).isSome then
    (s.updFn f (fun x => { x with msix := Tab.set x.msix entry ((x.entry entry).put dword value) })).unpend f entry
  else s

/-- MSIX_TABLE_WRITE. -/
def execMsixTableWrite (f : FnId) (entry dword : Nat) (value : BitVec 32) (s : State) : Host.Outcome State Fault Refusal :=
  .next (s.msixWrite f entry dword value)

/-! Configuration requests (R263, R265, R464, R554). -/

/-- Whether a port serves configuration requests, and no longer answers Request Retry Status (R554). -/
def State.configServed (s : State) (p : Port) : Bool :=
  let x := s.portSt p
  match x.deassertUs with
  | none => false
  | some d => !x.perst && decide (d + 100000 ≤ s.now ∧ s.aon.vaonUs + 270000 ≤ s.now)

/-- CONFIG_REQUEST: a wake; once requests are served, a write sets the command bits and the MSI-X control. -/
def execConfigRequest (f : FnId) (bme mse msixEnable fmask : Bool) (write : Bool) (t : Nat) (s : State) :
    Host.Outcome State Fault Refusal :=
  let s := s.atTime t
  if !s.portThere f.port ∨ (s.portSt f.port).perst then .next s
  else
    let s := s.wakeUp 3 65535
    if write ∧ s.fnExists f ∧ s.configServed f.port then
      let s := s.updFn f (fun x => { x with bme := bme, mse := mse, msixEn := msixEnable, fmask := fmask })
      .next ((s.fn f).msix.foldl (fun s e => s.unpend f e.1) s)
    else .next s

/-- NumVFs of a port set; virtual functions beyond it disappear, reset as by an FLR (R263, R265, log 34). -/
def State.setNumVfs (s : State) (p : Port) (n : Nat) : State :=
  let gone := (s.portFns p).filter (fun (f : FnId) => decide (n < f.vf))
  let s := gone.foldl (fun s f => s.resetFn f true) s
  match p with
  | .a => { s with host.numVfsA := n }
  | .b => { s with host.numVfsB := n }

/-- NUMVFS_WRITE: a value above TotalVFs is ignored. -/
def execNumvfsWrite (port : Port) (value : Nat) (s : State) : Host.Outcome State Fault Refusal :=
  if s.portThere port ∧ s.configServed port then
    let s := s.wakeUp 3 65535
    settled (.next (if value ≤ 1023 then s.unlessWarned (fun s => s.setNumVfs port value) else s))
  else .next s

/-! Links (R33, R37, R555). -/

/-- The 2 s of R37 have passed with the manager port's link down. -/
def State.managerLost (s : State) : Bool :=
  s.mbx.failover && (match s.mbx.downSince with | none => false | some d => decide (d + 2000000 ≤ s.now))

/-- The lanes of a port's link: 4, and 8 where the ports are joined (R38, R540). -/
def State.lanes (s : State) : Nat := if s.host.joined then 8 else 4

/-- A port's link comes up: on the manager's port the count of R37 ends, on the other the role moves at once where the 2 s
have passed. -/
def State.linkCame (s : State) (p : Port) : State :=
  let s := s.updPort p (fun x => { x with linkUp := true, l12 := false, width := s.lanes })
  if p = s.mbx.manager then { s with mbx.downSince := none }
  else if s.managerLost then s.moveManager p
  else s

/-- LINK_UP (R37). -/
def execLinkUp (port : Port) (t : Nat) (s : State) : Host.Outcome State Fault Refusal :=
  let x := s.portSt port
  if !x.perst ∧ x.refclk ∧ !x.linkUp ∧ s.portThere port ∧ !s.supply.portsStopped then .next ((s.atTime t).linkCame port) else .next s

/-- LINK_DOWN (R33): a port failure; what has been granted goes on. -/
def execLinkDown (port : Port) (t : Nat) (s : State) : Host.Outcome State Fault Refusal :=
  if (s.portSt port).linkUp then .next ((s.atTime t).linkLost port) else .next s

/-- MANAGER_FAILOVER (R37): the role moves where the other port's link is up. -/
def execManagerFailover (t : Nat) (s : State) : Host.Outcome State Fault Refusal :=
  let u := s.atTime t
  let q := otherPort u.mbx.manager
  if u.managerLost ∧ (u.portSt q).linkUp ∧ !(u.portSt u.mbx.manager).linkUp then .next (u.moveManager q) else .next s

/-- LANE_FAILURE (R33): the link retrains narrower, and what is in flight is kept. -/
def execLaneFailure (port : Port) (width : Nat) (s : State) : Host.Outcome State Fault Refusal :=
  let x := s.portSt port
  if x.linkUp ∧ [1, 2, 4].contains width ∧ width < x.width then .next (s.updPort port (fun x => { x with width := width }))
  else .next s

/-- REFCLK_LOSS (R555): the PLL loses lock and the link goes down. -/
def execRefclkLoss (port : Port) (t : Nat) (s : State) : Host.Outcome State Fault Refusal :=
  if (s.portSt port).refclk then
    let up := (s.portSt port).linkUp
    let s := (s.atTime t).updPort port (fun x => { x with refclk := false })
    .next (if up then s.linkLost port else s)
  else .next s

/-- REFCLK_RELOCK (R555): the port may train again. -/
def execRefclkRelock (port : Port) (t : Nat) (s : State) : Host.Outcome State Fault Refusal :=
  if (s.portSt port).refclk then .next s
  else .next ((s.atTime t).updPort port (fun x => { x with refclk := true }))

/-! TLP and host errors (R250, R251). -/

/-- MALFORMED_TLP: the TLP is discarded and logged in AER on the function it names, or the physical function; it counts where
a tenant is named. -/
def execMalformedTlp (port : Port) (fn : Option FnId) (s : State) : Host.Outcome State Fault Refusal :=
  let named : Option FnId := match fn with
    | none => none
    | some f => if f.port = port ∧ s.fnExists f then some f else none
  let s := s.emit (.aer port named)
  match named with
  | none => .next (s.hostNote ⟨port, 0⟩ 0x0B 0 0 0)
  | some f =>
    if (s.tenantOf f).isSome then settled (.next (s.hostViolation f 0x0B 0 0 0)) else .next (s.hostNote f 0x0B 0 0 0)

end Sys2Proof.Machine
end

