-- ==== Sys2Proof/Machine/Tenants.lean ====
section
/-! DEFINITION. Tenants: creation, contracts, queue pairs, vector blocks, quarantine and reset (R264-R283, R293-R305). -/

namespace Sys2Proof.Machine

/-! Pools (R266, R275). -/

/-- A number summed over every tenant but one. -/
def State.sumOthers (s : State) (slot : Nat) (f : Tenant → Nat) : Nat :=
  s.host.tenants.foldl (fun n p => if p.1 = slot then n else n + f p.2) 0

/-- Vectors in a tenant's blocks. -/
def Tenant.vectors (t : Tenant) : Nat := t.blocks.foldl (fun n b => n + b.count) 0

/-- The lowest free slot of the kinds whose slots are taken in order (R56). -/
def State.freeSlot (s : State) (kind : Nat) : Option Nat :=
  let used := match kind with
    | 1 => s.host.tenants.map (·.1)
    | 2 => s.host.tenants.flatMap (fun p => p.2.qpairs.map (·.slot))
    | 5 => s.host.tenants.flatMap (fun p => p.2.blocks.map (fun b => handleSlot b.handle))
    | _ => (s.host.snaps.filter (·.held)).map (·.slot)
  lowestFree used 0 (kindSlots kind)

/-- The floor capacity: commands and units of 4 KiB per second (R266). -/
def State.floorCap (s : State) : Nat × Nat := if s.channels = 32 then (2133333, 9277343) else (1066666, 4638671)

/-- The VF that a command names on a port: one named, or the lowest-numbered unbound one (R293, R308). -/
def State.pickVf (s : State) (p : Port) (vf : Nat) : Option Nat :=
  if vf = 0xFFFF then lowestFree (s.host.tenants.filterMap (fun t => match t.2.fn with
    | some f => if f.port = p then some f.vf else none
    | none => none)) 1 1023
  else some vf

/-! TENANT_CREATE (R293). -/

/-- A tenant as TENANT_CREATE makes it. -/
def State.newTenant (s : State) (f : FnId) (swatches zones vectors weight block : Nat) : Tenant :=
  let base := s.baseTenant f.port true
  s.firstEpoch ({ base with
    fn := some f
    swatchQuota := swatches
    activeZones := zones
    contract := ⟨0, 0, 0, 0, 10, weight⟩
    blocks := [⟨s.handleOf 5 block, 0, vectors, 255, false, 0⟩] }.fullBuckets s.now)

/-- The effect of TENANT_CREATE in free slots. -/
def tenantCreateRun (r : MbxReq) (slot block vf : Nat) (s : State) : MbxRes :=
  let f : FnId := ⟨portOf (r.p 16 1), vf⟩
  let t := s.newTenant f (r.p 20 4) (r.p 24 2) (r.p 26 2) (r.p 28 1) block
  let s := s.setTenant slot t
  MbxRes.ok s (s.handleOf 1 slot) (fld 20 1 (r.p 16 1) + fld 22 2 vf + fld 24 4 (s.handleOf 5 block) + fld 28 2 slot)

/-- TENANT_CREATE (R293). -/
def tenantCreateCmd (_ : MbxCmd) (r : MbxReq) (s : State) : MbxRes :=
  let p := portOf (r.p 16 1)
  let vf := s.pickVf p (r.p 18 2)
  let slot := s.freeSlot 1
  let block := s.freeSlot 5
  let bound := s.host.tenants.any (fun t => decide (t.2.fn = some ⟨p, r.p 18 2⟩))
  let short := decide (s.hostClass < s.sumOthers 1024 (·.swatchQuota) + r.p 20 4 ∨
    4096 < s.sumOthers 1024 (·.activeZones) + r.p 24 2 ∨ 16384 < s.sumOthers 1024 Tenant.vectors + r.p 26 2)
  let bad := [outOf r 16 1 0 1, r.rsv 17 1,
    badIf (decide (r.p 18 2 = 0 ∨ (1023 < r.p 18 2 ∧ r.p 18 2 ≠ 0xFFFF))) 18, badIf (decide (r.p 20 4 < 64)) 20,
    outOf r 24 2 1 4096, outOf r 26 2 1 2048, badIf (decide (r.p 28 1 = 0)) 28, r.rsv 29 35]
  let rest := [(s.host.joined && decide (r.p 16 1 = 1), stConflict), (bound, stConflict),
    (slot.isNone || block.isNone || vf.isNone || short, stPoolEmpty)] ++ s.writes
  r.guard0 s bad rest (fun _ => r.hem s (fun _ =>
    tenantCreateRun r (slot.getD 0) (block.getD 0) (vf.getD 0) s))

/-- TENANT_CREATE. -/
def execTenantCreate (r : MbxReq) (s : State) : Host.Outcome State Fault Refusal :=
  .next (s.mbxSubmit 0x0101#16 tenantCreateCmd r)

/-! TENANT_DESTROY and TENANT_RESET (R294). -/

/-- Bolts that a tenant holds: of its zones, its regions and its logs. -/
def State.boltsOf (s : State) (slot : Nat) : List Nat :=
  let t := s.tenantD slot
  t.zones.filterMap (fun z => z.2.bolt) ++ t.regions.map (·.bolt) ++ s.logBoltsOf slot

/-- What a tenant still has in flight after the reset of its function is abandoned with it. -/
def State.abandonWrites (s : State) (slot : Nat) : State :=
  let ws := s.wr.writes.filter (fun w => decide (w.tenant = slot))
  let s := ws.foldl (fun s w =>
    let s := if w.stage = .data ∨ w.stage = .bindWait then s.releaseWrite w else s
    (s.dropWrite w.id).releaseTack w.id) s
  let xs := s.wr.sends.filter (fun x => decide (x.tenant = slot))
  let s := { s with wr.sends := s.wr.sends.filter (fun x => decide (x.tenant ≠ slot)) }
  xs.foldl (fun s x => s.releaseTack x.id) s

/-- The generations of every object of a tenant advanced (R53, R58). -/
def State.bumpObjects (s : State) (slot : Nat) (t : Tenant) : State :=
  let s := (t.qpairs.filter (fun q => !q.revoked)).foldl (fun s q => s.bumpGen 2 q.slot) s
  let s := t.blocks.foldl (fun s b => s.bumpGen 5 (handleSlot b.handle)) s
  let s := t.placements.foldl (fun s p => s.bumpGen 3 (slot * 64 + p.index)) s
  let s := (s.host.snaps.filter (fun x => decide (x.tenant = slot) && x.held)).foldl (fun s x => s.bumpGen 6 x.slot) s
  let s := [0, 1].foldl (fun s k => s.bumpGen 4 (2 * slot + k)) s
  s.bumpGen 1 slot

/-- TENANT_DESTROY past its checks (R294). -/
def State.destroyTenant (s : State) (slot : Nat) : State :=
  let f := (s.tenantD slot).fn
  let s : State := match f with
    | none => s
    | some f => s.resetFn f true
  let s := (((s.abandonWrites slot).emptyZones slot).emptyConv slot)
  let t := s.tenantD slot
  let handle := s.handleOf 1 slot
  let s := s.bumpObjects slot t
  let s := { s with
    host.tenants := Tab.del s.host.tenants slot
    host.snaps := s.host.snaps.filter (fun x => decide (x.tenant ≠ slot))
    bolts.rr := s.bolts.rr.filter (fun p => decide (p.1 / 64 ≠ slot))
    bolts.logRr := Tab.del s.bolts.logRr slot
    rd.dieTime := Tab.del s.rd.dieTime slot
    recl.throttled := Tab.del s.recl.throttled slot
    pb.heldTenant := s.pb.heldTenant.filter (fun p => decide (p.1 ≠ slot))
    pb.deletedRecs := if s.pbFrozen then s.pb.deletedRecs ++ [(handle, t.pb)] else s.pb.deletedRecs }
  let s : State := match f with
    | none => s
    | some f => s.updFn f (fun x => { x with msix := [] })
  (((s.updLogState).updThrottle).pump.settleAll).tidy

/-- TENANT_DESTROY (R294). -/
def tenantDestroyCmd (_ : MbxCmd) (r : MbxReq) (s : State) : MbxRes :=
  r.guardH s 1 true [r.rsv 16 48] (fun slot _ => (isBase slot, stNotPermitted) :: s.writes) (fun slot _ _ => r.hem s (fun _ =>
    let n := (s.boltsOf slot).length
    MbxRes.ok (s.destroyTenant slot) 0 (fld 20 4 n)))

/-- TENANT_DESTROY. -/
def execTenantDestroy (r : MbxReq) (s : State) : Host.Outcome State Fault Refusal :=
  settled (.next (s.mbxSubmit 0x0102#16 tenantDestroyCmd r))

/-- The reset steps on a tenant's function where its CC.EN is 1 (R294). -/
def State.resetTenant (s : State) (t : Tenant) : State :=
  match t.fn with
  | none => s
  | some f => if ccEn (s.fn f).cc then s.resetFn f false else s

/-- TENANT_RESET (R294). -/
def tenantResetCmd (_ : MbxCmd) (r : MbxReq) (s : State) : MbxRes :=
  r.guardH s 1 false [r.rsv 16 48] (fun _ _ => s.acts) (fun _ _ t => MbxRes.ok (s.resetTenant t))

/-- TENANT_RESET. -/
def execTenantReset (r : MbxReq) (s : State) : Host.Outcome State Fault Refusal :=
  settled (.next (s.mbxSubmit 0x0109#16 tenantResetCmd r))

/-! TENANT_QUERY and TENANT_LIST (R295, R296). -/

/-- PORT and VF of a tenant, 0xFF where it is unbound. -/
def Tenant.place (t : Tenant) : Nat × Nat := match t.fn with | none => (0xFF, 0) | some f => (portNo f.port, f.vf)

/-- Whether CC.EN is set on a tenant's function. -/
def State.tenantEn (s : State) (t : Tenant) : Bool := match t.fn with | none => false | some f => ccEn (s.fn f).cc

/-- The snapshot of a tenant whose handle is live, by slot. -/
def State.snapOf (s : State) (slot : Nat) : Option Snap := s.host.snaps.find? (fun x => decide (x.tenant = slot) && x.held)

/-- FLAGS of a tenant (R295). -/
def State.tenantFlags (s : State) (slot : Nat) (t : Tenant) : Nat :=
  flagByte [t.frozen, t.quarantined, isBase slot, (s.snapOf slot).isSome, decide (t.stagingLimit ≠ 0), s.tenantEn t]

/-- A bucket's level in whole tokens, as TENANT_QUERY reports it; it does not refill while the tenant is frozen (R274). -/
def State.levelField (s : State) (t : Tenant) (i : Nat) : Nat :=
  if t.contract.rate i = 0 then 0
  else
    let l := if t.frozen then (t.buckets.getD i ⟨0, 0⟩).level else (t.bucket i s.now).level
    (l / 1000000 % 2 ^ 32).toNat

/-- The 128 bytes of R295. -/
def State.tenantArea (s : State) (slot : Nat) (t : Tenant) : List Byte :=
  let (port, vf) := t.place
  let q := t.contract
  let snap := match s.snapOf slot with | none => 0 | some x => s.handleOf 6 x.slot
  bytesLE 4 (s.handleOf 1 slot) ++ bytesLE 1 port ++ bytesLE 1 (s.tenantFlags slot t) ++ bytesLE 2 vf ++
    bytesLE 4 t.swatchQuota ++ bytesLE 4 t.swatchHeld ++ bytesLE 2 t.activeZones ++ bytesLE 2 t.activeCount ++
    bytesLE 2 t.qpairs.length ++ bytesLE 2 (t.qpairs.filter (·.usable)).length ++ bytesLE 2 t.vectors ++
    bytesLE 2 t.blocks.length ++ bytesLE 4 t.stagingLimit ++ bytesLE 4 q.capIops ++ bytesLE 4 q.capBw ++
    bytesLE 4 q.floorIops ++ bytesLE 4 q.floorBw ++ bytesLE 2 q.burstMs ++ bytesLE 1 q.weight ++ bytesLE 1 0 ++
    (List.range 4).flatMap (fun i => bytesLE 4 (s.levelField t i)) ++ bytesLE 4 t.violations ++ bytesLE 4 snap ++
    bytesLE 4 t.freezeSeq ++ bytesLE 48 0

/-- TENANT_QUERY (R295). -/
def tenantQueryCmd (_ : MbxCmd) (r : MbxReq) (s : State) : MbxRes :=
  r.guardH s 1 true (r.bufOffences 16 24 128 ++ [r.rsv 28 36]) (fun _ _ => s.buffers) (fun slot _ t =>
    r.buffer s 16 (fun _ => MbxRes.ok (r.output s 16 24 (s.tenantArea slot t))))

/-- TENANT_QUERY. -/
def execTenantQuery (r : MbxReq) (s : State) : Host.Outcome State Fault Refusal :=
  .next (s.mbxSubmit 0x0103#16 tenantQueryCmd r)

/-- One entry of TENANT_LIST. -/
def State.listEntry (s : State) (slot : Nat) (t : Tenant) : List Byte :=
  bytesLE 4 (s.handleOf 1 slot) ++ bytesLE 1 t.place.1 ++ bytesLE 1 (s.tenantFlags slot t) ++ bytesLE 2 t.place.2

/-- TENANT_LIST (R296). -/
def tenantListCmd (_ : MbxCmd) (r : MbxReq) (s : State) : MbxRes :=
  r.guard0 s (r.bufOffences 16 24 8 ++ [r.rsv 28 36]) s.buffers (fun _ => r.buffer s 16 (fun _ =>
    let ts := s.host.tenants.take (r.p 24 4 / 8)
    MbxRes.ok (r.output s 16 24 (ts.flatMap (fun p => s.listEntry p.1 p.2))) 0
      (fld 20 4 s.host.tenants.length + fld 24 4 ts.length)))

/-- TENANT_LIST. -/
def execTenantList (r : MbxReq) (s : State) : Host.Outcome State Fault Refusal :=
  .next (s.mbxSubmit 0x0104#16 tenantListCmd r)

/-! TENANT_SET_QOS and TENANT_SET_ATOMIC (R297, R298). -/

/-- The contract that a command sets. -/
def qosOf (r : MbxReq) : QosTerms := ⟨r.p 16 4, r.p 20 4, r.p 24 4, r.p 28 4, r.p 32 2, r.p 34 1⟩

/-- The buckets under a new contract: kept and clamped, a newly configured one full (R274). -/
def Tenant.withContract (t : Tenant) (q : QosTerms) (now : Nat) : Tenant :=
  { t with
    contract := q
    buckets := (List.range 4).map (fun i =>
      let full : Int := (q.depth i : Nat)
      if t.contract.rate i = 0 then ⟨full, now⟩ else ⟨min full (t.bucket i now).level, now⟩) }

/-- The zones in excess of an allocation marked for their finish, those longest without activity first (R121). -/
def Tenant.markExcess (t : Tenant) : Tenant :=
  let acts := sortOn (fun a b => decide (a.2.actSeq ≤ b.2.actSeq)) (t.zones.filter (fun z => z.2.st.active))
  let gone := (acts.take (acts.length - t.activeZones)).map (·.1)
  { t with zones := t.zones.map (fun (z : Nat × Zone) => if gone.contains z.1 then (z.1, { z.2 with finishDue := true }) else z) }

/-- Whether a pool cannot supply a new contract, allocation or quota of a tenant (R113, R266, R275). -/
def State.qosShort (s : State) (slot : Nat) (q : QosTerms) (zones swatches : Nat) : Bool :=
  decide (s.floorCap.1 < s.sumOthers slot (·.contract.floorIops) + q.floorIops ∨
    s.floorCap.2 < s.sumOthers slot (·.contract.floorBw) + q.floorBw ∨
    4096 < s.sumOthers slot (·.activeZones) + zones ∨ s.hostClass < s.sumOthers slot (·.swatchQuota) + swatches)

/-- TENANT_SET_QOS past its checks. -/
def State.setQos (s : State) (slot : Nat) (q : QosTerms) (zones swatches : Nat) : State :=
  let s := s.updTenant slot (fun t =>
    ({ t.withContract q s.now with activeZones := zones, swatchQuota := swatches } : Tenant).markExcess)
  (s.pump).retryParked slot

/-- TENANT_SET_QOS (R297). -/
def tenantSetQosCmd (_ : MbxCmd) (r : MbxReq) (s : State) : MbxRes :=
  let q := qosOf r
  let bad := [badIf (decide (q.capIops ≠ 0 ∧ q.capIops < q.floorIops)) 24, badIf (decide (q.capBw ≠ 0 ∧ q.capBw < q.floorBw)) 28,
    outOf r 32 2 1 1000, badIf (decide (q.weight = 0)) 34, r.rsv 35 1, outOf r 36 2 1 4096, r.rsv 38 2,
    badIf (decide (r.p 40 4 < 64)) 40, r.rsv 44 20]
  r.guardH s 1 false bad (fun slot _ => (s.qosShort slot q (r.p 36 2) (r.p 40 4), stPoolEmpty) :: s.writes) (fun slot _ _ =>
    r.hem s (fun _ => MbxRes.ok (s.setQos slot q (r.p 36 2) (r.p 40 4))))

/-- TENANT_SET_QOS. -/
def execTenantSetQos (r : MbxReq) (s : State) : Host.Outcome State Fault Refusal :=
  settled (.next (s.mbxSubmit 0x0105#16 tenantSetQosCmd r))

/-- TENANT_SET_ATOMIC (R298). -/
def tenantSetAtomicCmd (_ : MbxCmd) (r : MbxReq) (s : State) : MbxRes :=
  let on := decide (r.p 16 1 = 1)
  let lim := r.p 20 4
  let limBad := if on then decide (lim < 64 ∨ 16384 < lim) else decide (lim ≠ 0)
  r.guardH s 1 false [outOf r 16 1 0 1, r.rsv 17 3, badIf limBad 20, r.rsv 24 40] (fun _ _ => s.writes) (fun slot _ _ =>
    r.hem s (fun _ => MbxRes.ok (s.updTenant slot (fun t => { t with stagingLimit := lim }))))

/-- TENANT_SET_ATOMIC. -/
def execTenantSetAtomic (r : MbxReq) (s : State) : Host.Outcome State Fault Refusal :=
  .next (s.mbxSubmit 0x0106#16 tenantSetAtomicCmd r)

/-! TENANT_QUARANTINE and TENANT_RELEASE (R281, R282, R299). -/

/-- TENANT_QUARANTINE (R299). -/
def tenantQuarantineCmd (_ : MbxCmd) (r : MbxReq) (s : State) : MbxRes :=
  r.guardH s 1 false [r.rsv 16 48] (fun slot _ => (decide (slot = s.managerBase), stNotPermitted) :: s.writes) (fun slot _ t =>
    if t.quarantined then MbxRes.ok s else r.hem s (fun _ => MbxRes.ok (s.quarantine slot)))

/-- TENANT_QUARANTINE. -/
def execTenantQuarantine (r : MbxReq) (s : State) : Host.Outcome State Fault Refusal :=
  .next (s.mbxSubmit 0x0107#16 tenantQuarantineCmd r)

/-- The I/O queues of a function that are HELD return to ACTIVE, or to what a parked write leaves them in (R282, R290). -/
def State.unhold (s : State) (slot : Nat) (f : FnId) : State :=
  let stops := s.wr.writes.any (fun w => decide (w.tenant = slot ∧ w.stage = .parked))
  let s := s.updFn f (fun x => { x with sqs := x.sqs.map (fun (q : Sq) =>
    if q.st = .held then
      { q with st := if (s.parkedIn f q.qid).isSome then .parked else if stops ∧ q.qid ≠ 0 then .stopped else .active }
    else q) })
  s.tryFetchAll f

/-- TENANT_RELEASE past its checks. -/
def State.release (s : State) (slot : Nat) (t : Tenant) (reset : Bool) : State :=
  let s : State := match t.fn, reset with
    | some f, true => s.resetFn f false
    | _, _ => s
  let s := s.updTenant slot (fun t => { t with quarantined := false, violations := 0 })
  match t.fn with
  | none => s
  | some f => s.unhold slot f

/-- TENANT_RELEASE (R299). -/
def tenantReleaseCmd (_ : MbxCmd) (r : MbxReq) (s : State) : MbxRes :=
  r.guardH s 1 false [r.rsvBits 16 1, r.rsv 17 47] (fun _ t => (!t.quarantined, stConflict) :: s.writes) (fun slot _ t =>
    r.hem s (fun _ => MbxRes.ok (s.release slot t (r.bit 16 0))))

/-- TENANT_RELEASE. -/
def execTenantRelease (r : MbxReq) (s : State) : Host.Outcome State Fault Refusal :=
  settled (.next (s.mbxSubmit 0x0108#16 tenantReleaseCmd r))

/-! Queue pairs (R238, R301, R302, R304). -/

/-- The lowest `n` free queue-pair slots. -/
def freeSlots (used : List Nat) : Nat → List Nat
  | 0 => []
  | n + 1 => match lowestFree used 0 8192 with
    | none => []
    | some k => k :: freeSlots (k :: used) n

/-- QPAIR_GRANT past its checks. -/
def qpairGrantRun (r : MbxReq) (slot : Nat) (t : Tenant) (s : State) : MbxRes :=
  let n := r.p 28 2
  let used := s.host.tenants.flatMap (fun p => p.2.qpairs.map (·.slot))
  let total := t.qpairs.length
  let now := !s.tenantEn t
  let new := (freeSlots used n).zipIdx.map (fun p => (⟨p.1, total + 1 + p.2, now, false⟩ : Qpair))
  let s := s.setTenant slot { t with qpairs := t.qpairs ++ new }
  let s := r.output s 16 24 (new.flatMap (fun q => bytesLE 4 (s.handleOf 2 q.slot)))
  MbxRes.ok s (match new with | q :: _ => s.handleOf 2 q.slot | [] => 0)
    (fld 20 2 (total + 1) + fld 22 2 n + fld 24 2 (total + n))

/-- QPAIR_GRANT (R301). -/
def qpairGrantCmd (_ : MbxCmd) (r : MbxReq) (s : State) : MbxRes :=
  let n := r.p 28 2
  let bad := r.bufOffences 16 24 (4 * n) ++ [outOf r 28 2 1 64, r.rsv 30 34]
  r.guardH s 1 false bad (fun _ t =>
      (t.qpairs.any (·.revoked), stConflict) :: (decide (1024 < t.qpairs.length + n), stQuota) ::
        (decide (8192 < s.sumOthers 1024 (·.qpairs.length) + n), stPoolEmpty) :: s.buffers ++ s.writes)
    (fun slot _ t => r.buffer s 16 (fun _ => r.hem s (fun _ => qpairGrantRun r slot t s)))

/-- QPAIR_GRANT. -/
def execQpairGrant (r : MbxReq) (s : State) : Host.Outcome State Fault Refusal :=
  .next (s.mbxSubmit 0x0201#16 qpairGrantCmd r)

/-- The queue pair in a slot. -/
def Tenant.qpairIn (t : Tenant) (slot : Nat) : Qpair := (t.qpairs.find? (fun q => decide (q.slot = slot))).getD default

/-- QPAIR_REVOKE past its checks: the handle is destroyed, and the pair returns at once or at the next controller reset. -/
def qpairRevokeRun (slot owner : Nat) (t : Tenant) (s : State) : MbxRes :=
  let q := t.qpairIn slot
  let wait := s.tenantEn t
  let marked := t.qpairs.map (fun (x : Qpair) => if x.slot = slot then { x with revoked := true } else x)
  let gone := t.qpairs.filter (fun x => decide (x.slot ≠ slot))
  let s := s.setTenant owner { t with qpairs := if wait then marked else gone }
  MbxRes.ok (s.bumpGen 2 slot) 0 (fld 20 2 q.qid + fld 22 1 (if wait then 1 else 0))

/-- QPAIR_REVOKE (R302). -/
def qpairRevokeCmd (_ : MbxCmd) (r : MbxReq) (s : State) : MbxRes :=
  r.guardH s 2 false [r.rsv 16 48] (fun slot t =>
      let q := t.qpairIn slot
      (t.qpairs.any (fun x => !x.revoked && decide (q.qid < x.qid)), stConflict) :: s.writes)
    (fun slot owner t => r.hem s (fun _ => qpairRevokeRun slot owner t s))

/-- QPAIR_REVOKE. -/
def execQpairRevoke (r : MbxReq) (s : State) : Host.Outcome State Fault Refusal :=
  .next (s.mbxSubmit 0x0202#16 qpairRevokeCmd r)

/-- SQ_STATE of QUEUE_QUERY (R304). -/
def sqStateNo : QSt → Nat
  | .active => 1
  | .parked => 2
  | .stopped => 3
  | .held => 4
  | .deleting => 5

/-- The function that QUEUE_QUERY looks at: the captured one of a frozen tenant (R304). -/
def State.queryFn (s : State) (owner : Nat) (t : Tenant) : Fn :=
  match t.frozen, s.host.snaps.find? (fun x => decide (x.tenant = owner)) with
  | true, some x => x.fn
  | _, _ => match t.fn with | none => default | some f => s.fn f

/-- QUEUE_QUERY past its checks. -/
def queueQueryRun (r : MbxReq) (slot owner : Nat) (t : Tenant) (s : State) : MbxRes :=
  let q := t.qpairIn slot
  let x := s.queryFn owner t
  let (sst, (tail, head)) := match x.sq q.qid with
    | none => (0, (0, 0))
    | some y => (sqStateNo y.st, (y.tail, if t.frozen then y.head else match t.fn with | none => y.head | some f => s.sqHead f q.qid))
  let (cf, (ch, ct)) := match x.cq q.qid with
    | none => (0, (0, 0))
    | some y => (flagByte [true, y.ien, !y.waiting.isEmpty], (y.head, y.tail))
  MbxRes.ok s r.target.toNat (fld 20 2 q.qid + fld 22 1 sst + fld 23 1 (cf + (if q.revoked then 8 else 0)) + fld 24 2 tail +
    fld 26 2 head + fld 28 2 ch + fld 30 2 ct)

/-- QUEUE_QUERY (R304). -/
def queueQueryCmd (_ : MbxCmd) (r : MbxReq) (s : State) : MbxRes :=
  r.guardH s 2 true [r.rsv 16 48] (fun _ _ => []) (fun slot owner t => queueQueryRun r slot owner t s)

/-- QUEUE_QUERY. -/
def execQueueQuery (r : MbxReq) (s : State) : Host.Outcome State Fault Refusal :=
  .next (s.mbxSubmit 0x0205#16 queueQueryCmd r)

/-! Vector blocks (R269, R303, R305). -/

/-- Whether a run of entries meets a tenant's blocks. -/
def Tenant.overlaps (t : Tenant) (base n : Nat) : Bool :=
  t.blocks.any (fun b => decide (base < b.base + b.count ∧ b.base < base + n))

/-- The lowest base at which a run is free. -/
def Tenant.freeRun (t : Tenant) (n : Nat) : Option Nat :=
  (sortOn (· ≤ ·) (0 :: t.blocks.map (fun b => b.base + b.count))).find? (fun b => decide (b + n ≤ 2048) && !t.overlaps b n)

/-- VECTOR_BLOCK_GRANT (R303). -/
def vectorBlockGrantCmd (_ : MbxCmd) (r : MbxReq) (s : State) : MbxRes :=
  let n := r.p 16 2
  let b := r.p 18 2
  let baseOf := fun (t : Tenant) => if b = 0xFFFF then t.freeRun n else if t.overlaps b n then none else some b
  let block := s.freeSlot 5
  let bad := [outOf r 16 2 1 2048, badIf (decide (b ≠ 0xFFFF ∧ 2047 < b)) 18,
    badIf (decide (b ≤ 2047 ∧ 2048 < b + n)) 18, r.rsv 20 44]
  r.guardH s 1 false bad (fun _ t =>
      ((baseOf t).isNone, stConflict) :: (decide (2048 < t.vectors + n), stQuota) ::
        (decide (16384 < s.sumOthers 1024 Tenant.vectors + n) || block.isNone, stPoolEmpty) :: s.writes)
    (fun slot _ t => r.hem s (fun _ =>
      let base := (baseOf t).getD 0
      let h := s.handleOf 5 (block.getD 0)
      let s := s.setTenant slot { t with blocks := t.blocks ++ [⟨h, base, n, 255, false, 0⟩] }
      MbxRes.ok s h (fld 20 2 base + fld 22 2 n)))

/-- VECTOR_BLOCK_GRANT. -/
def execVectorBlockGrant (r : MbxReq) (s : State) : Host.Outcome State Fault Refusal :=
  .next (s.mbxSubmit 0x0203#16 vectorBlockGrantCmd r)

/-- The vector block in a slot. -/
def Tenant.blockIn (t : Tenant) (slot : Nat) : VecBlock := (t.blocks.find? (fun b => decide (handleSlot b.handle = slot))).getD default

/-- Whether a completion queue with IEN = 1 uses an entry of a block. -/
def State.blockUsed (s : State) (t : Tenant) (b : VecBlock) : Bool :=
  match t.fn with
  | none => false
  | some f => (s.fn f).cqs.any (fun q => q.ien && decide (b.base ≤ q.iv ∧ q.iv < b.base + b.count))

/-- VECTOR_BLOCK_REVOKE (R303). -/
def vectorBlockRevokeCmd (_ : MbxCmd) (r : MbxReq) (s : State) : MbxRes :=
  r.guardH s 5 false [r.rsv 16 48] (fun slot t =>
      let b := t.blockIn slot
      (s.blockUsed t b || decide (b.base = 0), stConflict) :: s.writes)
    (fun slot owner t => r.hem s (fun _ =>
      let b := t.blockIn slot
      let s := s.setTenant owner { t with blocks := t.blocks.filter (fun x => decide (x.handle ≠ b.handle)) }
      let s : State := match t.fn with
        | none => s
        | some f => s.updFn f (fun x => { x with msix := x.msix.filter (fun e => !decide (b.base ≤ e.1 ∧ e.1 < b.base + b.count)) })
      MbxRes.ok (s.bumpGen 5 slot)))

/-- VECTOR_BLOCK_REVOKE. -/
def execVectorBlockRevoke (r : MbxReq) (s : State) : Host.Outcome State Fault Refusal :=
  .next (s.mbxSubmit 0x0204#16 vectorBlockRevokeCmd r)

/-- SET_COALESCING (R305). -/
def setCoalescingCmd (_ : MbxCmd) (r : MbxReq) (s : State) : MbxRes :=
  r.guardH s 5 false [r.rsvBits 17 1, badIf (decide (1000 < r.p 18 2)) 18, r.rsv 20 44] (fun _ _ => s.writes) (fun slot owner t =>
    r.hem s (fun _ => MbxRes.ok (s.setTenant owner { t with blocks := t.blocks.map (fun (b : VecBlock) =>
      if handleSlot b.handle = slot then { b with timeCap := r.p 16 1, forceCd := r.bit 17 0, minGapUs := r.p 18 2 } else b) })))

/-- SET_COALESCING. -/
def execSetCoalescing (r : MbxReq) (s : State) : Host.Outcome State Fault Refusal :=
  .next (s.mbxSubmit 0x0206#16 setCoalescingCmd r)

end Sys2Proof.Machine
end

