-- ==== Sys2Proof/Machine/Placement.lean ====
section
/-! DEFINITION. Geometry, die-group sets, placement handles and conventional regions (R69-R104). -/

namespace Sys2Proof.Machine

/-! GEOMETRY_QUERY (R98). -/

/-- Bolts that every tenant's reservations and the float take in a group (R89, R100, R167). -/
def State.reservedIn' (s : State) (g : Nat) : Nat := s.host.tenants.foldl (fun n p => n + reservedBy p.2 g) 2

/-- User bolts of present groups that no tenant reserves, the floats apart (R98). -/
def State.unreserved (s : State) : Nat :=
  s.presentGroups.foldl (fun n g => n + (s.userPerGroup - s.reservedIn' g)) 0

/-- Failed dies of the present groups. -/
def State.failedDies (s : State) : Nat := s.presentGroups.foldl (fun n g => n + (s.failedCols g).length) 0

/-- A media field, zero without media (R98). -/
def State.ifMedia (s : State) (v : Nat) : Nat := if s.geo.media then v else 0

/-- The 128 bytes of R98. -/
def State.geometryArea (s : State) : List Byte :=
  let m := s.ifMedia
  let dp := s.dp
  let boot := if s.geo.recorded then s.geo.recordBoot else 0
  bytesLE 2 s.channels ++ bytesLE 1 (m s.geo.n) ++ bytesLE 1 s.groups ++ bytesLE 1 (m s.geo.dieType) ++ bytesLE 1 16 ++
    bytesLE 1 15 ++ bytesLE 1 (m dp.u) ++ bytesLE 4 (m dp.unitMib) ++ bytesLE 4 (m dp.rows) ++ bytesLE 4 (m dp.positions) ++
    bytesLE 4 (m 4) ++ bytesLE 4 (m 2) ++ bytesLE 4 s.logPerGroup ++ bytesLE 4 (m dp.spareBolts) ++
    bytesLE 4 (m s.userPerGroup) ++ bytesLE 4 s.userBolts ++ bytesLE 4 (m dp.zoneSize) ++ bytesLE 4 (m dp.zoneCap) ++
    bytesLE 4 s.convLimit ++ bytesLE 4 (m s.convAssigned) ++ bytesLE 4 s.unreserved ++
    bytesLE 4 (m (maskOf (s.geo.absent.filter (fun g => decide (g < s.groups))))) ++
    bytesLE 4 (maskOf (s.presentGroups.filter s.degraded)) ++ bytesLE 4 s.failedDies ++ bytesLE 4 boot ++ bytesLE 48 0

/-- GEOMETRY_QUERY (R98). -/
def geometryQueryCmd (_ : MbxCmd) (r : MbxReq) (s : State) : MbxRes :=
  r.guard0 s (r.bufOffences 16 24 128 ++ [r.rsv 28 36]) s.buffers (fun _ => r.buffer s 16 (fun _ =>
    MbxRes.ok (r.output s 16 24 s.geometryArea) 0 (fld 20 4 128)))

/-- GEOMETRY_QUERY. -/
def execGeometryQuery (r : MbxReq) (s : State) : Host.Outcome State Fault Refusal :=
  .next (s.mbxSubmit 0x0301#16 geometryQueryCmd r)

/-! DIEGROUP_ASSIGN (R93, R99). -/

/-- Whether a tenant holds a bolt of any use in a group. -/
def State.holdsIn (s : State) (slot g : Nat) : Bool :=
  decide (s.heldIn slot g ≠ 0) || (s.logBoltsOf slot).any (fun b => decide (boltGroup b = g))

/-- Whether a group set and mode clash with another tenant's (R88). -/
def State.setClash (s : State) (slot : Nat) (gs : List Nat) (exclusive : Bool) : Bool :=
  s.host.tenants.any (fun p => decide (p.1 ≠ slot) && (exclusive || p.2.exclusive) && meets gs p.2.groups)

/-- DIEGROUP_ASSIGN past its checks. -/
def diegroupAssignRun (r : MbxReq) (slot : Nat) (gs : List Nat) (s : State) : MbxRes :=
  let old := s.tenantD slot
  let q := r.p 24 4
  let s := s.setTenant slot { old with groups := gs, exclusive := decide (r.p 20 1 = 0), quota := q }
  let s := if q = old.quota then s else s.nsChange slot 1
  MbxRes.ok s.pump.tidy (s.handleOf 1 slot) (fld 20 4 (maskOf gs) + fld 24 4 (s.boltsHeld slot))

/-- DIEGROUP_ASSIGN (R99). -/
def diegroupAssignCmd (_ : MbxCmd) (r : MbxReq) (s : State) : MbxRes :=
  let mask := r.p 16 4
  let gs := bitsOf mask 32
  let q := r.p 24 4
  let ex := decide (r.p 20 1 = 0)
  let owner := s.tenantD (handleSlot r.target.toNat)
  let bad := [badIf (gs.any (fun g => !s.presentGroups.contains g) || (decide (mask = 0) && decide (q ≠ 0 ∨ owner.conv ≠ 0))) 16,
    outOf r 20 1 0 1, r.rsv 21 3, r.rsv 28 36]
  r.guardH s 1 false bad (fun slot t =>
      let holds := !(s.boltsOf slot).isEmpty
      let t' := { t with groups := gs, exclusive := ex, quota := q }
      (decide (ex ≠ t.exclusive) && holds, stConflict) ::
        (t.groups.any (fun g => !gs.contains g && s.holdsIn slot g), stConflict) ::
        (t.placements.any (fun p => decide (p.index ≠ 0) && p.mask.any (fun g => !gs.contains g)), stConflict) ::
        (s.setClash slot gs ex, stConflict) ::
        (decide (q < t.quota) && t.zones.any (fun z => decide (q ≤ z.1 ∧ z.2.st ≠ .zse)), stConflict) ::
        (!s.fits slot t', stPoolEmpty) :: s.writes)
    (fun slot _ _ => r.hem s (fun _ => diegroupAssignRun r slot gs s))

/-- DIEGROUP_ASSIGN. -/
def execDiegroupAssign (r : MbxReq) (s : State) : Host.Outcome State Fault Refusal :=
  settled (.next (s.mbxSubmit 0x0302#16 diegroupAssignCmd r))

/-! DIEGROUP_QUERY (R100). -/

/-- One entry of R100. TENANTS is one byte and saturates at 255 (DESIGN CHOICE, log 85). -/
def State.groupEntry (s : State) (g : Nat) : List Byte :=
  if !s.presentGroups.contains g then bytesLE 1 g ++ bytesLE 1 1 ++ bytesLE 30 0
  else
    let ts := s.host.tenants.filter (fun p => p.2.groups.contains g)
    let ex := ts.find? (fun p => p.2.exclusive)
    let held := ts.foldl (fun n p => n + s.heldIn p.1 g) 0
    bytesLE 1 g ++ bytesLE 1 (if s.degraded g then 2 else 0) ++
      bytesLE 1 (if ts.isEmpty then 0 else if ex.isSome then 1 else 2) ++ bytesLE 1 (min 255 ts.length) ++
      bytesLE 4 (match ex with | none => 0 | some p => s.handleOf 1 p.1) ++ bytesLE 4 s.userPerGroup ++
      bytesLE 4 (s.reservedIn' g) ++ bytesLE 4 held ++ bytesLE 4 (s.erasedCount g) ++
      bytesLE 4 ((minOf ((s.groupDies g).map s.spareLeft)).getD 0) ++ bytesLE 1 (s.failedCols g).length ++ bytesLE 3 0

/-- DIEGROUP_QUERY (R100). -/
def diegroupQueryCmd (_ : MbxCmd) (r : MbxReq) (s : State) : MbxRes :=
  r.guard0 s (r.bufOffences 16 24 (32 * s.groups) ++ [r.rsv 28 36]) s.buffers (fun _ => r.buffer s 16 (fun _ =>
    MbxRes.ok (r.output s 16 24 ((List.range s.groups).flatMap s.groupEntry)) 0 (fld 20 1 s.groups)))

/-- DIEGROUP_QUERY. -/
def execDiegroupQuery (r : MbxReq) (s : State) : Host.Outcome State Fault Refusal :=
  .next (s.mbxSubmit 0x0303#16 diegroupQueryCmd r)

/-! Placement handles (R90, R101-R103). -/

/-- PLACEMENT_CREATE (R101). -/
def placementCreateCmd (_ : MbxCmd) (r : MbxReq) (s : State) : MbxRes :=
  let i := r.p 16 1
  let mask := r.p 20 4
  let gs := bitsOf mask 32
  r.guardH s 1 false [outOf r 16 1 1 63, r.rsv 17 3, badIf (decide (mask = 0) || gs.any (fun g => decide (s.groups ≤ g))) 20, r.rsv 24 40]
    (fun _ t => (gs.any (fun g => !t.groups.contains g), stConflict) :: (t.placements.any (fun p => decide (p.index = i)), stConflict) ::
      s.writes)
    (fun slot _ t => r.hem s (fun _ =>
      MbxRes.ok (s.setTenant slot { t with placements := t.placements ++ [⟨i, gs, 0⟩] }) (s.handleOf 3 (slot * 64 + i))
        (fld 20 4 mask)))

/-- PLACEMENT_CREATE. -/
def execPlacementCreate (r : MbxReq) (s : State) : Host.Outcome State Fault Refusal :=
  .next (s.mbxSubmit 0x0304#16 placementCreateCmd r)

/-- Zones bound under a placement handle as it stands (R102, R103). -/
def State.zonesUnder (s : State) (slot : Nat) (t : Tenant) : Nat :=
  (t.zones.filter (fun z => decide (z.2.bolt.isSome ∧ z.2.handle = slot % 64 ∧ z.2.handleGen = s.gen 3 slot))).length

/-- PLACEMENT_DESTROY (R102). -/
def placementDestroyCmd (_ : MbxCmd) (r : MbxReq) (s : State) : MbxRes :=
  r.guardH s 3 false [r.rsv 16 48] (fun slot _ => (decide (slot % 64 = 0), stNotPermitted) :: s.writes) (fun slot owner t =>
    r.hem s (fun _ =>
      let n := s.zonesUnder slot t
      let s := { s with bolts.rr := Tab.del s.bolts.rr slot }
      let s := s.setTenant owner { t with placements := t.placements.filter (fun p => decide (p.index ≠ slot % 64)) }
      MbxRes.ok (s.bumpGen 3 slot) r.target.toNat (fld 20 4 n)))

/-- PLACEMENT_DESTROY. -/
def execPlacementDestroy (r : MbxReq) (s : State) : Host.Outcome State Fault Refusal :=
  .next (s.mbxSubmit 0x0305#16 placementDestroyCmd r)

/-- PLACEMENT_QUERY (R103). -/
def placementQueryCmd (_ : MbxCmd) (r : MbxReq) (s : State) : MbxRes :=
  r.guardH s 3 false [r.rsv 16 48] (fun _ _ => []) (fun slot _ t =>
    let p := (t.placement (slot % 64)).getD default
    let gs := if slot % 64 = 0 then t.groups else p.mask
    MbxRes.ok s r.target.toNat (fld 20 4 (maskOf gs) + fld 24 4 (s.zonesUnder slot t) + fld 28 4 p.fallback))

/-- PLACEMENT_QUERY. -/
def execPlacementQuery (r : MbxReq) (s : State) : Host.Outcome State Fault Refusal :=
  .next (s.mbxSubmit 0x0306#16 placementQueryCmd r)

/-! CONV_REGION_SET (R104). -/

/-- CONV_REGION_SET (R104): a shrink waits for writes to the range it discards. -/
def convRegionSetCmd (c : MbxCmd) (r : MbxReq) (s : State) : MbxRes :=
  let n := r.p 16 4
  r.guardH s 1 false [r.rsv 20 44] (fun slot t =>
      let t' := { t with conv := n }
      let more := decide (t.conv < n)
      (decide (n ≠ 0) && t.groups.isEmpty, stConflict) ::
        (more && (decide (s.convLimit < s.sumOthers slot (·.conv) + n) || !s.fits slot t'), stPoolEmpty) :: s.writes)
    (fun slot _ t => r.hem s (fun _ =>
      let s := s.setTenant slot { t with convCmd := some c }
      MbxRes.goesOn (s.convGo slot)))

/-- CONV_REGION_SET. -/
def execConvRegionSet (r : MbxReq) (s : State) : Host.Outcome State Fault Refusal :=
  settled (.next (s.mbxSubmit 0x0307#16 convRegionSetCmd r))

end Sys2Proof.Machine
end

