-- ==== Sys2Proof/Machine/Keys.lean ====
section
/-! DEFINITION. Key slots and wrapped keys (R320-R333, R342-R347). -/

namespace Sys2Proof.Machine

/-- A key command: BAD_OPCODE on N variants (R62), BUSY_RETRY while a crypto erase runs (R337). -/
def State.keyCmd (s : State) (act : List (Bool × Nat) → MbxRes) : MbxRes :=
  if s.cipher then act [(s.san.s.running && decide (s.san.s.action = 4), stBusyRetry)] else MbxRes.err s stBadOpcode

/-- Whether a blob fails step 1 or 2 of R332 for a key slot. -/
def State.blobBad (s : State) (b : List Byte) (slot : Nat) : Bool :=
  decide (bufNum b 0 4 ≠ 0x424B5754 ∨ bufNum b 4 2 ≠ 1 ∨ bufNum b 6 2 ≠ 160 ∨ bufNum b 13 1 ≠ 1 ∨ bufNum b 14 2 ≠ 0 ∨
    bufNum b 113 7 ≠ 0 ∨ bufNum b 8 4 ≠ s.handleOf 1 (slot / 2) ∨ bufNum b 12 1 ≠ slot % 2)

/-- A number of big-endian bytes. -/
def numBE (bs : List Byte) : Nat := numLE bs.reverse

/-- X and Y of a blob's EPHEMERAL (R328). -/
def ephemeral (b : List Byte) : Nat × Nat := (numBE ((b.drop 17).take 48), numBE ((b.drop 65).take 48))

/-- The prime of P-384. -/
def p384 : Nat := 2 ^ 384 - 2 ^ 128 - 2 ^ 96 + 2 ^ 32 - 1

/-- The coefficient b of P-384. -/
def b384 : Nat := 0xb3312fa7e23ee7e4988e056be3f82d19181d9c6efe8141120314088f5013875ac656398d8a2ed19d2a85c8edd3ec2aef

/-- Whether EPHEMERAL is an uncompressed point of P-384 other than the point at infinity, which has no such form (R332 step 3). -/
def ephemeralOk (b : List Byte) : Bool :=
  let (x, y) := ephemeral b
  decide (bufNum b 16 1 = 4 ∧ x < p384 ∧ y < p384 ∧ y * y % p384 = (x * x * x + (p384 - 3) * x + b384) % p384)

/-- FixedInfo: "THRUMYA-KEK1" and bytes 0-15 of the blob (R329 step 2). -/
def fixedInfo (b : List Byte) : List Byte :=
  [0x54#8, 0x48#8, 0x52#8, 0x55#8, 0x4D#8, 0x59#8, 0x41#8, 0x2D#8, 0x4B#8, 0x45#8, 0x4B#8, 0x31#8] ++ b.take 16

/-- The KEK of a blob: the leftmost 32 bytes of the digest of the counter, the shared secret and FixedInfo (R329). -/
def State.kek (s : State) (b : List Byte) : Nat :=
  let (x, y) := ephemeral b
  Config.sha384 ([0#8, 0#8, 0#8, 1#8] ++ Config.ecdh (s.hem.dkx.getD 0) x y ++ fixedInfo b) / 2 ^ 128

/-- What the Thimble unwraps of a blob: the integrity check passes under the KEK that WRAPPED was made with, and under no other
(R329, R331, R332 steps 3 and 4; log 7). -/
def State.unwrapped (s : State) (r : MbxReq) (b : List Byte) : Option (BitVec 256) :=
  match r.env.unwrap with
  | none => none
  | some (k, key) => if ephemeralOk b ∧ k = s.kek b then some key else none

/-- STATE of a key slot (R341). -/
def keyStNo : KeySt → Nat
  | .empty => 0
  | .write => 1
  | .read => 2

/-- A key loaded into a slot, which is then in WRITE (R333). -/
def State.loadKey (s : State) (owner k : Nat) (key : BitVec 256) : State :=
  (s.updTenant owner (fun t => { t with keys := t.keys.set k ⟨.write, some key, some (key, s.hem.keyStoreKey), false, 0⟩ })).c8 owner 2

/-- The checks and the load that KEY_LOAD and KEY_REKEY_BEGIN share (R332, R333, R342, R343). -/
def loadCmd (r : MbxReq) (s : State) (conflict : Nat → Tenant → Bool) (done : Nat → Nat → State → MbxRes) : MbxRes :=
  s.keyCmd (fun busy =>
    let h := r.target.toNat
    let t := s.tenantD ((s.handleOwner h).getD 0)
    let blob := r.input 160
    let bad := [badIf (s.handleBad 4 h) 8, badIf (decide (r.p 16 8 % 64 ≠ 0)) 16, badIf (decide (r.p 24 4 ≠ 160)) 24, r.rsv 28 36,
      r.badInput s (decide (r.p 24 4 = 160) && s.blobBad blob (handleSlot h)) 16]
    let rest := [(s.handleStale 4 h, stStale), ((s.unwrapped r blob).isNone, stAuthFail), (t.frozen, stFrozen),
      (conflict (handleSlot h % 2) t, stConflict)] ++ busy ++ s.buffers ++ s.writes
    r.guard s bad rest (fun _ => r.hem s (fun _ =>
      let owner := handleSlot h / 2
      done owner (handleSlot h % 2) (s.loadKey owner (handleSlot h % 2) ((s.unwrapped r blob).getD 0#256)))))

/-- KEY_LOAD (R342). -/
def keyLoadCmd (_ : MbxCmd) (r : MbxReq) (s : State) : MbxRes :=
  loadCmd r s (fun k t => decide ((t.key k).st ≠ .empty) || t.writeSlot.isSome) (fun _ _ s =>
    MbxRes.ok s r.target.toNat (fld 20 1 1))

/-- KEY_LOAD. -/
def execKeyLoad (r : MbxReq) (s : State) : Host.Outcome State Fault Refusal := .next (s.mbxSubmit 0x0401#16 keyLoadCmd r)

/-- KEY_REKEY_BEGIN (R343): the other slot passes to READ in the same step. -/
def keyRekeyBeginCmd (_ : MbxCmd) (r : MbxReq) (s : State) : MbxRes :=
  loadCmd r s (fun k t => decide ((t.key k).st ≠ .empty ∨ (t.key (1 - k)).st ≠ .write)) (fun owner k s =>
    let s := s.updTenant owner (fun t => { t with keys := t.keys.set (1 - k) { t.key (1 - k) with st := .read } })
    MbxRes.ok s r.target.toNat (fld 20 1 1 + fld 24 4 (s.handleOf 4 (2 * owner + (1 - k)))))

/-- KEY_REKEY_BEGIN. -/
def execKeyRekeyBegin (r : MbxReq) (s : State) : Host.Outcome State Fault Refusal :=
  .next (s.mbxSubmit 0x0402#16 keyRekeyBeginCmd r)

/-- A slot emptied: with a failed Hem program the command answers MEDIA_FAULT, and the slot is EMPTY all the same (R345). -/
def emptyKey (r : MbxReq) (owner k : Nat) (result : Nat) (s : State) : MbxRes :=
  let s1 := s.destroyKey owner k r.env.hemOk
  let h := s1.handleOf 4 (2 * owner + k)
  if r.env.hemOk then MbxRes.ok s1 h result
  else { state := s1.hemFailed, status := some stMediaFault, handle := h, result := result }

/-- ZONES and CONV_SECTORS of a slot, as completions give them. -/
def State.keyCounts (s : State) (owner k : Nat) : Nat × Nat :=
  (s.zonesOfKey owner k, min ((s.tenantD owner).key k).conv 0xFFFFFFFF)

/-- KEY_REKEY_END (R344): the counts and the handle are reported with every status of a valid handle. -/
def keyRekeyEndCmd (_ : MbxCmd) (r : MbxReq) (s : State) : MbxRes :=
  s.keyCmd (fun busy =>
    let h := r.target.toNat
    let owner := handleSlot h / 2
    let k := handleSlot h % 2
    let (z, n) := s.keyCounts owner k
    let out := fld 20 4 z + fld 24 4 n
    let res := r.guardH s 4 false [r.rsvBits 16 1, r.rsv 17 47] (fun _ t =>
        (decide ((t.key k).st ≠ .read), stConflict) :: (!r.bit 16 0 && decide (z ≠ 0 ∨ n ≠ 0), stConflict) :: busy ++ s.writes)
      (fun _ _ _ => emptyKey r owner k out s)
    if s.handleBad 4 h || s.handleStale 4 h || res.handle ≠ 0 then res else { res with handle := h, result := out })

/-- KEY_REKEY_END. -/
def execKeyRekeyEnd (r : MbxReq) (s : State) : Host.Outcome State Fault Refusal :=
  .next (s.mbxSubmit 0x0403#16 keyRekeyEndCmd r)

/-- KEY_DESTROY (R345). -/
def keyDestroyCmd (_ : MbxCmd) (r : MbxReq) (s : State) : MbxRes :=
  s.keyCmd (fun busy => r.guardH s 4 false [r.rsv 16 48] (fun _ _ => busy ++ s.writes) (fun slot owner t =>
    let k := slot % 2
    let st := (t.key k).st
    let out := fld 20 1 (keyStNo st) + fld 24 4 (s.keyCounts owner k).1
    if st = .empty then MbxRes.ok s r.target.toNat out else emptyKey r owner k out s))

/-- KEY_DESTROY. -/
def execKeyDestroy (r : MbxReq) (s : State) : Host.Outcome State Fault Refusal :=
  .next (s.mbxSubmit 0x0404#16 keyDestroyCmd r)

/-- KEY_QUERY (R346). -/
def keyQueryCmd (_ : MbxCmd) (r : MbxReq) (s : State) : MbxRes :=
  s.keyCmd (fun busy => r.guardH s 4 true [r.rsv 16 48] (fun _ _ => busy) (fun slot owner t =>
    let (z, n) := s.keyCounts owner (slot % 2)
    MbxRes.ok s r.target.toNat (fld 20 1 (keyStNo (t.key (slot % 2)).st) + fld 21 1 (keyStNo (t.key (1 - slot % 2)).st) +
      fld 24 4 z + fld 28 4 n)))

/-- KEY_QUERY. -/
def execKeyQuery (r : MbxReq) (s : State) : Host.Outcome State Fault Refusal :=
  .next (s.mbxSubmit 0x0405#16 keyQueryCmd r)

/-- The 128 bytes of R347. -/
def State.wrapArea (s : State) : List Byte :=
  bytesLE 1 4 ++ bytesLE 96 (Config.dkxPublic (s.hem.dkx.getD 0)) ++ bytesLE 3 0 ++ bytesLE 1 1 ++ bytesLE 1 1 ++ bytesLE 1 1 ++
    bytesLE 1 0 ++ bytesLE 4 160 ++ bytesLE 4 6 ++ bytesLE 16 0

/-- WRAP_KEY_INFO (R347). -/
def wrapKeyInfoCmd (_ : MbxCmd) (r : MbxReq) (s : State) : MbxRes :=
  s.keyCmd (fun busy =>
    let h := r.p 16 4
    let named := decide (h ≠ 0)
    let bad := [badIf (named && s.handleBad 1 h) 16, r.rsv 20 4] ++ r.bufOffences 24 32 128 ++ [r.rsv 36 28]
    r.guard0 s bad ((named && s.handleStale 1 h, stStale) :: busy ++ s.buffers) (fun _ => r.buffer s 24 (fun _ =>
      let k := 2 * handleSlot h
      MbxRes.ok (r.output s 24 32 s.wrapArea) 0
        (if named then fld 20 4 (s.handleOf 4 k) + fld 24 4 (s.handleOf 4 (k + 1)) else 0))))

/-- WRAP_KEY_INFO. -/
def execWrapKeyInfo (r : MbxReq) (s : State) : Host.Outcome State Fault Refusal :=
  .next (s.mbxSubmit 0x0406#16 wrapKeyInfoCmd r)

end Sys2Proof.Machine
end

