-- ==== Sys2Proof/Machine/Freeze.lean ====
section
/-! DEFINITION. Freezing, snapshots, restoring and thawing a tenant (R283-R291, R306-R309). -/

namespace Sys2Proof.Machine

/-- TIMEOUT_MS as it counts: 0 means 100 (R306). -/
def freezeLimit (v : Nat) : Nat := if v = 0 then 100 else v

/-- What an activation does to a command on an unfrozen tenant (R291). -/
def State.frozenOr (s : State) (t : Tenant) : List (Bool × Nat) := [(!t.frozen && decide (s.hem.actStep ≠ 0), stBusyRetry)]

/-! Steps 1 to 3 (R284). -/

/-- A queue HELD with its ungranted entries returned (R284). -/
def Sq.heldBack (q : Sq) : Sq :=
  { q with
    st := if q.st = .deleting then .deleting else .held
    landings := q.pre.map (fun e => (1, e.landedUs)) ++ q.landings
    fetchPtr := q.head
    pre := []
    fetching := 0
    stale := q.tags }

/-- A parked command returned to its queue: its Tack entry is free and the fetch pointer moves back to it (R284). -/
def State.unpark (s : State) (f : FnId) (w : Wr) : State :=
  let o := (s.fn f).outOf w.sqid w.cid
  let s := (s.dropWrite w.id).releaseTack w.id
  match o with
  | none => s
  | some o => s.updFn f (fun x =>
      { x.updSq w.sqid (fun (q : Sq) => { q with fetchPtr := o.index, landings := (1, o.landedUs) :: q.landings }) with
        granted := x.granted.filter (fun p => !decide (p.sqid = w.sqid ∧ p.cid = w.cid)) })

/-- TENANT_FREEZE past its checks: the queues are HELD, what was not granted is returned, and partial chunks are spilled. -/
def State.freeze (s : State) (slot : Nat) (f : FnId) (c : MbxCmd) (limitMs : Nat) : State :=
  let s := s.updTenant slot (fun t => { t with
    frozen := true
    freezing := true
    freezeUs := s.now
    freezeLimitMs := limitMs
    freezeCmd := some c })
  let s := s.updFn f (fun x => { x with sqs := x.sqs.map Sq.heldBack })
  let ws := s.wr.writes.filter (fun w => decide (w.tenant = slot ∧ (w.stage = .parked ∨ w.stage = .gated)))
  let s := ws.foldl (fun s w => s.unpark f w) s
  ((s.wr.partials.filter (fun p => decide (p.tenant = slot))).foldl (fun s p => s.spillPartial p) s).pump

/-- TENANT_FREEZE (R306). -/
def tenantFreezeCmd (c : MbxCmd) (r : MbxReq) (s : State) : MbxRes :=
  let ms := r.p 16 4
  r.guardH s 1 false [badIf (decide (ms ≠ 0 ∧ (ms < 10 ∨ 10000 < ms))) 16, r.rsv 20 44] (fun slot t =>
      (isBase slot, stNotPermitted) :: ((s.freeSlot 6).isNone, stPoolEmpty) :: s.frozenOr t ++ s.writes)
    (fun slot _ t => r.hem s (fun _ => match t.fn with
      | none => MbxRes.err s stConflict
      | some f => MbxRes.goesOn (s.freeze slot f c (freezeLimit ms))))

/-- TENANT_FREEZE. -/
def execTenantFreeze (r : MbxReq) (s : State) : Host.Outcome State Fault Refusal :=
  settled (.next (s.mbxSubmit 0x0501#16 tenantFreezeCmd r))

/-! Steps 4 to 6 and the rollback (R284-R286). -/

/-- Completions of a function that wait for queue space. -/
def Fn.waiting (x : Fn) : Nat := x.cqs.foldl (fun n q => n + q.waiting.length) 0

/-- Whether the granted commands of a freezing tenant have all completed, and few enough completions wait (R284). -/
def State.freezeDrained (s : State) (slot : Nat) (f : FnId) : Bool :=
  (s.fn f).granted.isEmpty && s.host.granted.all (fun p => decide (p.1 ≠ f)) &&
    s.wr.writes.all (fun w => decide (w.tenant ≠ slot)) && s.wr.sends.all (fun x => decide (x.tenant ≠ slot)) &&
    s.rd.reads.all (fun x => decide (x.tenant ≠ slot)) && decide ((s.fn f).waiting ≤ 16384)

/-- Every coalescing timer of a function expires, and every message due is issued (R284). -/
def State.flushVectors (s : State) (f : FnId) : State :=
  ((s.fn f).msix.filter (fun e => decide (e.2.unsig ≠ 0) || e.2.gap)).foldl (fun s e => s.issueMsix f e.1) s

/-- BLOB_LEN of a snapshot (R287). -/
def Snap.blobLen (x : Snap) : Nat := 512 + 64 * x.pairs + 16 * x.vectors + 16 * x.fn.waiting + 16

/-- The state of a drained tenant captured into a free snapshot slot, its waiting completions with it (R284, R286). -/
def State.capture (s : State) (slot k : Nat) (f : FnId) : State :=
  let s := s.flushVectors f
  let (_, s) := s.draw
  let t := s.tenantD slot
  let x := s.fn f
  let snap : Snap := { (default : Snap) with
    slot := k
    tenant := slot
    handle := s.handleOf 1 slot
    seq := t.freezeSeq
    fnId := f
    vectors := t.vectors
    pairs := t.qpairs.length + 1
    fn := x
    us := s.now
    boot := s.hem.bootCount
    quarantined := t.quarantined
    sealNo := s.fresh - 1
    held := true
    here := true }
  let s := { s with host.snaps := s.host.snaps ++ [snap] }
  let s := s.setFn f { x with cqs := x.cqs.map (fun (q : Cq) => { q with waiting := [] }) }
  let s := s.updTenant slot (fun t => { t with
    freezing := false
    freezeCmd := none
    buckets := (List.range 4).map (fun i => t.bucket i s.now) })
  match t.freezeCmd with
  | none => s
  | some c => s.mbxFinish c stOk 0xFFFF (s.handleOf 6 k) (fld 20 4 snap.blobLen + fld 24 4 (s.now - t.freezeUs) + fld 28 4 t.freezeSeq)

/-- FREEZE_CAPTURE (R284): the drain of a freeze has ended. -/
def execFreezeCapture (tenant t : Nat) (s : State) : Host.Outcome State Fault Refusal :=
  let u := s.atTime t
  let x := u.tenantD tenant
  match x.fn, u.freeSlot 6 with
  | some f, some k => if x.freezing && u.freezeDrained tenant f then settled (.next (u.capture tenant k f)) else .next s
  | _, _ => .next s

/-- A tenant unfrozen: its queues return to ACTIVE, or to quarantine where that has come to hold (R280, R285, R290). -/
def State.unfreeze (s : State) (slot : Nat) : State :=
  let s := s.updTenant slot (fun t => { t with frozen := false, freezing := false, freezeCmd := none })
  match (s.tenantD slot).fn with
  | none => s
  | some f =>
    if (s.tenantD slot).quarantined then
      let s := s.updFn f (fun x => x.updSq 0 (fun (q : Sq) => { q with st := if q.st = .held then .active else q.st }))
      (s.quarantineEffects slot).tryFetchAll f
    else s.unhold slot f

/-- FREEZE_TIMEOUT (R285): the freeze is rolled back, its token levels unchanged. -/
def execFreezeTimeout (tenant t : Nat) (s : State) : Host.Outcome State Fault Refusal :=
  let u := s.atTime t
  let x := u.tenantD tenant
  match x.fn with
  | none => .next s
  | some f =>
    if x.freezing && decide (x.freezeUs + x.freezeLimitMs * 1000 ≤ u.now) && !u.freezeDrained tenant f then
      let u := u.unfreeze tenant
      settled (.next (match x.freezeCmd with
        | none => u
        | some c => u.mbxFinish c stTimeout 0xFFFF 0 0))
    else .next s

/-! Snapshots (R287, R288, R307). -/

/-- The snapshot in a slot. -/
def State.snapIn (s : State) (k : Nat) : Snap := (s.host.snaps.find? (fun x => decide (x.slot = k) && x.held)).getD default

/-- The blob of a snapshot: its header, then bytes that the spec leaves to Claind and the seal (R287, log 7). -/
def Snap.blob (x : Snap) : List Byte :=
  bytesLE 4 0x504E5354 ++ bytesLE 2 1 ++ bytesLE 2 128 ++ bytesLE 4 x.blobLen ++ bytesLE 4 x.handle ++ bytesLE 4 x.seq ++
    bytesLE 2 x.pairs ++ bytesLE 2 x.vectors ++ bytesLE 4 x.fn.waiting ++ bytesLE 1 (portNo x.fnId.port) ++ bytesLE 1 0 ++
    bytesLE 2 x.fnId.vf ++ bytesLE 8 x.us ++ bytesLE 8 (Config.digest 100 x.boot) ++ bytesLE 12 (Config.freeNat x.sealNo) ++
    bytesLE 68 0 ++ bytesLE (x.blobLen - 128) (Config.freeNat x.sealNo / 2 ^ 96)

/-- SNAPSHOT_READ (R307). -/
def snapshotReadCmd (_ : MbxCmd) (r : MbxReq) (s : State) : MbxRes :=
  let len := (s.snapIn (handleSlot r.target.toNat)).blobLen
  let short := match s.checkHandle 6 r.target.toNat with | .valid _ _ => decide (r.p 24 4 < len) | _ => false
  r.guardH s 6 true (r.bufOffences 16 24 0 ++ [badIf short 24, r.rsv 28 36]) (fun _ _ => s.buffers) (fun slot _ _ =>
    r.buffer s 16 (fun _ => MbxRes.ok (r.output s 16 24 (s.snapIn slot).blob) 0 (fld 20 4 len)))

/-- SNAPSHOT_READ. -/
def execSnapshotRead (r : MbxReq) (s : State) : Host.Outcome State Fault Refusal :=
  .next (s.mbxSubmit 0x0502#16 snapshotReadCmd r)

/-- A snapshot's handle destroyed; what it recorded stays for the thaw (R289, R307). -/
def State.dropSnap (s : State) (slot : Nat) : State :=
  match s.snapOf slot with
  | none => s
  | some x =>
    ({ s with host.snaps := s.host.snaps.map (fun (y : Snap) => if y.tenant = slot then { y with held := false } else y) } : State).bumpGen 6 x.slot

/-- SNAPSHOT_DISCARD (R307). -/
def snapshotDiscardCmd (_ : MbxCmd) (r : MbxReq) (s : State) : MbxRes :=
  r.guardH s 6 true [r.rsv 16 48] (fun _ _ => s.acts) (fun _ owner _ => MbxRes.ok (s.dropSnap owner))

/-- SNAPSHOT_DISCARD. -/
def execSnapshotDiscard (r : MbxReq) (s : State) : Host.Outcome State Fault Refusal :=
  .next (s.mbxSubmit 0x0503#16 snapshotDiscardCmd r)

/-! TENANT_RESTORE (R289, R308). -/

/-- The function as a snapshot records it, written into its target, whose PCIe command bits and error log stay (R286, R289). -/
def restoredFn (x : Snap) (target : Fn) : Fn :=
  { x.fn with
    bme := target.bme
    mse := target.mse
    msixEn := target.msixEn
    fmask := target.fmask
    errs := target.errs
    errCount := target.errCount
    vevents := target.vevents
    vcount := target.vcount
    vpend := target.vpend
    granted := []
    cqs := x.fn.cqs.map (fun (q : Cq) => { q with waiting := [] })
    sqs := x.fn.sqs.map (fun (q : Sq) => { q with st := .held, pre := [], fetching := 0, tags := 0, asked := [], stale := 0 }) }

/-- TENANT_RESTORE past its checks. -/
def State.restore (s : State) (x : Snap) (f : FnId) : State :=
  let s : State := match (s.tenantD x.tenant).fn with
    | none => s
    | some old => ((s.deleteQueues old).resetRegs old false).updFn old (fun y => { y with msix := [] })
  let s := s.updTenant x.tenant (fun t => { t with fn := some f })
  let s := s.setFn f (restoredFn x (s.fn f))
  let s := { s with host.snaps := s.host.snaps.map (fun (y : Snap) => if y.tenant = x.tenant then { y with here := true } else y) }
  s.dropSnap x.tenant

/-- The tenant slot and freeze sequence that a restore's source names, and the VERSION of a blob. -/
def MbxReq.source (r : MbxReq) (s : State) : Nat × (Nat × Nat) :=
  if r.p 16 1 = 0 then
    let x := s.snapIn (handleSlot (r.p 20 4))
    (x.tenant, (x.seq, 1))
  else
    let b := r.input (r.p 32 4)
    (handleSlot (bufNum b 12 4), (bufNum b 16 4, bufNum b 4 2))

end Sys2Proof.Machine

namespace Sys2Proof

open Machine

/-- The offences of a restore's source fields (R308). -/
def MbxReq.sourceOffences (r : MbxReq) (s : State) : List (Option Nat) :=
  if r.p 16 1 = 0 then
    [badIf (s.handleBad 6 (r.p 20 4)) 20, badIf (decide (r.p 24 8 ≠ 0)) 24, badIf (decide (r.p 32 4 ≠ 0)) 32]
  else
    let b := r.input (r.p 32 4)
    [badIf (decide (r.p 20 4 ≠ 0)) 20] ++ r.bufOffences 24 32 128 ++
      [r.badInput s (decide (bufNum b 0 4 ≠ 0x504E5354) || s.handleBad 1 (bufNum b 12 4)) 24, badIf (s.bme && decide (bufNum b 8 4 ≠ r.p 32 4)) 32]

end Sys2Proof

namespace Sys2Proof.Machine

/-- TENANT_RESTORE (R308). -/
def tenantRestoreCmd (_ : MbxCmd) (r : MbxReq) (s : State) : MbxRes :=
  let snapSrc := decide (r.p 16 1 = 0)
  let (slot, (seq, version)) := MbxReq.source r s
  let p := portOf (r.p 17 1)
  let vf := s.pickVf p (r.p 18 2)
  let f : FnId := ⟨p, vf.getD 0⟩
  let t := s.tenantD slot
  let rec? := s.host.snaps.find? (fun x => decide (x.tenant = slot ∧ x.seq = seq))
  let stale := if snapSrc then s.handleStale 6 (r.p 20 4) else s.bme && s.handleStale 1 (bufNum (r.input (r.p 32 4)) 12 4)
  let y := s.fn f
  let bad := [outOf r 16 1 0 1, outOf r 17 1 0 1, badIf (decide (r.p 18 2 = 0 ∨ (1023 < r.p 18 2 ∧ r.p 18 2 ≠ 0xFFFF))) 18] ++
    r.sourceOffences s ++ [r.rsv 36 28]
  let rest := [(stale, stStale), (vf.isSome && (!y.bme || (decide (t.vectors ≠ 0) && !y.msixEn)), stNotPermitted),
    (!snapSrc && (!r.env.sigOk || (s.bme && decide (bufNum (r.input (r.p 32 4)) 40 8 ≠ Config.digest 100 s.hem.bootCount % 2 ^ 64)) || (rec?.isNone && decide (seq = t.freezeSeq))), stAuthFail), (!t.frozen || t.freezing, stConflict), (decide (seq ≠ t.freezeSeq), stConflict),
    (decide (version ≠ 1), stConflict), (s.host.joined && decide (r.p 17 1 = 1), stConflict),
    (s.host.tenants.any (fun q => decide (q.1 ≠ slot ∧ q.2.fn = some f)), stConflict), (vf.isNone, stPoolEmpty)] ++ (if snapSrc then [] else s.buffers) ++ s.writes
  r.guard0 s bad rest (fun _ => match rec? with
    | none => MbxRes.err s stAuthFail
    | some x => r.hem s (fun _ =>
      MbxRes.ok (s.restore x f) (s.handleOf 1 slot) (fld 20 1 (r.p 17 1) + fld 22 2 f.vf)))

/-- TENANT_RESTORE. -/
def execTenantRestore (r : MbxReq) (s : State) : Host.Outcome State Fault Refusal :=
  .next (s.mbxSubmit 0x0504#16 tenantRestoreCmd r)

/-! TENANT_THAW (R290, R309). -/

/-- The recorded completions of a tenant's snapshot written again, in order, as space allows; a reset of the function since
has deleted the queues they wait for (R278). -/
def State.thawCompletions (s : State) (slot : Nat) : State :=
  match (s.tenantD slot).fn, s.host.snaps.find? (fun x => decide (x.tenant = slot) && x.here) with
  | some f, some x =>
    x.fn.cqs.foldl (fun s q =>
      let s := s.updFn f (fun y => y.updCq q.qid (fun (z : Cq) => { z with waiting := q.waiting ++ z.waiting }))
      s.drainCq q.waiting.length f q.qid) s
  | _, _ => s

/-- TENANT_THAW past its checks. -/
def State.thaw (s : State) (slot : Nat) : State :=
  let s := (s.thawCompletions slot).dropSnap slot
  let s := { s with host.snaps := s.host.snaps.filter (fun x => decide (x.tenant ≠ slot)) }
  let s := s.updTenant slot (fun t => { t with
    freezeSeq := (t.freezeSeq + 1) % 2 ^ 32
    buckets := t.buckets.map (fun (b : TokBucket) => { b with atUs := s.now }) })
  s.unfreeze slot

/-- TENANT_THAW (R309). -/
def tenantThawCmd (_ : MbxCmd) (r : MbxReq) (s : State) : MbxRes :=
  r.guardH s 1 true [r.rsv 16 48] (fun _ t => (!t.frozen, stConflict) :: s.frozenOr t ++ s.writes) (fun slot _ t => r.hem s (fun _ =>
    MbxRes.ok (s.thaw slot) 0 (fld 20 4 (t.freezeSeq + 1))))

/-- TENANT_THAW. -/
def execTenantThaw (r : MbxReq) (s : State) : Host.Outcome State Fault Refusal :=
  settled (.next (s.mbxSubmit 0x0505#16 tenantThawCmd r))

end Sys2Proof.Machine
end

