-- ==== Sys2Proof/Machine/Thermal.lean ====
section
/-! DEFINITION. The stitch gauge (R23-R28, R222), the temperature sensors, thresholds, commas, thermal hold and shutdown
(R474-R490), and THERMAL_CONFIG (R504). -/

namespace Sys2Proof.Machine

/-! The stitch gauge. -/

/-- A window counts as measured at a new VCORE level when it began after the settling wait; the eighth ends the hold of the
working pace (R27). One whose reading is discarded counts too (DESIGN CHOICE, log 83). -/
def State.gaugeHold (s : State) : State :=
  match s.gauge.hold with
  | none => s
  | some _ =>
    if s.pow.settling ∨ s.now < s.pow.settledUs + 1 then s
    else if s.gauge.newWindows < 7 then { s with gauge.newWindows := s.gauge.newWindows + 1 }
    else { s with gauge.hold := none, gauge.newWindows := 0 }

/-- A discarded reading; the eighth in a row is a gauge fault (R222). It breaks a run of windows below the floor (DESIGN CHOICE,
log 83). -/
def State.gaugeDiscard (s : State) : State :=
  let run := min 8 (s.gauge.discardRun + 1)
  let s := { s with
    gauge.discards := min (s.gauge.discards + 1) (2 ^ 64 - 1)
    gauge.discardRun := run
    gauge.validRun := 0
    gauge.below := 0 }
  if run = 8 ∧ !s.gauge.fault then
    ({ s with gauge.fault := true, gauge.seen := true } : State).selvedge { source := 4, code := 0x42, answer := 3 }
  else s

/-- A valid reading enters the working pace and the pace figures (R26, R222, R493). -/
def State.gaugeReading (s : State) (x : Nat) : State :=
  let run := min 8 (s.gauge.validRun + 1)
  let lo := if s.gauge.minR = 0 then x else min s.gauge.minR x
  let s := { s with
    gauge.now := x
    gauge.minR := lo
    gauge.maxR := max s.gauge.maxR x
    gauge.last8 := (x :: s.gauge.last8).take 8
    gauge.discardRun := 0
    gauge.validRun := run
    gauge.fault := s.gauge.fault && decide (run < 8) }
  (s.pbExtreme 6 (x : Int)).pbExtreme 7 (x : Int)

/-- Pace below the floor of the current level; the eighth window in a row is the event of R28, raised once until a window is at
the floor again (DESIGN CHOICE, log 83). -/
def State.gaugeFloor (s : State) (x : Nat) : State :=
  if paceFloor s.levelNow ≤ x then { s with gauge.below := 0 }
  else if s.gauge.below < 7 then { s with gauge.below := s.gauge.below + 1 }
  else if s.gauge.below = 7 then
    let s : State := { s with gauge.below := 8, gauge.flag := true }
    ((s.selvedge { source := 4, code := 0x41, detail := x, answer := 1 }).pbCount 2 1).smartEventAll 2 0
  else s

/-- GAUGE_WINDOW_END (R23). -/
def execGaugeWindowEnd (reading t : Nat) (s : State) : Host.Outcome State Fault Refusal :=
  let s := (s.atTime t).gaugeHold
  .next (if 1 ≤ reading ∧ reading ≤ 2500 then (s.gaugeReading reading).gaugeFloor reading else s.gaugeDiscard)

/-! Readings (R476-R480), in 0.125 °C. -/

/-- A sensor. -/
def State.sensor (s : State) (i : Nat) : Sensor := Tab.get default s.therm.sensors i

/-- The valid on-die readings with their sensors. -/
def State.dieReadings (s : State) : List (Nat × Int) :=
  (List.range 24).filterMap (fun i =>
    let x := s.sensor i
    if x.failed then none else x.last.map (fun v => (i, v)))

/-- The valid remote readings with their inputs. -/
def State.remoteReadings (s : State) : List (Nat × Int) :=
  (List.range 16).filterMap (fun i =>
    let x := s.remote i
    if !x.enabled || x.broken then none else x.last.map (fun v => (i, v)))

/-- The first of the hottest readings. -/
def hottestOf : List (Nat × Int) → Option (Nat × Int)
  | [] => none
  | p :: r => match hottestOf r with
    | none => some p
    | some q => if p.2 < q.2 then some q else some p

/-- On-die sensors that have not failed (R476). -/
def State.validSensors (s : State) : Nat := ((List.range 24).filter (fun i => !(s.sensor i).failed)).length

/-- The hottest valid on-die reading, or its substitute while no sensor is valid (R477). -/
def State.hottest (s : State) : Option Int :=
  if s.validSensors = 0 then some ((s.therm.cfg.throttleC + 7) * 8 : Nat) else (hottestOf s.dieReadings).map (·.2)

/-- A reading in K, rounded to nearest (R487). -/
def kelvin (v : Int) : Nat := ((v * 125 + 273650) / 1000).toNat

/-- A threshold in °C as a reading. -/
def degC (c : Nat) : Int := (8 * c : Nat)

/-- A condition with its hysteresis of 4 °C (R480). -/
def conditionAt (was : Bool) (c : Nat) (v : Int) : Bool := if was then decide (degC c ≤ v + 32) else decide (degC c ≤ v)

/-- The target of a comma level whose condition is active (R482). -/
def commaTarget (c : Nat) (v : Int) : Nat := min 15 (max 1 (1 + ((v - degC c) / 4).toNat))

/-- L* of the die level (R476, R482). -/
def State.dieTarget (s : State) : Nat :=
  let l := match s.hottest with
    | none => 0
    | some v => if s.therm.throttle then commaTarget s.therm.cfg.throttleC v else 0
  if s.validSensors < 20 then max 1 l else l

/-- L* of a remote level (R478, R482). -/
def State.remoteTarget (s : State) (i : Nat) : Nat :=
  let x := s.remote i
  if !x.enabled then 0
  else if x.broken then 1
  else match x.last with
    | none => if x.throttle then 1 else 0
    | some v => if x.throttle then commaTarget s.therm.cfg.nandThrottleC v else 0

/-- A level follows its target at a reading: up at once, down by a timer (R482). -/
def follow (level target : Nat) (lower : Option Nat) (now : Nat) : Nat × Option Nat :=
  if level < target then (target, none)
  else if target < level then (level, some (lower.getD now))
  else (level, none)

/-! Time in each condition (R487, R490). -/

/-- Composite Temperature in K, while it has a value. -/
def State.composite (s : State) : Option Nat := s.hottest.map kelvin

/-- Whole units of `unit` µs in a sum, with what remains. -/
def splitUs (unit rem dt : Nat) : Nat × Nat := ((rem + dt) / unit, (rem + dt) % unit)

/-- The time since the last look is counted where each condition held. -/
def State.accrueHeat (s : State) : State :=
  let dt := s.now - s.therm.levelUs
  let k := s.composite.getD 0
  let thr := splitUs 1000 s.therm.throtRem (if s.therm.ld = 0 then 0 else dt)
  let hld := splitUs 1000 s.therm.holdRem (if s.therm.hold then dt else 0)
  let w := splitUs 60000000 s.therm.warnUs (if k < 368 then 0 else dt)
  let c := splitUs 60000000 s.therm.critUs (if k < 391 then 0 else dt)
  let s := { s with
    therm.levelUs := s.now
    therm.throtRem := thr.2
    therm.holdRem := hld.2
    therm.warnMin := s.therm.warnMin + w.1
    therm.warnUs := w.2
    therm.critMin := s.therm.critMin + c.1
    therm.critUs := c.2 }
  (s.pbCount 4 thr.1).pbCount 6 hld.1

/-! What a reading does (R480-R485). -/

/-- Which Feature 04h thresholds are crossed: over and under of each TMPSEL in turn (R488). -/
def State.featureCrossings (s : State) : List Bool :=
  let c := s.composite
  let r := (hottestOf s.remoteReadings).map (fun p => kelvin p.2)
  [c, c, r].zipIdx.flatMap (fun (p : Option Nat × Nat) => match p.1 with
    | none => [false, false]
    | some k =>
      let u := s.therm.underK.getD p.2 0
      [decide (s.therm.overK.getD p.2 0 ≤ k), decide (u ≠ 0 ∧ k ≤ u)])

/-- Whether a Feature 04h threshold is crossed (R488). -/
def State.crossesFeature (s : State) : Bool := s.featureCrossings.any id

/-- Critical Warning bit 1 (R477, R487). -/
def State.heatWarning (s : State) : Bool := s.crossesFeature || decide (s.validSensors = 0)

/-- The Feature 04h thresholds looked at again: each crossing in either direction wakes the device, and the rise of Critical
Warning bit 1 is a SMART / Health event (R481, R487, R488). -/
def State.watchFeature (s : State) : State :=
  let b := s.heatWarning
  let rose := b && !s.therm.crossed
  let moved := decide (s.featureCrossings ≠ s.therm.crossings)
  let s : State := { s with therm.crossed := b, therm.crossings := s.featureCrossings }
  let s := if moved then s.wakeUp 6 0xFFFF else s
  if rose then s.smartEventAll 1 1 else s

/-- The die conditions and level after an on-die reading (R480, R482, R484). -/
def State.dieConditions (s : State) : State :=
  let v := s.hottest
  let warn := match v with | none => s.therm.warn | some v => conditionAt s.therm.warn s.therm.cfg.warnC v
  let thr := match v with | none => s.therm.throttle | some v => conditionAt s.therm.throttle s.therm.cfg.throttleC v
  let moved := warn != s.therm.warn || thr != s.therm.throttle
  let entered := thr && !s.therm.throttle
  let s : State := { s with therm.warn := warn, therm.throttle := thr }
  let (l, lower) := follow s.therm.ld s.dieTarget s.therm.ldLower s.now
  let cool := match v with | none => false | some v => decide (v < degC s.therm.cfg.throttleC)
  let l15 := if l < 15 then none else some (s.therm.l15Us.getD s.now)
  let hold := s.therm.hold && !cool
  let s := { s with therm.ld := l, therm.ldLower := lower, therm.l15Us := l15, therm.hold := hold }
  let s := if entered then s.pbCount 3 1 else s
  let s := s.pbExtreme 14 (l : Int)
  if moved then s.wakeUp 6 0xFFFF else s

/-- A remote input's conditions and level after a conversion (R478, R480, R482). -/
def State.remoteConditions (s : State) (i : Nat) : State :=
  let x := s.remote i
  let cfg := s.therm.cfg
  let warn := match x.last with | none => x.warn | some v => if x.broken then x.warn else conditionAt x.warn cfg.nandWarnC v
  let thr := if x.broken then true else match x.last with
    | none => x.throttle
    | some v => conditionAt x.throttle cfg.nandThrottleC v
  let moved := warn != x.warn || thr != x.throttle
  let s : State := { s with therm.remotes := Tab.set s.therm.remotes i { x with warn := warn, throttle := thr } }
  let (l, lower) := follow x.level (s.remoteTarget i) x.lower s.now
  let s : State := { s with therm.remotes := Tab.upd default s.therm.remotes i (fun (y : Remote) => { y with level := l, lower := lower }) }
  if moved then s.wakeUp 6 0xFFFF else s

/-- The valid range of a reading (R474). -/
def inRange (v : Int) : Bool := decide (-160 ≤ v ∧ v ≤ 1120)

/-- A conversion of an on-die sensor ends (R476, R480, R485). -/
def State.dieConversion (s : State) (i : Nat) (v : Int) : State :=
  let x := s.sensor i
  if inRange v then
    let isHot := decide (degC s.therm.cfg.shutdownC ≤ v)
    let y : Sensor := { x with last := some v, discards := 0, converting := false, hot := isHot }
    let s : State := { s with therm.sensors := Tab.set s.therm.sensors i y }
    let s := ((s.pbExtreme 0 v).pbExtreme 1 v).dieConditions.watchFeature
    if isHot && x.hot && !s.therm.latch && !s.therm.shutDue then s.shutdownDue else s
  else
    let bad := decide (2 ≤ x.discards)
    let y : Sensor := { x with converting := false, hot := false, discards := x.discards + 1, discarded := x.discarded + 1, failed := bad }
    let s : State := { s with therm.sensors := Tab.set s.therm.sensors i y }
    if bad then (s.selvedge { source := 4, code := 0x45, detail := i, answer := 3 }).dieConditions.watchFeature else s

/-- A break found at a remote input (R478). -/
def State.remoteBroken (s : State) (i : Nat) : State :=
  let x := s.remote i
  let s : State := { s with therm.remotes := Tab.set s.therm.remotes i { x with converting := false, broken := true, good := 0 } }
  let s := if x.broken then s else (s.selvedge { source := 4, code := 0x46, detail := i, answer := 3 }).pbCount 8 1
  (s.remoteConditions i).watchFeature

/-- A conversion of a remote input without a break (R478, R480). -/
def State.remoteConversion (s : State) (i : Nat) (v : Int) : State :=
  let x := s.remote i
  let still := x.broken && decide (x.good < 2)
  let y : Remote := { x with converting := false, good := if x.broken then x.good + 1 else 0, broken := still }
  let y : Remote := if still || !inRange v then y else { y with last := some v }
  let s : State := { s with therm.remotes := Tab.set s.therm.remotes i y }
  if still || !inRange v then s else ((s.pbExtreme 2 v).remoteConditions i).watchFeature

/-- Whether an input is in fast mode: its last valid reading lies within 5 °C of a threshold (R475, R478). -/
def State.fastMode (s : State) (remote : Bool) (i : Nat) : Bool :=
  let cfg := s.therm.cfg
  let near (v : Int) (c : Nat) : Bool := decide (degC c - 40 ≤ v ∧ v ≤ degC c + 40)
  if remote then
    (s.remote i).broken || (match (s.remote i).last with
      | none => false
      | some v => near v cfg.nandWarnC || near v cfg.nandThrottleC)
  else match (s.sensor i).last with
    | none => false
    | some v => near v cfg.warnC || near v cfg.throttleC || near v cfg.shutdownC

/-- The time between the starts of an input's conversions, in µs (R475). -/
def State.period (s : State) (remote : Bool) (i : Nat) : Nat := if s.fastMode remote i then 1000 else 10000

/-- Whether a conversion may start at an input whose latest started at `start`. -/
def State.mayConvert (s : State) (remote : Bool) (i : Nat) (start : Option Nat) : Bool :=
  match start with
  | none => true
  | some u => decide (u + s.period remote i ≤ s.now)

/-- SENSOR_CONVERSION_START (R475). -/
def execSensorConversionStart (remote : Bool) (index t : Nat) (s : State) : Host.Outcome State Fault Refusal :=
  let u := s.atTime t
  if remote then
    let x := u.remote index
    if index < 16 ∧ x.enabled ∧ !x.converting ∧ u.mayConvert true index x.startUs then
      .next { u with therm.remotes := Tab.set u.therm.remotes index { x with converting := true, startUs := some u.now } }
    else .next s
  else
    let x := u.sensor index
    if index < 24 ∧ !x.failed ∧ !x.converting ∧ u.mayConvert false index x.startUs then
      .next { u with therm.sensors := Tab.set u.therm.sensors index { x with converting := true, startUs := some u.now } }
    else .next s

/-- SENSOR_CONVERSION_DONE (R480). -/
def execSensorConversionDone (remote : Bool) (index : Nat) (reading : Int) (broken : Bool) (t : Nat) (s : State) :
    Host.Outcome State Fault Refusal :=
  let u := (s.atTime t).accrueHeat
  if remote then
    if (u.remote index).converting then
      .next (if broken then u.remoteBroken index else u.remoteConversion index reading)
    else .next s
  else if (u.sensor index).converting then .next (u.dieConversion index reading)
  else .next s

/-- One fall of a level whose 10 ms have passed (R482). -/
def fallOf (level target : Nat) (lower : Option Nat) (now : Nat) : Nat × Option Nat :=
  match lower with
  | none => (level, none)
  | some u =>
    if u + 10000 ≤ now ∧ target < level then (level - 1, if target + 1 < level then some (u + 10000) else none)
    else (level, lower)

/-- COMMA_LEVEL_DESCENT (R482). -/
def execCommaLevelDescent (t : Nat) (s : State) : Host.Outcome State Fault Refusal :=
  let s := (s.atTime t).accrueHeat
  let (l, lower) := fallOf s.therm.ld s.dieTarget s.therm.ldLower s.now
  let rs := s.therm.remotes.map (fun p =>
    let (k, low) := fallOf p.2.level (s.remoteTarget p.1) p.2.lower s.now
    (p.1, { p.2 with level := k, lower := low }))
  .next { s with
    therm.ld := l
    therm.ldLower := lower
    therm.l15Us := if l < 15 then none else s.therm.l15Us
    therm.remotes := rs }

/-- THERMAL_HOLD (R484): L_D has been 15 for 100 ms. -/
def execThermalHold (t : Nat) (s : State) : Host.Outcome State Fault Refusal :=
  let u := (s.atTime t).accrueHeat
  match u.therm.l15Us with
  | none => .next s
  | some v =>
    if v + 100000 ≤ u.now ∧ !u.therm.hold then
      .next ((({ u with therm.hold := true } : State).pbCount 5 1).vendorEventAll 2 0x84 0xFFFF 0)
    else .next s

/-! The thermal area of the device status page (R489). -/

/-- A reading as a signed 16-bit value. -/
def readingField (v : Option Int) : Nat := match v with | none => 0x8000 | some v => (v % 65536).toNat

/-- The 256 bytes of R489. -/
def State.thermalArea (s : State) : List Byte :=
  let d := hottestOf s.dieReadings
  let r := hottestOf s.remoteReadings
  let ins := List.range 16
  let valid := s.remoteReadings.map (·.1)
  let flags := flagByte [s.therm.warn, s.therm.throttle, s.therm.hold, ins.any (fun i => (s.remote i).enabled && (s.remote i).throttle),
    ins.any (fun i => (s.remote i).broken), decide (s.validSensors < 24),
    ins.any (fun i => (s.remote i).enabled && s.fastMode true i) || (List.range 24).any (fun i => !(s.sensor i).failed && s.fastMode false i)]
  bytesLE 2 (readingField (d.map (·.2))) ++ bytesLE 1 ((d.map (·.1)).getD 0xFF) ++ bytesLE 1 s.therm.ld ++
    bytesLE 2 (readingField (r.map (·.2))) ++ bytesLE 1 ((r.map (·.1)).getD 0xFF) ++ bytesLE 1 flags ++
    bytesLE 4 (maskOf ((List.range s.groups).filter (fun g => decide (s.groupLevel g ≠ 0)))) ++
    bytesLE 2 (maskOf (ins.filter (fun i => (s.remote i).broken))) ++ bytesLE 2 (maskOf (ins.filter (fun i => (s.remote i).enabled))) ++
    ((List.range 24).map (fun i => bytesLE 2 (readingField (if (s.sensor i).failed then none else (s.sensor i).last)))).flatten ++
    (ins.map (fun i => bytesLE 2 (readingField (if valid.contains i then (s.remote i).last else none)))).flatten ++
    ((List.range 32).map (fun g => bytesLE 1 (if g < s.groups then s.groupLevel g else 0))).flatten ++ bytesLE 128 0

/-- Log page CAh (R490). -/
def State.thermalLog (s : State) : List Byte :=
  s.thermalArea ++ ((List.range 6).map (fun i => bytesLE 8 (Tab.get 0 s.pb.counters (3 + i)))).flatten ++ bytesLE 208 0

/-! THERMAL_CONFIG (R504). -/

/-- The diode map of the parameter block's buffer. -/
def mapOf (b : List Byte) : List Nat := (List.range 16).map (fun i => bufNum b (4 * i) 4)

/-- The offences of THERMAL_CONFIG. -/
def thermalOffences (r : MbxReq) (s : State) : List (Option Nat) :=
  let die := r.bit 16 0
  let rem := r.bit 16 1
  let dio := r.bit 16 2
  let hasMap := decide (r.p 32 8 ≠ 0)
  [r.rsvBits 16 4, r.rsv 26 6, r.rsv 44 20] ++
    (if die then [outOf r 17 1 70 105, outOf r 18 1 80 110, outOf r 19 1 100 118, badIf (decide (r.p 18 1 < r.p 17 1 + 5)) 17,
      badIf (decide (r.p 19 1 < r.p 18 1 + 8)) 18] else []) ++
    (if rem then [outOf r 20 1 40 95, outOf r 21 1 50 100, badIf (decide (r.p 21 1 < r.p 20 1 + 5)) 20] else []) ++
    (if dio then [outOf r 24 2 9900 10300, badIf (decide (r.p 32 8 % 64 ≠ 0)) 32, badIf (decide (r.p 40 4 ≠ (if hasMap then 64 else 0))) 40,
      if hasMap then r.badInput s ((mapOf (r.input 64)).any (fun m => decide (2 ^ s.groups ≤ m))) 32 else none] else [])

/-- The settings as the selected groups change them. -/
def thermalApply (r : MbxReq) (c : ThermSet) : ThermSet :=
  let c : ThermSet := if r.bit 16 0 then { c with warnC := r.p 17 1, throttleC := r.p 18 1, shutdownC := r.p 19 1 } else c
  let c : ThermSet := if r.bit 16 1 then { c with nandWarnC := r.p 20 1, nandThrottleC := r.p 21 1 } else c
  if r.bit 16 2 then
    let m := if r.p 32 8 = 0 then c.map else some (mapOf (r.input 64))
    { c with enable := some (BitVec.ofNat 16 (r.p 22 2)), nfactor := r.p 24 2, map := m }
  else c

/-- The inputs enabled and disabled as DIODE_ENABLE says; a disabled input is never converted and covers nothing (R479). -/
def State.enableInputs (s : State) (m : BitVec 16) : State :=
  (List.range 16).foldl (fun s i =>
    let x := s.remote i
    let on := m.getLsbD i
    if on = x.enabled then s
    else
      let y : Remote := { (default : Remote) with enabled := on, startUs := x.startUs }
      { s with therm.remotes := Tab.set s.therm.remotes i y }) s

/-- THERMAL_CONFIG past its checks. -/
def thermalRun (r : MbxReq) (s : State) : MbxRes :=
  let c := thermalApply r s.therm.cfg
  let s : State := { s with therm.cfg := c }
  let s : State := if r.bit 16 3 then { s with therm.saved := some c } else s
  let s := if r.bit 16 2 then s.enableInputs (BitVec.ofNat 16 (r.p 22 2)) else s
  let ins := List.range 16
  MbxRes.ok s 0 (fld 20 1 c.warnC + fld 21 1 c.throttleC + fld 22 1 c.shutdownC +
    fld 24 2 (maskOf (ins.filter (fun i => (s.remote i).enabled))) + fld 26 2 (maskOf (ins.filter (fun i => (s.remote i).broken))) +
    fld 28 1 (r.bit 16 3).toNat)

/-- THERMAL_CONFIG (R504). -/
def thermalConfigCmd (_ : MbxCmd) (r : MbxReq) (s : State) : MbxRes :=
  r.guard0 s (thermalOffences r s) ((if r.bit 16 2 && decide (r.p 32 8 ≠ 0) then s.buffers else []) ++ (if r.bit 16 3 then s.writes else s.acts))
    (fun _ => if r.bit 16 3 then r.hem s (fun _ => thermalRun r s) else thermalRun r s)

/-- THERMAL_CONFIG. -/
def execThermalConfig (r : MbxReq) (s : State) : Host.Outcome State Fault Refusal :=
  .next (s.mbxSubmit 0x0604#16 thermalConfigCmd r)

end Sys2Proof.Machine
end

