-- ==== Sys2Proof/Machine/Records.lean ====
section
/-! DEFINITION. The Pattern Book: its periodic samples, checkpoints, freezes and view (R491-R499, R505, R506), and
MANAGER_POLICY (R63). -/

namespace Sys2Proof.Machine

/-! Samples (R492). -/

/-- Device histogram samples, in order. -/
def State.pbSamples (s : State) (xs : List (Nat × Nat)) : State := xs.foldl (fun s p => s.pbSample none p.1 p.2) s

/-- The samples taken each 1 s. -/
def State.secondSamples (s : State) : List (Nat × Nat) :=
  s.dieReadings.map (fun p => (20 + p.1, bucketT p.2)) ++ s.remoteReadings.map (fun p => (44 + p.1, bucketT p.2)) ++
    [(60, bucketV s.supply.vinMv), (61, bucketC 1 (s.eUsed / 200000000000))] ++
    (List.range s.groups).map (fun g => (64 + g, bucketC 16 (Tab.get 0 s.rd.darnSec g)))

/-- HISTOGRAM_SAMPLE (R492): the pace each 1 ms, the rest each 1 s. -/
def execHistogramSample (t : Nat) (s : State) : Host.Outcome State Fault Refusal :=
  let s := s.atTime t
  let s : State := if s.pb.msUs + 1000 ≤ s.now then
      let s : State := { s with pb.msUs := s.now }
      if s.gauge.now = 0 ∨ s.gauge.fault then s else s.pbSample none 192 (bucketC 40 s.gauge.now)
    else s
  if s.pb.secUs + 1000000 ≤ s.now then
    let xs := s.secondSamples
    .next (({ s with pb.secUs := s.now, rd.darnSec := [] } : State).pbSamples xs)
  else .next s

/-! Checkpoints (R496). -/

/-- Whether a checkpoint of the lifetime records is due. -/
def State.ckptDue (s : State) : Bool := s.pb.ckptDue || s.pb.deferred || decide (s.pb.savedUs + 600000000 ≤ s.now)

/-- PB_CHECKPOINT (R496): a checkpoint that is due is written, or waits for a freeze to end (R499). Hem writes stop at early
warning (R388). -/
def execPbCheckpoint (t : Nat) (hemOk : Bool) (s : State) : Host.Outcome State Fault Refusal :=
  let u := s.atTime t
  if !u.ckptDue ∨ u.supply.ewLatched then .next s
  else if u.pbFrozen then .next { u with pb.deferred := true }
  else if hemOk then
    .next { u with
      pb.savedHist := u.pb.hist
      pb.savedExtremes := u.pb.extremes
      pb.savedCounters := u.pb.counters
      pb.savedUs := u.now
      pb.copy := 1 - u.pb.copy
      pb.dirty := false
      pb.ckptDue := false
      pb.deferred := false }
  else .next u.hemFailed

/-! Freezes (R499, R505). -/

/-- The freeze ends: what it held is applied, and a checkpoint that fell due in it is waited for. -/
def State.pbRelease (s : State) : State :=
  let es := s.pb.heldExtremes
  let cs := s.pb.heldCounters
  let ts := s.pb.heldTenant
  let s : State := { s with
    pb.frozen := none
    pb.heldExtremes := []
    pb.heldCounters := []
    pb.heldTenant := []
    pb.deletedRecs := []
    pb.deferred := s.ckptDue }
  let s := es.foldl (fun s p => s.pbExtremeNow p.1 p.2) s
  let s := cs.foldl (fun s p => s.pbCount p.1 p.2) s
  ts.foldl (fun s p => s.pbTenant p.1 p.2.1 p.2.2) s

/-- PB_FREEZE (R505). -/
def pbFreezeCmd (_ : MbxCmd) (r : MbxReq) (s : State) : MbxRes :=
  let ms := r.p 16 2
  r.guard0 s [badIf (decide (1000 < ms)) 16, r.rsv 18 46] ((s.pbFrozen, stConflict) :: (s.pb.deferred, stBusyRetry) :: s.acts)
    (fun _ => MbxRes.ok { s with
      pb.frozen := some (s.now + 1000 * (if ms = 0 then 100 else ms))
      pb.freezeUs := s.now
      pb.missed := 0 } 0 (fld 20 8 s.now))

/-- PB_FREEZE. -/
def execPbFreeze (r : MbxReq) (s : State) : Host.Outcome State Fault Refusal := .next (s.mbxSubmit 0x0701#16 pbFreezeCmd r)

/-- PB_THAW (R505). -/
def pbThawCmd (_ : MbxCmd) (r : MbxReq) (s : State) : MbxRes :=
  r.guard0 s [r.rsv 16 48] ((!s.pbFrozen, stConflict) :: s.acts) (fun _ => MbxRes.ok s.pbRelease 0 (fld 20 8 s.pb.missed))

/-- PB_THAW. -/
def execPbThaw (r : MbxReq) (s : State) : Host.Outcome State Fault Refusal := .next (s.mbxSubmit 0x0702#16 pbThawCmd r)

/-- PB_FREEZE_EXPIRY (R499): HOLD_MS has passed. -/
def execPbFreezeExpiry (t : Nat) (s : State) : Host.Outcome State Fault Refusal :=
  let u := s.atTime t
  match u.pb.frozen with
  | none => .next s
  | some e => if e ≤ u.now then .next u.pbRelease else .next s

/-- PB_QUERY (R506). -/
def pbQueryCmd (_ : MbxCmd) (r : MbxReq) (s : State) : MbxRes :=
  let answer (v missed : Nat) : Nat := fld 20 1 v + fld 21 1 s.pbFrozen.toNat + fld 24 8 missed
  if r.target = 0#32 then
    r.guard s [outOf r 16 1 0 1, r.rsv 17 47] [] (fun _ =>
      MbxRes.ok { s with pb.view := r.p 16 1 } 0 (answer (r.p 16 1) (Tab.get 0 s.pb.counters 10)))
  else
    r.guardH s 1 true [outOf r 16 1 0 0, r.rsv 17 47] (fun _ _ => []) (fun _ _ t =>
      MbxRes.ok { s with pb.view := 2, pb.viewTenant := r.target.toNat } 0 (answer 2 (Tab.get 0 t.pb 1030)))

/-- PB_QUERY. -/
def execPbQuery (r : MbxReq) (s : State) : Host.Outcome State Fault Refusal := .next (s.mbxSubmit 0x0703#16 pbQueryCmd r)

/-! The Pattern Book window (R498). -/

/-- The 16 bytes of an extreme (R493). -/
def extremeBytes (e : Option Extreme) : List Byte :=
  match e with
  | none => bytesLE 16 0
  | some e => bytesLE 4 (e.value % 2 ^ 32).toNat ++ bytesLE 2 e.boot ++ bytesLE 2 0 ++ bytesLE 8 e.us

/-- Bytes of a tenant's record: its histograms and counters (R497, R510). -/
def tenantBook (pb : List (Nat × Nat)) : List Byte :=
  ((List.range 1056).map (fun k => bytesLE 8 (Tab.get 0 pb k))).flatten

/-! MANAGER_POLICY (R63). -/

/-- The policy in force from completion, stored where PERSIST is set; the role moves once the completion entry is written. -/
def managerPolicyRun (r : MbxReq) (s : State) : MbxRes :=
  let p := portOf (r.p 16 1)
  let fo := decide (r.p 17 1 = 1)
  let moves := r.bit 18 0 && decide (p ≠ s.mbx.manager)
  let s : State := { s with mbx.preferred := p, mbx.failover := fo }
  let s : State := if r.bit 18 1 then { s with mbx.storedPolicy := some (p, fo) } else s
  let s : State := if moves then { s with mbx.movePending := some p } else s
  MbxRes.ok s 0 (fld 20 1 (portNo (if moves then p else s.mbx.manager)) + fld 21 1 (r.bit 18 1).toNat)

/-- MANAGER_POLICY. -/
def managerPolicyCmd (_ : MbxCmd) (r : MbxReq) (s : State) : MbxRes :=
  let p := portOf (r.p 16 1)
  let moves := r.bit 18 0 && decide (p ≠ s.mbx.manager)
  let others := decide (((s.mbxPort r.port).setBusy r.slot false).busy ≠ 0#64)
  r.guard0 s [outOf r 16 1 0 1, outOf r 17 1 0 1, r.rsvBits 18 2, r.rsv 19 45]
    ([(decide (s.aon.straps.mgrSel ≠ 2#2), stNotPermitted), (s.host.joined && decide (r.p 16 1 = 1), stConflict),
      (moves && !(s.portSt p).linkUp, stConflict), (moves && others, stBusyRetry), (decide (s.hem.actStep ≠ 0), stBusyRetry),
      (r.bit 18 1 && s.supply.ewLatched, stPowerLimited)] ++ s.acts)
    (fun _ => if r.bit 18 1 then r.hem s (fun _ => managerPolicyRun r s) else managerPolicyRun r s)

/-- MANAGER_POLICY. -/
def execManagerPolicy (r : MbxReq) (s : State) : Host.Outcome State Fault Refusal :=
  .next (s.mbxSubmit 0x0806#16 managerPolicyCmd r)

end Sys2Proof.Machine
end

