-- ==== Sys2Proof/Machine/Debug.lean ====
section
/-! DEFINITION. Debug authorisation and the Fray unit's arming (R517-R521, R528-R531), the Selvedge log (R511-R513, R532,
R533), die protocol violations (R515, R516). -/

namespace Sys2Proof.Machine

/-! Once early warning has latched, every command of the chapter but SELVEDGE_READ completes with POWER_LIMITED, as those that
write the Hem store do (R411). -/

/-! Authorisation (R528, R529). -/

/-- Whether an authorisation is current. -/
def State.authorised (s : State) : Bool := match s.dbg.authUntil with | none => false | some u => decide (s.now < u)

/-- AUTH_REMAINING_S. -/
def State.authLeft (s : State) : Nat := match s.dbg.authUntil with | none => 0 | some u => (u - s.now) / 1000000

/-- An authorisation event in the Selvedge log: 0 granted, 1 failed, 2 revoked, 3 expired (log 23). -/
def State.authNote (s : State) (what : Nat) : State := s.selvedge { source := 5, code := 0x61, detail := what, answer := 5 }

/-- The Fray unit disarmed; its rules are kept for their HITS (R521). -/
def State.disarm (s : State) : State :=
  if s.dbg.armed then
    ({ s with dbg.armed := false, dbg.trigOut := false } : State).selvedge { source := 5, code := 0x62, detail := 0, answer := 5 }
  else s

/-- The authorisation ended (R529). -/
def State.endAuth (s : State) (why : Nat) : State :=
  let was := s.dbg.authUntil.isSome
  let s := ({ s with dbg.authUntil := none, dbg.perms := 0#8 } : State).disarm
  if was then s.authNote why else s

/-- The completion of DEBUG_AUTHORISE. -/
def State.authDone (s : State) : MbxRes := MbxRes.ok s 0 (fld 20 4 s.authLeft + fld 24 1 s.dbg.perms.toNat)

/-- Must-be-zero bytes of DEBUG_AUTHORISE. -/
def authZeros (r : MbxReq) : List (Option Nat) := [r.rsv 17 7, r.rsv 36 28]

/-- MODE 0: a nonce is issued. -/
def debugChallengeCmd (_ : MbxCmd) (r : MbxReq) (s : State) : MbxRes :=
  r.guard0 s ([outOf r 16 1 0 2] ++ r.bufOffences 24 32 80 ++ authZeros r) (s.buffers ++ s.writes) (fun _ => r.buffer s 24 (fun _ =>
    let n := s.fresh
    let (v, s) := s.draw
    let s : State := { s with dbg.nonce := some (n, s.now), dbg.nonces := s.dbg.nonces + 1 }
    (r.output s 24 32 (bytesLE 32 v ++ bytesLE 48 Config.deviceId)).authDone))

/-- Whether a token is malformed (R528). -/
def tokenMalformed (b : List Byte) : Bool :=
  decide (bufNum b 0 4 ≠ 0x47424454 ∨ bufNum b 4 2 ≠ 1 ∨ bufNum b 6 2 ≠ 256 ∨ 1 < bufNum b 8 1 ∨ 1 < bufNum b 9 1 ∨
    bufNum b 10 2 ≠ 0 ∨ bufNum b 12 4 < 60 ∨ 86400 < bufNum b 12 4 ∨ bufNum b 96 64 ≠ 0)

/-- The nonce that is still valid, by its number: issued within 10 minutes (R528). -/
def State.liveNonce (s : State) : Option Nat :=
  match s.dbg.nonce with
  | none => none
  | some (n, u) => if s.now < u + 600000000 then some n else none

/-- Whether a token's signature, device and nonce are right; with no valid nonce the first two alone are looked at (R60,
R528). -/
def State.tokenGood (s : State) (r : MbxReq) (b : List Byte) : Bool :=
  r.env.sigOk && decide (bufNum b 48 48 = Config.deviceId % 2 ^ 384) &&
    (match s.liveNonce with
      | none => true
      | some n => decide (bufNum b 16 32 = Config.freeNat n % 2 ^ 256))

/-- MODE 1: the checks of a token (R528), and the authorisation that it gives. -/
def debugTokenCheck (_ : MbxCmd) (r : MbxReq) (s : State) : MbxRes :=
  let b := r.input 256
  r.guard0 s ([outOf r 16 1 0 2, badIf (decide (r.p 24 8 % 64 ≠ 0)) 24, badIf (decide (r.p 32 4 ≠ 256)) 32,
      r.badInput s (tokenMalformed b) 24] ++ authZeros r)
    ((s.bme && !s.tokenGood r b, stAuthFail) :: (s.liveNonce.isNone, stConflict) :: s.buffers ++ s.writes) (fun _ =>
    let s : State := { s with dbg.nonce := none }
    (({ s with dbg.authUntil := some (s.now + 1000000 * bufNum b 12 4), dbg.perms := BitVec.ofNat 8 (bufNum b 9 1) } : State).authNote 0).authDone)

/-- A token that fails its authentication is recorded, and it consumes the nonce (R528, R529). -/
def debugTokenCmd (c : MbxCmd) (r : MbxReq) (s : State) : MbxRes :=
  let x := debugTokenCheck c r s
  if x.status = some stAuthFail then { x with state := ({ s with dbg.nonce := none } : State).authNote 1 } else x

/-- MODE 2: the authorisation is revoked. -/
def debugRevokeCmd (_ : MbxCmd) (r : MbxReq) (s : State) : MbxRes :=
  r.guard0 s ([outOf r 16 1 0 2, badIf (decide (r.p 32 4 ≠ 0)) 32] ++ authZeros r) s.writes (fun _ => (s.endAuth 2).authDone)

/-- DEBUG_AUTHORISE by its MODE (R528). -/
def debugAuthCmd (c : MbxCmd) (r : MbxReq) (s : State) : MbxRes :=
  match r.p 16 1 with
  | 1 => debugTokenCmd c r s
  | 2 => debugRevokeCmd c r s
  | _ => debugChallengeCmd c r s

/-- DEBUG_AUTHORISE with MODE 0; the row's MODE byte is the one it names. -/
def execDebugAuthoriseChallenge (r : MbxReq) (s : State) : Host.Outcome State Fault Refusal :=
  .next (s.mbxSubmit 0x0A01#16 debugAuthCmd r)

/-- DEBUG_AUTHORISE with MODE 1. -/
def execDebugAuthoriseToken (r : MbxReq) (s : State) : Host.Outcome State Fault Refusal :=
  .next (s.mbxSubmit 0x0A01#16 debugAuthCmd r)

/-- DEBUG_AUTHORISE with MODE 2. -/
def execDebugAuthoriseRevoke (r : MbxReq) (s : State) : Host.Outcome State Fault Refusal :=
  .next (s.mbxSubmit 0x0A01#16 debugAuthCmd r)

/-- DEBUG_AUTH_EXPIRY (R529). -/
def execDebugAuthExpiry (t : Nat) (s : State) : Host.Outcome State Fault Refusal :=
  let u := s.atTime t
  if u.dbg.authUntil.isSome && !u.authorised then .next (u.endAuth 3) else .next s

/-- DEBUG_NONCE_EXPIRY (R528). -/
def execDebugNonceExpiry (t : Nat) (s : State) : Host.Outcome State Fault Refusal :=
  let u := s.atTime t
  if u.dbg.nonce.isSome ∧ u.liveNonce.isNone then .next { u with dbg.nonce := none } else .next s

/-! The Fray unit (R530, R531). -/

/-- Whether a rule's target and action are a permitted pair (R518). -/
def frayPair : Nat → Nat → Bool
  | 1, 1 => true
  | 1, 2 => true
  | 2, 1 => true
  | 2, 3 => true
  | 3, 2 => true
  | 4, 1 => true
  | 4, 2 => true
  | 4, 3 => true
  | _, _ => false

/-- Whether a rule's SELECT is present on this variant (R518). -/
def State.frayTarget (s : State) (target sel : Nat) : Bool :=
  match target with
  | 1 => decide (sel < s.channels)
  | 2 => s.isBobbin sel
  | 3 => decide (sel < 4)
  | 4 => decide (sel < 2)
  | _ => false

/-- The highest FILTER of a target (R530). -/
def frayFilters : Nat → Nat
  | 1 => 1
  | 3 => 2
  | 4 => 3
  | _ => 0

/-- Whether a 32-byte rule is well formed on this variant (R530). -/
def State.frayRuleOk (s : State) (b : List Byte) : Bool :=
  let f (off len : Nat) : Nat := bufNum b off len
  let trig := f 3 1
  let bits := f 12 1
  frayPair (f 0 1) (f 2 1) && s.frayTarget (f 0 1) (f 1 1) && decide (1 ≤ trig ∧ trig ≤ 3 ∧ 1 ≤ f 4 4) &&
    (decide (trig ≠ 3) || decide (f 4 4 ≤ 48)) &&
    (if f 2 1 = 2 then decide (1 ≤ bits) && (decide (f 0 1 = 1) || decide (bits ≤ 3)) else decide (bits = 0)) &&
    decide (f 13 1 ≤ 1 ∧ f 14 1 ≤ frayFilters (f 0 1) ∧ f 15 9 = 0) && (decide (trig = 3) == decide (f 24 8 ≠ 0))

/-- A rule as armed. -/
def frayRuleOf (b : List Byte) : FrayRule := ⟨BitVec.ofNat 256 (bufNum b 0 32), 0, 0, BitVec.ofNat 64 (bufNum b 24 8)⟩

/-- FRAY_ARM (R530). -/
def frayArmCmd (_ : MbxCmd) (r : MbxReq) (s : State) : MbxRes :=
  let n := r.p 16 1
  let b := r.input (32 * n)
  let rules := (List.range n).map (fun i => (b.drop (32 * i)).take 32)
  r.guard0 s [outOf r 16 1 1 16, r.rsvBits 17 1, r.rsv 18 6, badIf (decide (r.p 24 8 % 64 ≠ 0)) 24,
      badIf (decide (r.p 32 4 ≠ 32 * n)) 32, r.badInput s (!rules.all s.frayRuleOk) 24, r.rsv 36 28]
    ([(!s.authorised || !s.dbg.perms.getLsbD 0, stNotPermitted), (s.dbg.armed, stConflict)] ++ s.buffers ++ s.writes) (fun _ =>
    let s : State := { s with dbg.armed := true, dbg.trigOut := r.bit 17 0, dbg.rules := rules.map frayRuleOf }
    MbxRes.ok (s.selvedge { source := 5, code := 0x62, detail := 1, answer := 5 }) 0 (fld 20 1 n))

/-- FRAY_ARM. -/
def execFrayArm (r : MbxReq) (s : State) : Host.Outcome State Fault Refusal := .next (s.mbxSubmit 0x0A02#16 frayArmCmd r)

/-- HITS of all rules. -/
def State.totalHits (s : State) : Nat := s.dbg.rules.foldl (fun n x => n + x.fired) 0

/-- FRAY_DISARM (R531). -/
def frayDisarmCmd (_ : MbxCmd) (r : MbxReq) (s : State) : MbxRes :=
  r.guard0 s [r.rsv 16 48] s.writes (fun _ =>
    MbxRes.ok s.disarm 0 (fld 20 8 (if s.dbg.armed then s.totalHits else 0)))

/-- FRAY_DISARM. -/
def execFrayDisarm (r : MbxReq) (s : State) : Host.Outcome State Fault Refusal := .next (s.mbxSubmit 0x0A03#16 frayDisarmCmd r)

/-! The Selvedge log (R511-R513, R532, R533). -/

/-- The 32 bytes of an entry (R512). -/
def SelvEntry.bytes (e : SelvEntry) : List Byte :=
  let b := bytesLE 8 e.us ++ bytesLE 2 e.boot ++ bytesLE 1 e.source ++ bytesLE 1 e.code ++ bytesLE 4 e.tenant ++ bytesLE 2 e.fn ++
    bytesLE 2 e.loc ++ bytesLE 4 e.detail ++ bytesLE 4 e.seq ++ bytesLE 1 e.answer ++ bytesLE 1 e.flags ++ bytesLE 1 0x3C
  b ++ bytesLE 1 (crc8 0 b)

/-- The last `n` entries of a list. -/
def newest {α : Type} (n : Nat) (xs : List α) : List α := xs.drop (xs.length - n)

/-- Whether Claind serves set H: its pair is in service and the Tailor domains run (R511). -/
def State.drains (s : State) : Bool := s.mbxServed && decide (s.eng.pairs.getD s.eng.setH 3 = 0)

/-- SELVEDGE_DRAIN (R511): one entry moves from the capture queue to the ring. -/
def execSelvedgeDrain (s : State) : Host.Outcome State Fault Refusal :=
  match s.selv.queue with
  | [] => .next s
  | e :: q =>
    if s.drains then
      .next { s with selv.queue := q, selv.ring := newest 4096 (s.selv.ring ++ [e]), selv.unflushed := min 4096 (s.selv.unflushed + 1) }
    else .next s

/-- SELVEDGE_HEM_FLUSH (R388). -/
def execSelvedgeHemFlush (t : Nat) (hemOk : Bool) (s : State) : Host.Outcome State Fault Refusal :=
  let u := s.atTime t
  if u.supply.ewLatched ∨ u.selv.unflushed = 0 ∨ u.now < u.selv.lastFlushUs + 100000 then .next s
  else
    let u : State := { u with selv.lastFlushUs := u.now }
    if hemOk then .next { u with selv.hem := newest 256 (u.selv.hem ++ newest u.selv.unflushed u.selv.ring), selv.unflushed := 0 }
    else .next u.hemFailed

/-- Whether a Hem entry lies at or after a place in the order of recording: by boot in serial-number order, then by sequence
(R532). -/
def SelvEntry.atOrAfter (e : SelvEntry) (boot seq : Nat) : Bool :=
  if e.boot = boot then decide (seq ≤ e.seq) else decide ((e.boot + 65536 - boot) % 65536 < 32768)

/-- SELVEDGE_READ (R532). -/
def selvedgeReadCmd (_ : MbxCmd) (r : MbxReq) (s : State) : MbxRes :=
  let hem := decide (r.p 16 1 = 1)
  r.guard0 s ([outOf r 16 1 0 1, r.rsv 17 1, badIf (!hem && decide (r.p 18 2 ≠ 0)) 18] ++ r.bufOffences 24 32 32 ++
      [badIf (decide (r.p 32 4 % 32 ≠ 0)) 32, r.rsv 36 28]) s.buffers (fun _ => r.buffer s 24 (fun _ =>
    let all := if hem then s.selv.hem else s.selv.ring
    let from1 := if r.p 20 4 = 0 then all
      else all.dropWhile (fun e => if hem then !e.atOrAfter (r.p 18 2) (r.p 20 4) else decide (e.seq < r.p 20 4))
    let now := from1.take (r.p 32 4 / 32)
    let next := (from1.drop now.length).head?
    let boot := match next with | none => 0 | some e => if hem then e.boot else 0
    MbxRes.ok (r.output s 24 32 (now.map SelvEntry.bytes).flatten) boot
      (fld 20 4 now.length + fld 24 4 (match next with | none => 0 | some e => e.seq) + fld 28 4 s.selv.lost)))

/-- SELVEDGE_READ. -/
def execSelvedgeRead (r : MbxReq) (s : State) : Host.Outcome State Fault Refusal :=
  .next (s.mbxSubmit 0x0A04#16 selvedgeReadCmd r)

/-- A tenant's THRESHOLD set; at or below its count it enters quarantine (R513). -/
def State.setThreshold (s : State) (slot v : Nat) : State :=
  let s := s.updTenant slot (fun t => { t with threshold := v })
  if s.overThreshold slot (s.tenantD slot) then s.quarantine slot else s

/-- SELVEDGE_SET_THRESHOLD (R533). -/
def selvedgeThresholdCmd (_ : MbxCmd) (r : MbxReq) (s : State) : MbxRes :=
  let v := r.p 16 2
  let bad := [r.rsvBits 18 1, r.rsv 19 45]
  if r.target = 0#32 then
    r.guard s bad s.writes (fun _ => r.hem s (fun _ =>
      let s : State := { s with selv.threshold := v }
      let s := if r.bit 18 0 then s.host.tenants.foldl (fun s p => if p.2.frozen then s else s.setThreshold p.1 v) s else s
      MbxRes.ok s 0 (fld 20 2 v)))
  else
    r.guardH s 1 false (badIf (r.bit 18 0) 18 :: bad) (fun _ _ => s.writes) (fun slot _ t => r.hem s (fun _ =>
      MbxRes.ok (s.setThreshold slot v) 0 (fld 20 2 v + fld 24 4 t.violations)))

/-- SELVEDGE_SET_THRESHOLD. -/
def execSelvedgeSetThreshold (r : MbxReq) (s : State) : Host.Outcome State Fault Refusal :=
  settled (.next (s.mbxSubmit 0x0A05#16 selvedgeThresholdCmd r))

/-! Die protocol violations (R515, R516). -/

/-- Whether a die runs an operation whose status can time out. -/
def Die.operating (x : Die) : Bool := !x.reading.isEmpty || x.prog.isSome || (match x.erase with | none => false | some e => !e.suspended)

/-- Recovery of a die, whole in one step (log 5): its reads are darned, what it did is settled, and it returns to service;
or it fails, as at its third violation within 1 s. -/
def State.recoverDie (s : State) (d : DieId) (recovers : Bool) : State :=
  let times := s.now :: (s.die d).violations.filter (fun u => decide (s.now < u + 1000000))
  let s := (s.updDie d (fun x => { x with recovering := true, violations := times })).settle d
  if recovers ∧ times.length < 3 then
    ((s.updDie d (fun x => { x with recovering := false })).settleAborted d true).pump
  else ((s.failDie d).tidy).pump

/-- DIE_STATUS_TIMEOUT (R515). -/
def execDieStatusTimeout (die : DieId) (impossible : Bool) (recovers : Bool) (t : Nat) (s : State) :
    Host.Outcome State Fault Refusal :=
  let u := s.atTime t
  let x := u.die die
  if !u.geo.media ∨ u.channels ≤ die.ch ∨ u.geo.n ≤ die.pos ∨ x.failed ∨ (!impossible && !x.operating) then .next s
  else
    let (v, u) := if impossible then u.draw else (0, u)
    let code := if impossible then 0x22 else 0x21
    settled (.next ((u.selvedge { source := 2, code := code, loc := dieLoc die, detail := v % 256, answer := 3 }).recoverDie die recovers))

end Sys2Proof.Machine
end

