-- ==== Sys2Proof/Machine/Logs.lean ====
section
/-! DEFINITION. The log pages of R259 and the Identify data of R257, as bytes. The places of the fields in the pages that
NVMe 2.0 defines are NVMe 2.0's (log 35). -/

namespace Sys2Proof.Machine

/-- A page of `n` bytes with fields `(offset, length, value)` and zeros elsewhere. -/
def layPage (n : Nat) (fs : List (Nat × (Nat × Nat))) : List Byte :=
  bytesLE n (fs.foldl (fun v f => v + f.2.2 % 2 ^ (8 * f.2.1) * 2 ^ (8 * f.1)) 0)

/-- A list of bytes cut or padded with zeros to a length. -/
def padTo (n : Nat) (b : List Byte) : List Byte := b.take n ++ List.replicate (n - b.length) 0#8

/-- A counter or list element, as 4 or 8 saturating bytes. -/
def satBytes (len v : Nat) : List Byte := bytesLE len (min v (2 ^ (8 * len) - 1))

/-! Media health (R191, R192, R196, R197). -/

/-- The erase counts of the bolts of one mode in some groups: each listed bolt's, and those of bolts with no entry. -/
def State.eraseCounts (s : State) (user : Bool) (gs : List Nat) : List (Nat × Nat) :=
  let per := if user then s.userPerGroup else 6 + s.logPerGroup
  let listed := s.bolts.table.filter (fun p => gs.contains (boltGroup p.1) && (s.isUser (boltIndex p.1) == user) &&
    (user || s.isSlc p.1))
  let lo := if user then s.firstUser else 0
  let wiped := min s.bolts.wiped (lo + per) - lo
  let above := (listed.filter (fun p => decide (boltIndex p.1 < s.bolts.wiped))).length
  (per * gs.length - listed.length - (wiped * gs.length - above), s.bolts.dfltEc) ::
    (wiped * gs.length - above, s.bolts.dfltEc + 1) :: listed.map (fun p => (1, p.2.ec))

/-- The highest, the lowest and the mean of some counts, each with how many bolts have it. -/
def countStats (xs : List (Nat × Nat)) : Nat × (Nat × Nat) :=
  let ys := xs.filter (fun p => decide (p.1 ≠ 0))
  let n := ys.foldl (fun a p => a + p.1) 0
  let sum := ys.foldl (fun a p => a + p.1 * p.2) 0
  (ys.foldl (fun a p => max a p.2) 0, ((minOf (ys.map (·.2))).getD 0, sum / max 1 n))

/-- The user rating (R191). -/
def State.ratedUser (s : State) : Nat := if s.geo.media ∧ s.geo.dieType = 1 then 3000 else 1500

/-- Percentage Used (R192). -/
def State.percentUsed (s : State) : Nat :=
  let mean (user : Bool) := (countStats (s.eraseCounts user s.presentGroups)).2.2
  min 255 (max (100 * mean true / s.ratedUser) (100 * mean false / 30000))

/-- Whether a group is in overdraft (R153). -/
def State.anyOverdraft (s : State) : Bool := s.presentGroups.any (fun g => (s.bucket g).inOver)

/-- Critical Warning (R193, R196, R425, R487). -/
def State.criticalWarning (s : State) : Nat :=
  let tiny : Bool := match s.supply.capTinyUs with | none => false | some u => decide (u + 30000000 ≤ s.now)
  flagByte [s.recl.spareLow, s.heatWarning, s.presentGroups.any s.degraded || s.anyOverdraft || s.gauge.flag, s.aon.noMedia,
    s.supply.backupFailed || tiny || s.supply.noSealWarn]

/-- Power On Hours (R260). -/
def State.powerOnHours (s : State) : Nat := (s.hem.powerOnUs + (s.now - s.aon.vaonUs)) / 3600000000

/-- Log 02h (R196, R260, R487); `v` stands for a Composite Temperature that has no value yet. -/
def State.smartLog (s : State) (f : FnId) (v : Nat) : List Byte :=
  let all := s.isManager f
  let own (i : Nat) : Nat := match s.tenantOf f with | none => 0 | some k => (s.tenantD k).smart.getD i 0
  let cnt (i : Nat) : Nat := if all then s.host.tenants.foldl (fun n p => n + p.2.smart.getD i 0) 0 else own i
  let units (i : Nat) : Nat := (cnt i + 999) / 1000
  let busy := if all then
      (s.host.busyUs + (match s.host.busyFrom with | none => 0 | some a => s.now - a)) / 60000000
    else own 4
  let k := s.composite.getD (v % 65536)
  let k2 := match hottestOf s.remoteReadings with | none => 0 | some p => kelvin p.2
  layPage 512 [(0, 1, s.criticalWarning), (1, 2, k), (3, 1, s.availableSpare), (4, 1, 10), (5, 1, s.percentUsed), (32, 16, units 0),
    (48, 16, units 1), (64, 16, cnt 2), (80, 16, cnt 3), (96, 16, busy), (112, 16, s.hem.powerCycles), (128, 16, s.powerOnHours),
    (160, 16, cnt 6), (176, 16, own 5), (192, 4, s.therm.warnMin), (196, 4, s.therm.critMin), (200, 2, k), (202, 2, k2)]

/-- One entry of log 01h (R563). -/
def errBytes (e : ErrEntry) : List Byte :=
  layPage 64 [(0, 8, e.count), (8, 2, e.sqid), (10, 2, e.cid), (12, 2, 2 * (e.status + (if dnrOf e.status then 16384 else 0))),
    (14, 2, 0xFFFF), (16, 8, e.lba), (24, 4, e.nsid.toNat)]

/-! Firmware and sanitise (R401, R437). -/

/-- FW_REV of a twin as log 03h reports it: STATE VALID, ACTIVE, TRIAL or PENDING (R401, R407). -/
def frsOf (x : Twin) : Nat := if [3, 4, 5, 6].contains x.st then x.fwRev.toNat else 0

/-- Log 03h. -/
def State.slotLog (s : State) : List Byte :=
  let pend := if s.hem.twinA.st = 6 then 1 else if s.hem.twinB.st = 6 then 2 else 0
  layPage 512 [(0, 1, s.hem.running + 16 * pend), (8, 8, frsOf s.hem.twinA), (16, 8, frsOf s.hem.twinB)]

/-- ETBE: T_BE in seconds, rounded up (R436, R437). -/
def State.eraseSeconds (s : State) : Nat := (s.dp.units * s.dp.tErase + 2000000 + 999999) / 1000000

/-- Log 81h (R437). -/
def State.sanitiseLog (s : State) : List Byte :=
  let x := s.san.s
  let sprog := if !x.running then 65535 else if x.action = 2 then min 65535 (65536 * x.done / max 1 x.total) else 0
  layPage 512 [(0, 2, sprog), (2, 2, x.sstat + (if x.written then 0 else 256)), (4, 4, x.dw10.toNat), (8, 4, 0xFFFFFFFF),
    (12, 4, s.eraseSeconds), (16, 4, if s.cipher then 1 else 0xFFFFFFFF), (20, 12, 2 ^ 96 - 1)]

/-! Lists (R120, R259). -/

/-- Log 04h. -/
def nsListLog (t : Tenant) : List Byte := padTo 4096 (t.nsChanged.flatMap (bytesLE 4))

/-- Log BFh. -/
def State.zoneListLog (s : State) (t : Tenant) : List Byte :=
  let n := t.zoneList.length
  padTo 4096 (bytesLE 8 (if 511 < n then 0xFFFF else n) ++ (if 511 < n then [] else t.zoneList.flatMap (fun z => bytesLE 8 (z * s.dp.zoneSize))))

/-- Log 05h: the commands of R256 for the function. -/
def State.effectsLog (s : State) (f : FnId) : List Byte :=
  let m := s.isManager f
  ((List.range 256).flatMap (fun i => bytesLE 4 (if adminSupported m (BitVec.ofNat 8 i) then 1 else 0))) ++
    ((List.range 256).flatMap (fun i => bytesLE 4 (if ioSupported (BitVec.ofNat 8 i) 1#32 then 1 else 0))) ++ bytesLE 2048 0

/-! Flexible Data Placement (R97). -/

/-- Log 20h. -/
def State.fdpConfigLog (s : State) : List Byte :=
  bytesLE 4 0 ++ bytesLE 4 336 ++ bytesLE 8 0 ++
    layPage 64 [(0, 2, 320), (2, 1, 0x80), (4, 4, 1), (8, 2, 64), (10, 2, 63), (12, 4, 2), (16, 8, s.dp.zoneCap * 4096)] ++
    (List.range 64).flatMap (fun _ => bytesLE 4 1)

/-- Log 21h. -/
def fdpUsageLog (t : Tenant) : List Byte :=
  bytesLE 8 64 ++ (List.range 64).flatMap (fun i => bytesLE 8 (if (t.placement i).isSome then 1 else 0))

/-- Log 22h. -/
def fdpStatsLog (t : Tenant) : List Byte := (List.range 3).flatMap (fun i => bytesLE 16 (t.fdp.getD i 0)) ++ bytesLE 16 0

/-! Vendor pages (R165, R197, R230, R262, R341, R375, R510). -/

/-- Log C4h. -/
def recoveryLog (t : Tenant) : List Byte :=
  padTo 512 ((List.range 18).flatMap (fun i => satBytes (if i = 9 ∨ i = 10 ∨ i = 17 then 4 else 8) (t.c4.getD i 0)))

/-- The kind of item that runs in a group, as RELOCATION gives it. -/
def relocationNo : ItemKind → Nat
  | .merge _ _ _ => 1
  | .refreshNormal => 2
  | .refreshUrgent => 2
  | .degraded => 3
  | .wear => 4
  | _ => 0

/-- A group entry of log C5h. -/
def State.healthEntry (s : State) (g : Nat) : List Byte :=
  let st := if s.geo.absent.contains g then 1 else if s.degraded g then 2 else 0
  let bs := s.bolts.table.filter (fun p => decide (boltGroup p.1 = g))
  let rest := if s.dfltSt g = .released ∧ st ≠ 1 then s.userPerGroup + 6 + s.logPerGroup - bs.length else 0
  let n (b : BoltSt) : Nat := (bs.filter (fun p => decide (p.2.st = b))).length
  let fg := s.bolts.fgErase.contains g
  let ec := countStats (s.eraseCounts true [g])
  let items := s.recl.items.filter (fun i => decide (boltGroup i.bolt = g))
  let run := items.find? (fun i => i.running && decide (relocationNo i.kind ≠ 0))
  let dies := (List.range 32).map (s.dieOf g)
  let rebuilds := (items.filter (fun i => i.running && (match i.kind with | .rebuild _ _ _ => true | _ => false))).length
  let since := (items.filter (fun i => !i.running)).map (·.atUs) ++ (bs.filter (fun p => decide (p.2.st = .released))).map (·.2.relUs) ++
    (if rest = 0 then [] else [(default : Bolt).relUs])
  let age := match minOf since with | none => 0 | some u => (s.now - u) / 1000
  let refresh := (items.filter (fun i => !i.running && i.kind.isRefresh)).length
  if st = 1 then padTo 64 (bytesLE 1 g ++ bytesLE 1 1)
  else padTo 64 (bytesLE 1 g ++ bytesLE 1 st ++ bytesLE 1 fg.toNat ++ bytesLE 1 (n .float) ++ bytesLE 4 (n .released + rest + n .erasing) ++
    bytesLE 4 (s.erasedCount g) ++ bytesLE 4 (s.freeLogs g).length ++ bytesLE 4 ec.1 ++ bytesLE 4 ec.2.1 ++
    bytesLE 4 ((minOf ((dies.filter (fun d => !s.dieFailed d)).map s.spareLeft)).getD 0) ++
    bytesLE 4 (dies.foldl (fun a d => a + (s.die d).retired.length) 0) ++ bytesLE 4 refresh ++
    bytesLE 1 (match run with | none => 0 | some i => relocationNo i.kind) ++ bytesLE 1 rebuilds ++ bytesLE 2 0 ++ satBytes 4 age)

/-- Log C5h. -/
def State.healthLog (s : State) : List Byte :=
  let r := s.recl
  let u := countStats (s.eraseCounts true s.presentGroups)
  let l := countStats (s.eraseCounts false s.presentGroups)
  let waits := r.throttleWaitUs
  padTo 4096 (bytesLE 1 r.logState ++ bytesLE 1 s.bolts.fgErase.length ++ bytesLE 2 0 ++ bytesLE 4 s.freeLogCount ++
    bytesLE 4 r.throttled.length ++ bytesLE 4 r.intentsReplayed ++
    [r.mergesDone, r.mergesAbandoned, r.refreshesDone, r.degradedMoves, r.wearMoves, r.retiredErase, r.retiredProgram, r.erasesDone,
      r.urgentPromotions, waits].flatMap (satBytes 8) ++
    [u.1, u.2.1, u.2.2, l.1, l.2.2].flatMap (bytesLE 4) ++ bytesLE 2 s.ratedUser ++ bytesLE 2 30000 ++
    bytesLE 4 (s.bolts.table.filter (fun p => p.2.deferred)).length ++ bytesLE 132 0 ++ (List.range s.groups).flatMap s.healthEntry)

/-- STATE of a role (R230). -/
def roleStNo : RoleSt → Nat
  | .active => 0
  | .adopting => 1
  | .none => 2

/-- STATE of a bobbin (R230). -/
def bobStNo : BobSt → Nat
  | .owns => 0
  | .spare => 1
  | .retired => 2
  | .reloading => 3
  | .absent => 4

/-- A role entry of log C6h. -/
def State.roleEntry (s : State) (r : Nat) : List Byte :=
  if s.roles ≤ r then bytesLE 1 0 ++ bytesLE 1 3 ++ bytesLE 6 0
  else
    let x := s.role r
    bytesLE 1 x.owner ++ bytesLE 1 (roleStNo x.st) ++ bytesLE 2 x.epoch ++ bytesLE 2 x.moves ++ bytesLE 2 0

/-- A bobbin entry of log C6h. -/
def State.bobbinEntry (s : State) (b : Nat) : List Byte :=
  if s.isBobbin b then
    let x := s.bobbin b
    bytesLE 1 (bobStNo x.st) ++ bytesLE 1 (x.role.getD 0xFF) ++ bytesLE 1 x.cause ++ bytesLE 1 0
  else bytesLE 1 4 ++ bytesLE 1 0xFF ++ bytesLE 2 0

/-- Log C6h. -/
def State.engineLog (s : State) : List Byte :=
  let e := s.eng
  let spares := s.readySpares.length
  let gone := ((List.range s.roles).filter (fun r => decide ((s.role r).st = .none))).length
  padTo 2048 (bytesLE 2 s.gauge.now ++ bytesLE 2 s.pace ++ bytesLE 2 s.gauge.minR ++ bytesLE 2 s.gauge.maxR ++ bytesLE 1 s.pow.vcore ++
    bytesLE 1 s.gauge.fault.toNat ++ bytesLE 1 spares ++ bytesLE 1 e.retiredBobbins.length ++ bytesLE 1 gone ++ bytesLE 3 0 ++
    e.pairs.flatMap (bytesLE 1) ++ bytesLE 1 e.setM ++ bytesLE 1 e.setA ++ bytesLE 1 e.setH ++ bytesLE 1 0 ++
    [e.adoptions, e.bounces, e.takeovers, s.chan.cutoffs, s.chan.nullGrants, s.chan.quotaMasks, s.gauge.discards].flatMap (satBytes 8) ++
    bytesLE 176 0 ++ (List.range 128).flatMap s.roleEntry ++ (List.range 136).flatMap s.bobbinEntry)

/-- Log C7h of a function. -/
def vendorLog (x : Fn) : List Byte :=
  padTo 256 (bytesLE 4 x.vcount ++ bytesLE 4 (x.vcount - x.vevents.length) ++ bytesLE 8 0 ++
    x.vevents.flatMap (fun e => bytesLE 1 e.aei ++ bytesLE 1 0 ++ bytesLE 2 e.group ++ bytesLE 4 e.tenant ++ bytesLE 8 e.us))

/-- Log C8h. -/
def State.cipherLog (s : State) (slot : Nat) : List Byte :=
  let t := s.tenantD slot
  let a := s.keyCounts slot 0
  let b := s.keyCounts slot 1
  padTo 64 (bytesLE 1 (keyStNo (t.key 0).st) ++ bytesLE 1 (keyStNo (t.key 1).st) ++ bytesLE 2 0 ++ bytesLE 4 a.1 ++ bytesLE 4 b.1 ++
    bytesLE 8 a.2 ++ bytesLE 8 b.2 ++ (List.range 3).flatMap (fun i => satBytes 8 (t.c8.getD i 0)))

/-- CH_GIB, RANKS and DENSITY of a population (R348, R357). -/
def dramCfg (gib ranks : Nat) : Nat :=
  match gib, ranks with
  | 4, 1 => 0 + 1 * 2 ^ 9
  | 8, 1 => 1 * 2 ^ 5 + 2 * 2 ^ 9
  | 16, 1 => 2 * 2 ^ 5 + 3 * 2 ^ 9
  | 16, 2 => 2 * 2 ^ 5 + 1 * 2 ^ 8 + 2 * 2 ^ 9
  | 32, 2 => 3 * 2 ^ 5 + 1 * 2 ^ 8 + 3 * 2 ^ 9
  | _, _ => 0

/-- DM_CFG (R357). -/
def State.dmCfg (s : State) : Nat :=
  s.mem.mapOrder.toNat + 4 * s.mem.lock.toNat + 8 * s.mem.rate + dramCfg s.board.dramGib s.board.dramRanks + 2 ^ 16 * s.mem.chOk.toNat

/-- Log C9h. -/
def State.memoryLog (s : State) : List Byte :=
  let m := s.mem
  let pools := [s.hostClass - s.wr.hostUsed, s.reclClass - s.wr.reclUsed, s.sysClass - s.wr.sysUsed]
  let halted := (List.range 64).flatMap (fun c => bytesLE 1 (Tab.get ShtCh.fresh m.shuttle c).lastStatus)
  padTo 512 (bytesLE 4 s.dmCfg ++ bytesLE 4 (if m.up then s.board.dramGib * 896 else 0) ++
    bytesLE 4 (if m.up then swatchPool s.board.dramGib else 0) ++ pools.flatMap (bytesLE 4) ++ m.classLow.flatMap (bytesLE 4) ++
    m.allocFails.flatMap (bytesLE 4) ++ [m.sramCorr, m.dramCorr, m.sramUnc, m.dramUnc, m.lost].flatMap (satBytes 8) ++
    bytesLE 4 m.scrubSramH ++ bytesLE 4 m.scrubDramH ++ bytesLE 8 m.sramPassUs ++ bytesLE 8 m.dramPassUs ++
    satBytes 8 m.shuttleHalts ++ satBytes 8 m.shuttleRetries ++ satBytes 8 m.rawWaits ++ bytesLE 2 m.darnSlotLow ++
    bytesLE 2 (4608 - (s.wr.accums.map (·.bolt)).eraseDups.length) ++ bytesLE 4 0 ++ halted)

/-- Log CBh (R510). -/
def State.tenantLog (s : State) (slot : Nat) : List Byte :=
  let t := s.tenantD slot
  tenantBook t.pb ++ s.openRecord t

/-! Identify (R94, R95, R257, R401, R453). -/

/-- A power state descriptor (R453). -/
def State.psd (s : State) (n : Nat) : List (Nat × (Nat × Nat)) :=
  let at0 := 2048 + 32 * n
  let p (i : Nat) : Nat := s.pow.profile.getD (3 * n + i) 0
  let en := [0, 50, 150, 32000, 32100].getD n 0
  let ex := [0, 100, 150, 600, 800].getD n 0
  [(at0, 2, p 0), (at0 + 3, 1, if 3 ≤ n then 2 else 0), (at0 + 4, 4, en), (at0 + 8, 4, ex), (at0 + 12, 1, n), (at0 + 13, 1, n),
    (at0 + 14, 1, n), (at0 + 15, 1, n), (at0 + 16, 2, p 1), (at0 + 18, 1, 0x80), (at0 + 20, 2, p 2), (at0 + 22, 1, 0x80)]

/-- The ASCII of a part number (R4). -/
def partName : Part → List Nat
  | .tmy9632e => [0x54, 0x4D, 0x59, 0x2D, 0x39, 0x36, 0x33, 0x32, 0x45]
  | .tmy9632n => [0x54, 0x4D, 0x59, 0x2D, 0x39, 0x36, 0x33, 0x32, 0x4E]
  | .tmy9616e => [0x54, 0x4D, 0x59, 0x2D, 0x39, 0x36, 0x31, 0x36, 0x45]
  | .tmy9616n => [0x54, 0x4D, 0x59, 0x2D, 0x39, 0x36, 0x31, 0x36, 0x4E]

/-- ASCII padded with spaces, as a little-endian field. -/
def asciiField (len : Nat) (cs : List Nat) : Nat :=
  (cs ++ List.replicate (len - cs.length) 0x20).foldr (fun c v => c + 256 * v) 0

/-- FR: that of the running image (R1, R389, R396). -/
def State.firmwareRev (s : State) : Nat := (if s.hem.running = 2 then s.hem.twinB else s.hem.twinA).fwRev.toNat

/-- Identify Controller. -/
def State.identifyController (s : State) (f : FnId) : List Byte :=
  let m := s.isManager f
  let slot := (s.tenantOf f).getD 0
  let aw := if (s.tenantD slot).stagingLimit = 0 then 0 else 63
  let open_ (off len : Nat) : Nat × (Nat × Nat) := (off, len, Config.ident off)
  layPage 4096 ([open_ 0 2, open_ 2 2, open_ 4 20, (24, 40, asciiField 40 (partName s.board.part)), (64, 8, s.firmwareRev), open_ 72 1,
    open_ 73 3, open_ 76 1, (77, 1, 6), (78, 2, slot), (80, 4, 0x20000), open_ 84 8, (92, 4, 2 ^ 8 + 2 ^ 9 + 2 ^ 27), (96, 4, 2 ^ 19),
    open_ 111 17, (128, 2, 10), (256, 2, if m then 6 else 2), (258, 1, 3), (259, 1, 3), (260, 1, if m then 0x14 else 0), (261, 1, 6),
    (262, 1, 255), (263, 1, 4), (265, 1, 1), (266, 2, 368), (268, 2, 391), (270, 2, if m then 10 else 0), (319, 1, if m then 1 else 0),
    open_ 280 32, (328, 4, if s.cipher then 3 else 2), (512, 1, 0x66), (513, 1, 0x44), (516, 4, 2), (520, 2, 2 ^ 3 + 2 ^ 4 + 2 ^ 6),
    (526, 2, aw), (528, 2, aw), (536, 4, 2), open_ 768 256] ++ (List.range 5).flatMap s.psd)

/-- Identify Namespace (R94); zeros for a namespace of size 0. -/
def State.identifyNs (s : State) (slot nsid : Nat) : List Byte :=
  let t := s.tenantD slot
  let size := s.nsze t nsid
  if size = 0 then bytesLE 4096 0
  else
    let bound := (t.zones.filter (fun z => z.2.bolt.isSome)).length
    let u := if nsid = 1 then s.dp.u - 1 else 7
    layPage 4096 [(0, 8, size), (8, 8, size), (16, 8, if nsid = 1 then bound * s.dp.zoneSize else size), (24, 1, 16), (25, 1, 1),
      (26, 1, t.lbaf), (27, 1, 2), (33, 1, 1), (64, 2, u), (66, 2, u), (72, 2, u), (128, 4, 12 * 2 ^ 16), (132, 4, 8 + 12 * 2 ^ 16 + 2 ^ 24)]

/-- Identify Namespace for the Zoned Namespace command set (R95). -/
def State.identifyZoned (s : State) (slot : Nat) : List Byte :=
  let t := s.tenantD slot
  if s.nsze t 1 = 0 then bytesLE 4096 0
  else
    let n := (t.activeZones + 2 ^ 32 - 1) % 2 ^ 32
    layPage 4096 [(2, 2, 1), (4, 4, n), (8, 4, n), (2816, 8, s.dp.zoneSize), (2832, 8, s.dp.zoneSize)]

/-- The active NSIDs of a tenant above one. -/
def State.activeNs (s : State) (slot above : Nat) : List Nat :=
  [1, 2].filter (fun n => decide (above < n ∧ s.nsze (s.tenantD slot) n ≠ 0))

/-- A namespace list. -/
def nsList (xs : List Nat) : List Byte := padTo 4096 (xs.flatMap (bytesLE 4))

/-- The namespace identification descriptors: a UUID and the command set. -/
def nsDescriptors (slot nsid : Nat) : List Byte :=
  padTo 4096 (bytesLE 4 0x1003 ++ bytesLE 16 (Config.ident (65536 + 4 * slot + nsid)) ++ bytesLE 4 0x0104 ++
    bytesLE 1 (if nsid = 1 then 2 else 0))

/-- The Identify data that a CNS, CSI and NSID select (R94, R95, R256), or the status that refuses them. -/
def State.identifyData (s : State) (f : FnId) (cns csi nsid : Nat) : Sum Nat (List Byte) :=
  let slot := (s.tenantOf f).getD 0
  let one (b : List Byte) : Sum Nat (List Byte) := if nsid = 1 ∨ nsid = 2 then .inr b else .inl nvBadNs
  let sets := decide (csi = 0 ∨ csi = 2)
  match cns with
  | 0 => one (s.identifyNs slot nsid)
  | 1 => .inr (s.identifyController f)
  | 2 => if 0xFFFFFFFE ≤ nsid then .inl nvBadNs else .inr (nsList (s.activeNs slot nsid))
  | 3 => if s.nsActive slot (BitVec.ofNat 32 nsid) then .inr (nsDescriptors slot nsid) else .inl nvBadNs
  | 5 => if !sets then .inl nvBadField
    else if csi = 2 ∧ nsid = 2 then (if s.nsActive slot 2#32 then .inl nvBadField else .inr (bytesLE 4096 0))
    else if csi = 0 ∧ nsid = 1 then .inl nvBadField
    else one (if csi = 2 then s.identifyZoned slot else bytesLE 4096 0)
  | 6 => if !sets then .inl nvBadField else .inr (layPage 4096 (if csi = 2 then [(0, 1, 6)] else []))
  | 7 => if !sets then .inl nvBadField
    else if 0xFFFFFFFE ≤ nsid then .inl nvBadNs
    else .inr (nsList ((s.activeNs slot nsid).filter (fun n => decide ((n = 1) = (csi = 2)))))
  | 8 => one (layPage 4096 [(14, 1, if s.nsActive slot (BitVec.ofNat 32 nsid) then 1 else 0)])
  | _ => .inl nvBadField

/-! Which page a LID names (R165, R259). -/

/-- The tenant that a page of R165's kind reports, if its identifier is valid. -/
def State.logTenant (s : State) (f : FnId) (lsi : Nat) : Option Nat :=
  if s.isManager f then (if (s.tenant lsi).isSome then some lsi else none)
  else if lsi = 0 then s.tenantOf f else none

/-- The bytes of a log page, or the status that refuses it. -/
def State.logData (s : State) (f : FnId) (lid lsi v : Nat) : Sum Nat (List Byte) :=
  let t := s.tenantD ((s.tenantOf f).getD 0)
  let perTenant (g : Nat → List Byte) : Sum Nat (List Byte) :=
    match s.logTenant f lsi with | none => .inl nvBadField | some k => .inr (g k)
  let managerOnly (b : List Byte) : Sum Nat (List Byte) :=
    if s.isManager f ∧ lsi = 0 then .inr b else .inl nvBadField
  match lid with
  | 0x01 => .inr (padTo 16384 ((s.fn f).errs.flatMap errBytes))
  | 0x02 => .inr (s.smartLog f v)
  | 0x03 => .inr s.slotLog
  | 0x04 => .inr (nsListLog t)
  | 0x05 => .inr (s.effectsLog f)
  | 0x20 => .inr s.fdpConfigLog
  | 0x21 => .inr (fdpUsageLog t)
  | 0x22 => .inr (fdpStatsLog t)
  | 0x23 => .inr (bytesLE 64 0)
  | 0x81 => .inr s.sanitiseLog
  | 0xBF => .inr (s.zoneListLog t)
  | 0xC4 => perTenant (fun k => recoveryLog (s.tenantD k))
  | 0xC5 => managerOnly s.healthLog
  | 0xC6 => managerOnly s.engineLog
  | 0xC7 => .inr (vendorLog (s.fn f))
  | 0xC8 => if s.cipher then perTenant s.cipherLog else .inl nvBadLog
  | 0xC9 => managerOnly s.memoryLog
  | 0xCA => if lsi = 0 then .inr s.thermalLog else .inl nvBadField
  | 0xCB => perTenant s.tenantLog
  | _ => .inl nvBadLog

end Sys2Proof.Machine
end

