-- ==== Sys2Proof/Machine/Admin.lean ====
section
/-! DEFINITION. The admin commands of R256 past the arbiter: queues (R239, R254), Get Log Page (R259), Identify (R257), Abort
(R253), features (R258) and Asynchronous Event Request (R256). -/

namespace Sys2Proof.Machine

/-- What an admin row does with its command and the entry that carries it (R242). -/
def State.onAdmin (s : State) (c : NvmeCmd) (op : BitVec 8) (sel : Sqe → Bool) (act : Sqe → State → State) : State :=
  match s.host.granted.find? (isGrant c op sel) with
  | none => s
  | some p => s.onGrant c op sel (act p.2.1)

/-- An admin command's data sent to the host, once its pointers pass the data stage (R250). -/
def State.sendData (s : State) (c : NvmeCmd) (addr : Nat) (bytes : List Byte) (after : State → State) : State :=
  s.dataStage c 0 0 0 (fun s => after (s.emit (.mem c.fn.port addr bytes)))

/-! Queues (R238-R240, R254). -/

/-- Queue pairs in force. -/
def Tenant.pairsInForce (t : Tenant) : Nat := (t.qpairs.filter (·.usable)).length

/-- The first condition of R239 that both creations share. -/
def createVerdict (n qid qsize prp1 : Nat) (used pc : Bool) : Option Nat :=
  if qid = 0 ∨ n < qid ∨ used then some nvBadQid
  else if qsize = 0 ∨ 4095 < qsize then some nvBadQsize
  else if !pc ∨ prp1 % 4096 ≠ 0 then some nvBadField
  else none

/-- CREATE_IO_SQ past the arbiter. -/
def createSqRun (c : NvmeCmd) (qid qsize : Nat) (pc : Bool) (prp1 cqid : Nat) (qprio : BitVec 2) (s : State) : State :=
  let n := (s.tenantD ((s.tenantOf c.fn).getD 1024)).pairsInForce
  let x := s.fn c.fn
  match createVerdict n qid qsize prp1 (x.sq qid).isSome pc with
  | some st => s.failCmd c.fn c st
  | none =>
    if cqid = 0 ∨ (x.cq cqid).isNone then s.failCmd c.fn c nvCqInvalid
    else
      let q : Sq := { (default : Sq) with qid := qid, base := prp1, size := qsize + 1, cqid := cqid, prio := qprio.toNat, st := .active }
      (s.updFn c.fn (fun x => { x with sqs := x.sqs ++ [q] })).okCmd c

/-- CREATE_IO_SQ (R239). -/
def execCreateIoSq (c : NvmeCmd) (qid qsize : Nat) (pc : Bool) (prp1 cqid : Nat) (qprio : BitVec 2) (s : State) :
    Host.Outcome State Fault Refusal :=
  settled (.next (s.onGrant c 0x01#8 (fun e => decide (e.dw10.toNat = qid + qsize * 65536 ∧ e.dw11.getLsbD 0 = pc ∧
    e.dw11.extractLsb' 1 2 = qprio ∧ e.dw11.toNat / 65536 = cqid)) (createSqRun c qid qsize pc prp1 cqid qprio)))

/-- CREATE_IO_CQ past the arbiter. -/
def createCqRun (c : NvmeCmd) (qid qsize : Nat) (pc : Bool) (prp1 : Nat) (ien : Bool) (iv : Nat) (s : State) : State :=
  let n := (s.tenantD ((s.tenantOf c.fn).getD 1024)).pairsInForce
  let x := s.fn c.fn
  match createVerdict n qid qsize prp1 (x.cq qid).isSome pc with
  | some st => s.failCmd c.fn c st
  | none =>
    if ien ∧ (s.blockOf c.fn iv).isNone then s.failCmd c.fn c nvBadVector
    else
      let q : Cq := { (default : Cq) with qid := qid, base := prp1, size := qsize + 1, ien := ien, iv := iv, phase := true }
      (s.updFn c.fn (fun x => { x with cqs := x.cqs ++ [q] })).okCmd c

/-- CREATE_IO_CQ (R239). -/
def execCreateIoCq (c : NvmeCmd) (qid qsize : Nat) (pc : Bool) (prp1 : Nat) (ien : Bool) (iv : Nat) (s : State) :
    Host.Outcome State Fault Refusal :=
  settled (.next (s.onGrant c 0x05#8 (fun e => decide (e.dw10.toNat = qid + qsize * 65536 ∧ e.dw11.getLsbD 0 = pc ∧
    e.dw11.getLsbD 1 = ien ∧ e.dw11.toNat / 65536 = iv)) (createCqRun c qid qsize pc prp1 ien iv)))

/-- An entry never fetched completes with an identifier that the device has not read (R254, log 11). -/
def State.abortUnread (s : State) (f : FnId) (qid : Nat) : State :=
  let (v, s) := s.draw
  s.completeFetched f qid { (default : NvmeCmd) with fn := f, sqid := qid, cid := v % 65536 } nvSqDeleted

/-- `n` entries never fetched completed. -/
def State.abortUnreads : Nat → State → FnId → Nat → State
  | 0, s, _, _ => s
  | n + 1, s, f, qid => State.abortUnreads n (s.abortUnread f qid) f qid

/-- DELETE_IO_SQ past the arbiter: the queue is DELETING, and what was not granted completes (R254). -/
def deleteSqRun (c : NvmeCmd) (qid : Nat) (s : State) : State :=
  match (s.fn c.fn).sq qid with
  | none => s.failCmd c.fn c nvBadQid
  | some q =>
    if qid = 0 ∨ q.st = .deleting then s.failCmd c.fn c nvBadQid
    else
      let unread := (q.tail + q.size - q.fetchPtr % q.size) % q.size
      let s := s.updFn c.fn (fun x => x.updSq qid (fun (q : Sq) => { q with st := .deleting, pre := [] }))
      let s := q.pre.foldl (fun s e => s.completeFetched c.fn qid e.sqe.cmd nvSqDeleted) s
      let s := State.abortUnreads unread s c.fn qid
      let s := s.updFn c.fn (fun x => x.updSq qid (fun (q : Sq) => { q with fetchPtr := q.tail, landings := [] }))
      (s.updFn c.fn (fun x => { x with deleting := x.deleting ++ [(qid, c.cid)] })).settleDeletes c.fn

/-- DELETE_IO_SQ (R254). -/
def execDeleteIoSq (c : NvmeCmd) (qid : Nat) (s : State) : Host.Outcome State Fault Refusal :=
  settled (.next (s.onGrant c 0x00#8 (fun e => decide (e.dw10.toNat % 65536 = qid)) (deleteSqRun c qid)))

/-- DELETE_IO_CQ past the arbiter (R254). -/
def deleteCqRun (c : NvmeCmd) (qid : Nat) (s : State) : State :=
  let x := s.fn c.fn
  if qid = 0 ∨ (x.cq qid).isNone then s.failCmd c.fn c nvBadQid
  else if x.sqs.any (fun q => decide (q.cqid = qid)) then s.failCmd c.fn c nvBadDeletion
  else (s.updFn c.fn (fun x => { x with cqs := x.cqs.filter (fun q => decide (q.qid ≠ qid)) })).okCmd c

/-- DELETE_IO_CQ (R254). -/
def execDeleteIoCq (c : NvmeCmd) (qid : Nat) (s : State) : Host.Outcome State Fault Refusal :=
  settled (.next (s.onGrant c 0x04#8 (fun e => decide (e.dw10.toNat % 65536 = qid)) (deleteCqRun c qid)))

/-! Get Log Page and Identify (R257, R259). -/

/-- The log lists that a read with RAE = 0 clears (R259, R262). -/
def clearRead (lid : Nat) (t : Tenant) : Tenant :=
  if lid = 0x04 then { t with nsChanged := [] } else if lid = 0xBF then { t with zoneList := [] } else t

/-- A read of log C7h with RAE = 0: the entries and counts are cleared and the function is armed again (R262). -/
def Fn.ackVendor (x : Fn) : Fn := { x with vevents := [], vcount := 0, vpend := false }

/-- What a read with RAE = 0 acknowledges (R250, R262). -/
def State.logRead (s : State) (f : FnId) (lid : Nat) (rae : Bool) : State :=
  if rae then s
  else
    let s := s.ackLog f lid
    let s := if lid = 0xC7 then s.updFn f Fn.ackVendor else s
    match s.tenantOf f with
    | none => s
    | some k => s.updTenant k (clearRead lid)

/-- Get Log Page past the arbiter: the part of the page that the entry's offset and length select (R259). -/
def getLogRun (c : NvmeCmd) (lid lsi : Nat) (rae : Bool) (addr : Nat) (e : Sqe) (s : State) : State :=
  let (v, s) := if lid = 0x02 ∧ s.composite = none then s.draw else (0, s)
  match s.logData c.fn lid lsi v with
  | .inl st => s.failCmd c.fn c st
  | .inr page =>
    let off := e.dw12.toNat + e.dw13.toNat * 2 ^ 32
    if off % 4 ≠ 0 ∨ page.length < off then s.failCmd c.fn c nvBadField
    else s.sendData c addr ((page.drop off).take e.xfer) (fun s => (s.logRead c.fn lid rae).okCmd c)

/-- Whether an entry carries a Get Log Page's operands. -/
def logInEntry (lid lsi : Nat) (rae : Bool) (e : Sqe) : Bool :=
  decide (e.dw10.toNat % 256 = lid ∧ e.dw10.getLsbD 15 = rae ∧ e.dw11.toNat / 65536 = lsi)

/-- GET_LOG_PAGE (R259). -/
def execGetLogPage (c : NvmeCmd) (lid lsi : Nat) (rae : Bool) (addr : Nat) (s : State) : Host.Outcome State Fault Refusal :=
  settled (.next (s.onAdmin c 0x02#8 (logInEntry lid lsi rae) (getLogRun c lid lsi rae addr)))

/-- GET_LOG_VENDOR_EVENTS (R262): the read of log C7h. -/
def execGetLogVendorEvents (c : NvmeCmd) (lsi : Nat) (rae : Bool) (addr : Nat) (s : State) : Host.Outcome State Fault Refusal :=
  settled (.next (s.onAdmin c 0x02#8 (logInEntry 0xC7 lsi rae) (getLogRun c 0xC7 lsi rae addr)))

/-- Identify past the arbiter. -/
def identifyRun (c : NvmeCmd) (cns csi addr : Nat) (s : State) : State :=
  match s.identifyData c.fn cns csi c.nsid.toNat with
  | .inl st => s.failCmd c.fn c st
  | .inr page => s.sendData c addr page (fun s => s.okCmd c)

/-- IDENTIFY (R257). -/
def execIdentify (c : NvmeCmd) (cns csi addr : Nat) (s : State) : Host.Outcome State Fault Refusal :=
  settled (.next (s.onGrant c 0x06#8 (fun e => decide (e.dw10.toNat % 256 = cns ∧ e.dw11.toNat / 2 ^ 24 = csi)) (identifyRun c cns csi addr)))

/-! Abort (R253). -/

/-- Abort Command Limit Exceeded (log 35). -/
def nvAbortLimit : Nat := 0x103

/-- Abort past the arbiter: a target that has not been granted completes aborted. -/
def abortRun (c : NvmeCmd) (sqid acid : Nat) (s : State) : State :=
  let others := (s.host.granted.filter (fun p => decide (p.1 = c.fn ∧ p.2.2 = 0 ∧ p.2.1.opcode = 0x08#8))).length
  let target := if sqid = 0 then none else ((s.fn c.fn).sq sqid).bind (fun q => q.pre.find? (fun e => decide (e.sqe.cmd.cid = acid)))
  if 4 ≤ others then s.failCmd c.fn c nvAbortLimit
  else match target with
    | none => s.okCmd c 1#32
    | some e =>
      let s := s.updFn c.fn (fun x => x.updSq sqid (fun (q : Sq) => { q with pre := q.pre.erase e }))
      ((s.completeFetched c.fn sqid e.sqe.cmd nvAborted).okCmd c).tryFetch c.fn sqid

/-- ABORT (R253). -/
def execAbort (c : NvmeCmd) (sqid acid : Nat) (s : State) : Host.Outcome State Fault Refusal :=
  settled (.next (s.onGrant c 0x08#8 (fun e => decide (e.dw10.toNat = sqid + acid * 65536)) (abortRun c sqid acid)))

/-! Features (R258). -/

/-- The features of R258. -/
def featureIds : List Nat := [0x01, 0x02, 0x04, 0x05, 0x07, 0x08, 0x09, 0x0B, 0x0C, 0x0E, 0x16, 0x1D, 0xC2, 0xC3, 0xC4, 0xC5, 0xC6]

/-- The features that only the manager function sets (R258). -/
def managerFeatures : List Nat := [0x02, 0x04, 0x0C, 0xC2, 0xC3, 0xC4, 0xC5]

/-- The features that can be saved (R154, R460). -/
def saveableFeatures : List Nat := [0x0C, 0xC2, 0xC3, 0xC4, 0xC5]

/-- A Set Features of one feature: refused on a function that may not set it, with SV where it cannot be saved, or with values
outside their ranges; a value to be saved is in the Hem store first (R154, R258). -/
def setFeature (c : NvmeCmd) (fid : Nat) (sv valid hemOk : Bool) (act : State → State) (s : State) : State :=
  if !featureIds.contains fid ∨ (managerFeatures.contains fid && !s.isManager c.fn) then s.failCmd c.fn c nvBadField
  else if sv && !saveableFeatures.contains fid then s.failCmd c.fn c nvNotSaveable
  else if c.nsid ≠ 0#32 ∧ c.nsid ≠ 0xFFFFFFFF#32 then s.failCmd c.fn c nvNotPerNs
  else if !valid then s.failCmd c.fn c nvBadField
  else if sv ∧ s.supply.ewLatched then s.failCmd c.fn c nvInternal
  else if sv && !hemOk then (s.hemFailed).failCmd c.fn c nvInternal
  else act s

/-- Whether an entry is a Set Features of a feature with a Dword 11. -/
def setInEntry (fid : Nat) (dw11 : BitVec 32) (e : Sqe) : Bool := decide (e.dw10.toNat % 256 = fid ∧ e.dw11 = dw11)

/-- SV of an entry. -/
def svOf (e : Sqe) : Bool := e.dw10.getLsbD 31

/-- Bits `lo` to 31 of a Dword are zero. -/
def zeroFrom (x : BitVec 32) (lo : Nat) : Bool := decide (x.toNat < 2 ^ lo)

/-- Feature 05h, 0Bh, 16h or 1Dh past the checks that all features share. -/
def plainFeature (c : NvmeCmd) (fid : Nat) (sv : Bool) (dw11 dw12 : BitVec 32) (data : List Byte) (s : State) : State :=
  let set (valid : Bool) (g : Fn → Fn) : State :=
    setFeature c fid sv valid true (fun s => (s.updFn c.fn g).okCmd c) s
  match fid with
  | 0x05 => set (zeroFrom dw11 16) (fun x => { x with tler := dw11.extractLsb' 0 16 })
  | 0x0B => set (decide (dw11 &&& ~~~0x080003FF#32 = 0#32)) (fun x => { x with aec := dw11 })
  | 0x16 => s.dataStage c 0 0 0 (fun _ =>
      set (zeroFrom dw11 0 && decide ((data.headD 0#8).toNat ≤ 1)) (fun x => { x with acre := decide (data.headD 0#8 = 1#8) }))
  | 0x1D => set (decide (dw12 = 1#32)) (fun x => x)
  | _ => s.failCmd c.fn c nvBadField

/-- SET_FEATURES of a feature without a row of its own (R258). -/
def execSetFeatures (c : NvmeCmd) (fid : Nat) (sv : Bool) (dw11 dw12 : BitVec 32) (data : List Byte) (s : State) :
    Host.Outcome State Fault Refusal :=
  settled (.next (s.onGrant c 0x09#8 (fun e => setInEntry fid dw11 e && decide (e.dw12 = dw12 ∧ svOf e = sv) &&
      (!featureIds.contains fid || [0x05, 0x0B, 0x16, 0x1D].contains fid))
    (plainFeature c fid sv dw11 dw12 data)))

/-- Feature C2h's Dwords as they stand (R154). -/
def State.curC2 (s : State) : BitVec 32 × BitVec 32 := (BitVec.ofNat 32 (s.rd.threshUs + s.rd.pct * 65536), BitVec.ofNat 32 s.rd.depth)

/-- Feature C3h's Dwords as they stand (R195). -/
def State.curC3 (s : State) : BitVec 32 × BitVec 32 :=
  (BitVec.ofNat 32 (s.recl.logLow + s.recl.logHigh * 2 ^ 8 + s.recl.eraseLow * 2 ^ 16 + s.recl.eraseHigh * 2 ^ 24),
    BitVec.ofNat 32 (s.recl.refreshBits + s.recl.idleMs * 2 ^ 8 + s.recl.mergeAgeS * 2 ^ 16))

/-- The granted count as Feature 07h reports it (R240). -/
def State.queueCounts (s : State) (f : FnId) : BitVec 32 :=
  let n := (s.tenantD ((s.tenantOf f).getD 1024)).pairsInForce - 1
  BitVec.ofNat 32 (n + n * 65536)

/-- A feature's current value (R258). -/
def State.featureNow (s : State) (f : FnId) (fid : Nat) (dw11 : BitVec 32) : BitVec 32 :=
  let x := s.fn f
  let sensor := fieldLE dw11 2 1 % 16
  match fid with
  | 0x01 => x.arb
  | 0x02 => BitVec.ofNat 32 s.pow.ps
  | 0x04 =>
    let tab := if fieldLE dw11 2 1 / 16 % 4 = 0 then s.therm.overK else s.therm.underK
    BitVec.ofNat 32 (tab.getD sensor 0)
  | 0x05 => x.tler.setWidth 32
  | 0x07 => s.queueCounts f
  | 0x08 => x.coal.setWidth 32
  | 0x09 => BitVec.ofNat 32 (dw11.toNat % 65536 + (if x.cds.contains (dw11.toNat % 65536) then 65536 else 0))
  | 0x0B => x.aec
  | 0x0C => BitVec.ofNat 32 s.pow.apste.toNat
  | 0x1D => 1#32
  | 0xC2 => s.curC2.1
  | 0xC3 => s.curC3.1
  | 0xC4 => BitVec.ofNat 32 (s.chan.hpQuota + s.chan.hold * 2 ^ 8)
  | 0xC5 => BitVec.ofNat 32 (s.host.nth + s.host.ageLimit * 2 ^ 16)
  | 0xC6 => x.vec.setWidth 32
  | _ => 0#32

/-- A feature's default value (R154, R195, R229, R249, R488). -/
def featureDefault (fid : Nat) (dw11 : BitVec 32) : BitVec 32 :=
  match fid with
  | 0x04 => if fieldLE dw11 2 1 / 16 % 4 ≠ 0 then 0#32 else if fieldLE dw11 2 1 % 16 = 2 then 348#32 else 368#32
  | 0x1D => 1#32
  | 0xC2 => 0x000500C8#32
  | 0xC3 => 0x0C043010#32
  | 0xC4 => 0x00001030#32
  | 0xC5 => 0x00140020#32
  | _ => 0#32

/-- A feature's saved value, or its default (R154, R460). -/
def State.featureSaved (s : State) (fid : Nat) (dw11 : BitVec 32) : BitVec 32 :=
  let d := featureDefault fid dw11
  match fid with
  | 0x0C => match s.hem.savedApst with | none => d | some p => BitVec.ofNat 32 p.1.toNat
  | 0xC2 => match s.hem.savedC2 with | none => d | some p => p.1
  | 0xC3 => match s.hem.savedC3 with | none => d | some p => p.1
  | 0xC4 => s.hem.savedC4.getD d
  | 0xC5 => s.hem.savedC5.getD d
  | _ => d

/-- The second Dword that a Get Features of C2h or C3h returns, by SEL (R154, R195). -/
def State.featureSecond (s : State) (fid sel : Nat) : BitVec 32 :=
  match fid, sel with
  | 0xC2, 0 => s.curC2.2
  | 0xC3, 0 => s.curC3.2
  | 0xC2, 2 => (s.hem.savedC2.map (·.2)).getD 480#32
  | 0xC3, 2 => (s.hem.savedC3.map (·.2)).getD 0x001E0578#32
  | 0xC2, 1 => 480#32
  | 0xC3, 1 => 0x001E0578#32
  | _, _ => 0#32

/-- The APST table as bytes. -/
def apstBytes (t : List (BitVec 64)) : List Byte := padTo 256 (t.flatMap (fun e => bytesLE 8 e.toNat))

/-- The data structure that a feature has beside its Dword: `v` stands for a timestamp that was never set (R258, R460). -/
def State.featureData (s : State) (f : FnId) (fid sel v : Nat) : Option (List Byte) :=
  match fid with
  | 0x0C =>
    let t := if sel = 0 then s.pow.apst else if sel = 2 then (match s.hem.savedApst with | none => [] | some p => p.2) else []
    some (apstBytes t)
  | 0x0E => some (match (s.fn f).tsSet with
    | none => bytesLE 6 v ++ bytesLE 2 0
    | some (ts, us) => bytesLE 6 (ts + (s.now - us) / 1000) ++ bytesLE 2 2)
  | 0x16 => some (padTo 512 [if (s.fn f).acre && decide (sel = 0) then 1#8 else 0#8])
  | _ => none

/-- Capabilities of a feature: saveable, and changeable (NVMe 2.0, log 35). -/
def featureCaps (fid : Nat) : BitVec 32 := BitVec.ofNat 32 ((if saveableFeatures.contains fid then 1 else 0) + 4)

/-- Get Features past the arbiter. -/
def getFeaturesRun (c : NvmeCmd) (fid sel : Nat) (dw11 : BitVec 32) (addr : Nat) (s : State) : State :=
  if !featureIds.contains fid ∨ 3 < sel then s.failCmd c.fn c nvBadField
  else if fid = 0x04 ∧ (2 < fieldLE dw11 2 1 % 16 ∨ 1 < fieldLE dw11 2 1 / 16 % 4) then s.failCmd c.fn c nvBadField
  else if sel = 3 then s.okCmd c (featureCaps fid)
  else
    let val := if sel = 0 then s.featureNow c.fn fid dw11 else if sel = 1 then featureDefault fid dw11 else s.featureSaved fid dw11
    let (v, s) := if fid = 0x0E ∧ (s.fn c.fn).tsSet.isNone then s.draw else (0, s)
    match s.featureData c.fn fid sel v with
    | none => s.okCmd c val (s.featureSecond fid sel)
    | some b => s.sendData c addr b (fun s => s.okCmd c val)

/-- GET_FEATURES (R258). -/
def execGetFeatures (c : NvmeCmd) (fid sel : Nat) (dw11 : BitVec 32) (addr : Nat) (s : State) : Host.Outcome State Fault Refusal :=
  settled (.next (s.onGrant c 0x0A#8 (fun e => setInEntry fid dw11 e && decide (e.dw10.toNat / 256 % 8 = sel))
    (getFeaturesRun c fid sel dw11 addr)))

/-- A Set Features of a feature that is not saveable, with Dword 11 alone. -/
def State.setOne (s : State) (c : NvmeCmd) (fid : Nat) (dw11 : BitVec 32) (valid : State → Bool) (act : State → State) : State :=
  s.onAdmin c 0x09#8 (setInEntry fid dw11) (fun e s => setFeature c fid (svOf e) (valid s) true act s)

/-- SET_ARBITRATION (R242). -/
def execSetArbitration (c : NvmeCmd) (dw11 : BitVec 32) (s : State) : Host.Outcome State Fault Refusal :=
  settled (.next (s.setOne c 0x01 dw11 (fun _ => decide (dw11.toNat / 8 % 32 = 0)) (fun s =>
    (s.updFn c.fn (fun x => { x with arb := dw11 })).okCmd c)))

/-- Feature 02h past its checks (R457-R459): an operational state completes once its transition has ended, a non-operational one
before its entry begins. -/
def setPsRun (c : NvmeCmd) (n : Nat) (s : State) : State :=
  if 3 ≤ n then (s.okCmd c).requestNonOp n
  else
    let s : State := { s with pow.opPs := n, pow.target := none, pow.attempts := 0, pow.held := none, pow.step := .none }
    if s.opState = s.pow.ps then s.okCmd c
    else ({ s with pow.psCmd := some (c.fn, c.cid) } : State).moveTo s.opState

/-- SET_POWER_MANAGEMENT (R459): it waits for a transition in progress. -/
def execSetPowerManagement (c : NvmeCmd) (dw11 : BitVec 32) (s : State) : Host.Outcome State Fault Refusal :=
  let n := dw11.toNat % 32
  let free : Bool := match s.pow.step with | .none => true | .retryWait => true | _ => false
  if !free then .next s
  else settled (.next (s.setOne c 0x02 dw11
    (fun s => zeroFrom dw11 5 && decide (n ≤ 4 ∧ (n = 3 → s.pow.polFlags % 2 = 1) ∧ (n = 4 → s.pow.polFlags / 2 % 2 = 1)))
    (setPsRun c n)))

/-- SET_TEMPERATURE_THRESHOLD (R488). -/
def execSetTemperatureThreshold (c : NvmeCmd) (dw11 : BitVec 32) (s : State) : Host.Outcome State Fault Refusal :=
  let sel := fieldLE dw11 2 1 % 16
  let th := fieldLE dw11 2 1 / 16 % 4
  let k := fieldLE dw11 0 2
  settled (.next (s.setOne c 0x04 dw11 (fun _ => decide (sel ≤ 2 ∧ th ≤ 1) && zeroFrom dw11 22) (fun s =>
    let s : State := if th = 0 then { s with therm.overK := s.therm.overK.set sel k } else { s with therm.underK := s.therm.underK.set sel k }
    (s.okCmd c).watchFeature)))

/-- SET_NUMBER_OF_QUEUES (R240). -/
def execSetNumberOfQueues (c : NvmeCmd) (dw11 : BitVec 32) (s : State) : Host.Outcome State Fault Refusal :=
  settled (.next (s.setOne c 0x07 dw11 (fun _ => true) (fun s =>
    let x := s.fn c.fn
    if x.sqs.any (fun q => decide (q.qid ≠ 0)) || x.cqs.any (fun q => decide (q.qid ≠ 0)) then s.failCmd c.fn c nvSequence
    else s.okCmd c (s.queueCounts c.fn))))

/-- SET_INTERRUPT_COALESCING (R270): Feature 08h, or 09h with `vectorConfig`. -/
def execSetInterruptCoalescing (c : NvmeCmd) (vectorConfig : Bool) (dw11 : BitVec 32) (s : State) : Host.Outcome State Fault Refusal :=
  let v := dw11.toNat % 65536
  settled (.next (if vectorConfig then
      s.setOne c 0x09 dw11 (fun s => zeroFrom dw11 17 && (s.blockOf c.fn v).isSome) (fun s =>
        (s.updFn c.fn (fun x => { x with cds := if dw11.getLsbD 16 then addOnce x.cds v else x.cds.erase v })).okCmd c)
    else
      s.setOne c 0x08 dw11 (fun _ => zeroFrom dw11 16) (fun s =>
        (s.updFn c.fn (fun x => { x with coal := dw11.extractLsb' 0 16 })).okCmd c)))

/-- Whether an APST entry is one that R460 takes. -/
def apstEntryOk (flags : Nat) (p : BitVec 64 × Nat) : Bool :=
  let x := p.1.toNat
  let itps := x / 8 % 32
  let permitted := if itps = 3 then decide (flags % 2 = 1) else decide (flags / 2 % 2 = 1)
  if 4 ≤ p.2 then decide (x = 0)
  else decide (x % 8 = 0 ∧ x < 2 ^ 32) && (decide (itps = 0) || ((decide (itps = 4) || (decide (itps = 3 ∧ p.2 ≤ 2))) && permitted))

/-- SET_APST (R460). -/
def execSetApst (c : NvmeCmd) (sv : Bool) (dw11 : BitVec 32) (table : List (BitVec 64)) (hemOk : Bool) (s : State) :
    Host.Outcome State Fault Refusal :=
  settled (.next (s.onGrant c 0x09#8 (fun e => setInEntry 0x0C dw11 e && decide (svOf e = sv)) (fun s =>
    let tab := table.take 32
    let valid := zeroFrom dw11 1 && tab.zipIdx.all (apstEntryOk s.pow.polFlags)
    s.dataStage c 0 0 0 (setFeature c 0x0C sv valid hemOk (fun s =>
      let on := dw11.getLsbD 0
      let s : State := { s with pow.apste := on, pow.apst := tab }
      let s : State := if sv then { s with hem.savedApst := some (on, tab) } else s
      s.okCmd c)))))

/-- SET_TIMESTAMP (R258). -/
def execSetTimestamp (c : NvmeCmd) (timestamp : BitVec 48) (s : State) : Host.Outcome State Fault Refusal :=
  settled (.next (s.onAdmin c 0x09#8 (fun e => decide (e.dw10.toNat % 256 = 0x0E)) (fun e s =>
    s.dataStage c 0 0 0 (setFeature c 0x0E (svOf e) true true (fun s =>
      (s.updFn c.fn (fun x => { x with tsSet := some (timestamp.toNat, s.now) })).okCmd c)))))

/-- A value in a range. -/
def within (lo hi v : Nat) : Bool := decide (lo ≤ v ∧ v ≤ hi)

/-- SET_DARNING_CONTROL (R154). -/
def execSetDarningControl (c : NvmeCmd) (sv : Bool) (dw11 dw12 : BitVec 32) (hemOk : Bool) (s : State) : Host.Outcome State Fault Refusal :=
  let valid := within 50 2000 (fieldLE dw11 0 2) && within 1 25 (dw11.toNat / 65536 % 32) && zeroFrom dw11 21 &&
    within 240 7680 (fieldLE dw12 0 2) && zeroFrom dw12 16
  settled (.next (s.onGrant c 0x09#8 (fun e => setInEntry 0xC2 dw11 e && decide (e.dw12 = dw12 ∧ svOf e = sv))
    (setFeature c 0xC2 sv valid hemOk (fun s =>
      let s : State := if sv then { s with hem.savedC2 := some (dw11, dw12) } else s
      (s.applyC2 dw11 dw12).okCmd c))))

/-- SET_RECLAMATION_CONTROL (R195). -/
def execSetReclamationControl (c : NvmeCmd) (sv : Bool) (dw11 dw12 : BitVec 32) (hemOk : Bool) (s : State) :
    Host.Outcome State Fault Refusal :=
  let lo := fieldLE dw11 0 1
  let el := fieldLE dw11 2 1
  let valid := within 8 64 lo && within (lo + 8) 128 (fieldLE dw11 1 1) && within 1 32 el && within (el + 1) 64 (fieldLE dw11 3 1) &&
    within 40 180 (fieldLE dw12 0 1) && within 1 100 (fieldLE dw12 1 1) && within 1 3600 (fieldLE dw12 2 2)
  settled (.next (s.onGrant c 0x09#8 (fun e => setInEntry 0xC3 dw11 e && decide (e.dw12 = dw12 ∧ svOf e = sv))
    (setFeature c 0xC3 sv valid hemOk (fun s =>
      let s : State := if sv then { s with hem.savedC3 := some (dw11, dw12) } else s
      ((s.applyC3 dw11 dw12).okCmd c).tidy))))

/-- SET_CHANNEL_ARBITER_CONTROL (R229). -/
def execSetChannelArbiterControl (c : NvmeCmd) (sv : Bool) (dw11 : BitVec 32) (hemOk : Bool) (s : State) : Host.Outcome State Fault Refusal :=
  let valid := within 32 60 (fieldLE dw11 0 1) && within 12 64 (fieldLE dw11 1 1) && zeroFrom dw11 16
  settled (.next (s.onGrant c 0x09#8 (fun e => setInEntry 0xC4 dw11 e && decide (svOf e = sv))
    (setFeature c 0xC4 sv valid hemOk (fun s =>
      let s : State := if sv then { s with hem.savedC4 := some dw11 } else s
      (s.applyC4 dw11).okCmd c))))

/-- SET_INTAKE_ARBITRATION_CONTROL (R249). -/
def execSetIntakeArbitrationControl (c : NvmeCmd) (sv : Bool) (dw11 : BitVec 32) (hemOk : Bool) (s : State) :
    Host.Outcome State Fault Refusal :=
  let valid := within 8 255 (fieldLE dw11 0 1) && decide (fieldLE dw11 1 1 = 0) && within 1 1000 (fieldLE dw11 2 2)
  settled (.next (s.onGrant c 0x09#8 (fun e => setInEntry 0xC5 dw11 e && decide (svOf e = sv))
    (setFeature c 0xC5 sv valid hemOk (fun s =>
      let s : State := if sv then { s with hem.savedC5 := some dw11 } else s
      (s.applyC5 dw11).okCmd c))))

/-- SET_VENDOR_EVENT_CONFIGURATION (R262). -/
def execSetVendorEventConfiguration (c : NvmeCmd) (dw11 : BitVec 32) (s : State) : Host.Outcome State Fault Refusal :=
  settled (.next (s.setOne c 0xC6 dw11 (fun s => zeroFrom dw11 3 && (!dw11.getLsbD 0 || s.isManager c.fn)) (fun s =>
    (s.updFn c.fn (fun x => { x with vec := dw11.extractLsb' 0 3 })).okCmd c)))

/-! Asynchronous Event Request (R250, R256). -/

/-- An event request past the arbiter: an event that is held answers it, otherwise it waits. -/
def eventRequestRun (c : NvmeCmd) (s : State) : State :=
  let x := s.fn c.fn
  if 4 ≤ x.aers.length then s.failCmd c.fn c nvAerLimit
  else match x.held with
    | e :: r => (s.setFn c.fn { x with held := r }).okCmd c (aenDw0 e.1 e.2.1 e.2.2)
    | [] => s.setFn c.fn { x with
        aers := x.aers ++ [c.cid]
        granted := x.granted.filter (fun o => !decide (o.sqid = 0 ∧ o.cid = c.cid)) }

/-- ASYNCHRONOUS_EVENT_REQUEST. -/
def execAsynchronousEventRequest (c : NvmeCmd) (s : State) : Host.Outcome State Fault Refusal :=
  settled (.next (s.onGrant c 0x0C#8 (fun _ => true) (eventRequestRun c)))

end Sys2Proof.Machine
end

