-- ==== Sys2Proof/Machine/Spdm.lean ====
section
/-! DEFINITION. The SPDM responder of R338 and R339, over MCTP on the NVMe-MI endpoint. Response codes, error codes and the
order of requests are those of DMTF's SPDM 1.1 (log 42); digests, chains and signatures are symbolic (log 7). -/

namespace Sys2Proof.Machine

/-- The number of the security record: variant, MGR_SEL, debug authorisation state, Fray armed (R339 measurement 5). -/
def State.securityRecord (s : State) : Nat :=
  s.board.part.no + 4 * s.aon.straps.mgrSel.toNat + 16 * s.authorised.toNat + 32 * s.dbg.armed.toNat

/-- Measurement `k` (R339): none where the block is not present. Measurement 2 changes at step 4 of an activation and
measurement 3 once the last bobbin has reloaded (R397). -/
def State.measurement (s : State) (k : Nat) : Option Nat :=
  let now := (s.twin s.hem.running).digest
  let next := (s.twin s.otherTwin).digest
  let moved := decide (5 ≤ s.hem.actStep ∧ s.hem.actStep ≤ 7)
  match k with
  | 1 => some (Config.digest 1 0)
  | 2 => some (if moved then next else now)
  | 3 => some (Config.digest 3 (if s.hem.actStep = 7 then next else now))
  | 4 => some (if moved then now else next)
  | 5 => some (Config.digest 5 s.securityRecord)
  | 6 => if s.board.part.cipher then some (Config.digest 6 (s.hem.dkx.getD 0)) else none
  | _ => none

/-- The blocks present, each with its index (R339). -/
def State.measurements (s : State) : List (Nat × Nat) :=
  (List.range 7).filterMap (fun k => (s.measurement k).map (fun d => (k, d)))

/-- An SPDM request: it needs Claind, so it is a wake in PS3 and PS4 (R464), and it is answered once the device has booted. -/
def State.onSpdm (s : State) (f : State → State) : State :=
  if s.aon.booted ∧ !s.aon.coreReset then f (s.wakeUp 5 0xFFFF) else s

/-- An SPDM ERROR response with its error code (log 42). -/
def State.spdmError (s : State) (code : Nat) : State := s.emit (.spdm 0x7F [code])

/-- A request that needs negotiated algorithms (log 42). -/
def State.negotiated (s : State) (f : State → State) : State :=
  if s.aon.spdmAlg then f s else s.spdmError 4

/-- GET_VERSION (R338): versions 1.1 and 1.2; earlier negotiation is forgotten (log 42). -/
def execGetVersion (s : State) : Host.Outcome State Fault Refusal :=
  .next (s.onSpdm (fun s => ({ s with aon.spdmVersion := true, aon.spdmAlg := false } : State).emit (.spdm 0x04 [0x11, 0x12])))

/-- GET_CAPABILITIES (R338): CERT_CAP, CHAL_CAP and MEAS_CAP = 10b and nothing else, at bits 1, 2 and 4:3 (log 42). -/
def execGetCapabilities (s : State) : Host.Outcome State Fault Refusal :=
  .next (s.onSpdm (fun s => if s.aon.spdmVersion then s.emit (.spdm 0x61 [0x16]) else s.spdmError 4))

/-- NEGOTIATE_ALGORITHMS (R338): ECDSA P-384 and SHA-384; a requester that offers neither gets UnsupportedRequest (log 42). -/
def execNegotiateAlgorithms (ecdsaP384 sha384 : Bool) (s : State) : Host.Outcome State Fault Refusal :=
  .next (s.onSpdm (fun s =>
    if !s.aon.spdmVersion then s.spdmError 4
    else if !ecdsaP384 && !sha384 then s.spdmError 7
    else ({ s with aon.spdmAlg := ecdsaP384 && sha384 } : State).emit (.spdm 0x63 [ecdsaP384.toNat, sha384.toNat])))

/-- GET_DIGESTS (R338): the digest of the chain in slot 0. -/
def execGetDigests (s : State) : Host.Outcome State Fault Refusal :=
  .next (s.onSpdm (fun s => s.negotiated (fun s => s.emit (.spdm 0x01 [0, Config.digest 7 0]))))

/-- GET_CERTIFICATE (R338): the part of slot 0's chain asked for; other slots are an invalid request (log 42). -/
def execGetCertificate (slot offset length : Nat) (s : State) : Host.Outcome State Fault Refusal :=
  .next (s.onSpdm (fun s => s.negotiated (fun s =>
    if slot = 0 then s.emit (.spdm 0x02 [slot, offset, length, Config.digest 8 offset]) else s.spdmError 1)))

/-- CHALLENGE (R338): signed by the attestation key of slot 0 over the requester's nonce. -/
def execChallenge (slot : Nat) (nonce : BitVec 256) (s : State) : Host.Outcome State Fault Refusal :=
  .next (s.onSpdm (fun s => s.negotiated (fun s =>
    if slot = 0 then s.emit (.spdm 0x03 [slot, Config.digest 7 0, nonce.toNat, Config.digest 9 nonce.toNat]) else s.spdmError 1)))

/-- GET_MEASUREMENTS (R339): the block asked for, every block for 0xFF, and their number for 0 (log 42), under a signature
over the nonce. -/
def execGetMeasurements (index : Nat) (nonce : BitVec 256) (s : State) : Host.Outcome State Fault Refusal :=
  .next (s.onSpdm (fun s => s.negotiated (fun s =>
    let all := s.measurements
    let picked := if index = 0xFF then all else all.filter (fun p => decide (p.1 = index))
    if index = 0 then s.emit (.spdm 0x60 [all.length, nonce.toNat, Config.digest 9 nonce.toNat])
    else if picked.isEmpty then s.spdmError 1
    else s.emit (.spdm 0x60 (picked.flatMap (fun p => [p.1, p.2]) ++ [nonce.toNat, Config.digest 9 nonce.toNat])))))

end Sys2Proof.Machine
end

