-- ==== Sys2Proof/Machine/HemStore.lean ====
section
/-! DEFINITION. The Hem store's own operations: programs, erases and their suspension (R379, R380, R382), the rotating window
(R385), the margin read of the twins (R381). -/

namespace Sys2Proof.Machine

/-- The first waiting program that may be issued into a suspended erase: none is started after early warning (R388), and an
intent word that needs its sector erased first waits (R174). -/
def State.hemReady (s : State) (b : HemBank) : Option HemOp :=
  if s.lastCall then none
  else b.queue.find? (fun o => !o.erase && !(o.what.opens && s.intentErases))

/-- A bank whose erase goes on. -/
def HemBank.resume (b : HemBank) : HemBank :=
  { b with op := b.op.map (fun (o : HemOp) => { o with suspended := false, inWindow := 0 }), prog := none }

/-- What an idle bank does next: the operation at the head of its queue, behind the erase of an intent word's sector (R174,
R376). `cleared`: that sector has just been erased. -/
def State.hemNext (s : State) (k : Nat) (cleared : Bool) : State :=
  let b := s.hemBank k
  match b.op, b.queue with
  | none, o :: r =>
    if s.lastCall then s
    else if o.what.opens && s.intentErases && !cleared then s.setHemBank k { b with op := some (HemOp.of true .rewrite) }
    else s.setHemBank k { b with op := some o, queue := r }
  | _, _ => s

/-- The bank after a program issued into its suspended erase: the next one, up to three in a suspension, or the erase goes on
(R380). -/
def State.hemAfterNested (s : State) (k : Nat) : State :=
  let b := s.hemBank k
  match b.op, s.hemReady b with
  | some e, some o =>
    if e.inWindow < 3 then
      s.setHemBank k { op := some { e with inWindow := e.inWindow + 1 }, prog := some o, queue := b.queue.erase o }
    else s.setHemBank k b.resume
  | _, _ => s.setHemBank k b.resume

/-- A window move that ends: the gap's neighbour has been copied and the new pointer word programmed (R385, R386). -/
def State.windowMoved (s : State) : State :=
  let (gap, start) := if s.hem.gap = 0 then (12279, (s.hem.start + 1) % 12279) else (s.hem.gap - 1, s.hem.start)
  { s with hem.gap := gap, hem.start := start, hem.windowSeq := (s.hem.windowSeq + 1) % 65536 }

/-- A program that has ended for good (R173, R382, R385). -/
def State.hemProgrammed (s : State) (what : HemWhat) (ok : Bool) : State :=
  match what with
  | .gap => if ok then s.windowMoved else { s.hemFailed with hem.moveDue := true }
  | _ => s.hemDone what ok

/-- HEM_PROGRAM_COMPLETE (R379): a program that fails is retried once (R382). -/
def execHemProgramComplete (bank : Nat) (pass : Bool) (s : State) : Host.Outcome State Fault Refusal :=
  let b := s.hemBank bank
  match b.prog, b.op with
  | some o, _ =>
    if !pass && !o.tried then .next (s.setHemBank bank { b with prog := some { o with tried := true } })
    else .next (((s.setHemBank bank { b with prog := none }).hemProgrammed o.what pass).hemAfterNested bank)
  | none, some o =>
    if o.erase then .next s
    else if !pass && !o.tried then .next (s.setHemBank bank { b with op := some { o with tried := true } })
    else .next (((s.setHemBank bank { b with op := none }).hemProgrammed o.what pass).hemNext bank false)
  | none, none => .next s

/-- An erase that has failed for good (R382): what needed it fails too. -/
def State.hemEraseFailed (s : State) (k : Nat) (what : HemWhat) : State :=
  match what with
  | .gap => ({ s.hemFailed with hem.moveDue := true } : State).hemNext k false
  | _ =>
    let b := s.hemBank k
    match b.queue with
    | o :: r => ((s.setHemBank k { b with queue := r }).hemDone o.what false).hemNext k false
    | [] => s.hemFailed

/-- HEM_ERASE_COMPLETE (R379): the erase is counted for the window (R385); the gap's erase is followed by the copy and the
pointer word, an intent sector's by the word it was erased for; a failure is retried once (R382). -/
def execHemEraseComplete (bank : Nat) (pass : Bool) (s : State) : Host.Outcome State Fault Refusal :=
  let b := s.hemBank bank
  match b.op with
  | none => .next s
  | some o =>
    if !o.erase || o.suspended then .next s
    else if !pass then
      if o.tried then .next ((s.setHemBank bank { b with op := none }).hemEraseFailed bank o.what)
      else .next (s.setHemBank bank { b with op := some { o with tried := true } })
    else
      let s := s.countHemErase
      match o.what with
      | .gap =>
        if s.lastCall then .next (({ s with hem.moveDue := true } : State).setHemBank bank { b with op := none })
        else .next (s.setHemBank bank { b with op := some (HemOp.of false .gap) })
      | _ => .next ((s.setHemBank bank { b with op := none }).hemNext bank true)

/-- HEM_ERASE_SUSPEND (R380): an erase suspends for a waiting program, or for a read of the bank, at most 16 times. -/
def execHemEraseSuspend (bank : Nat) (s : State) : Host.Outcome State Fault Refusal :=
  let b := s.hemBank bank
  match b.op with
  | none => .next s
  | some e =>
    if !e.erase || e.suspended || decide (16 ≤ e.suspensions) then .next s
    else
      let e := { e with suspended := true, suspensions := e.suspensions + 1 }
      match s.hemReady b with
      | none => .next (s.setHemBank bank { b with op := some e })
      | some o => .next (s.setHemBank bank { op := some { e with inWindow := 1 }, prog := some o, queue := b.queue.erase o })

/-- HEM_SUSPEND_WINDOW_END (R380): the erase goes on, behind a program that has been issued and cannot be suspended. -/
def execHemSuspendWindowEnd (bank : Nat) (s : State) : Host.Outcome State Fault Refusal :=
  let b := s.hemBank bank
  match b.op with
  | none => .next s
  | some e =>
    if !e.suspended then .next s
    else if b.prog.isNone then .next (s.setHemBank bank b.resume)
    else .next (s.setHemBank bank { b with op := some { e with inWindow := 3 } })

/-- HEM_WINDOW_MOVE (R385): a move that is due begins with the erase of the gap sector; none is started after early warning
(R388). -/
def execHemWindowMove (s : State) : Host.Outcome State Fault Refusal :=
  if !s.hem.moveDue || s.lastCall then .next s
  else
    let k := s.gapBank
    let s := { s with hem.moveDue := false, hem.recordErases := s.hem.recordErases - 64 }
    let b := s.hemBank k
    let o := HemOp.of true .gap
    .next (s.setHemBank k (if b.idle then { b with op := some o } else { b with queue := b.queue ++ [o] }))

/-- A twin as the margin read leaves it: only a valid image is read (R381). -/
def Twin.margin (x : Twin) (ok : Bool) : Twin := if 3 ≤ x.st then { x with marginLow := x.marginLow || !ok } else x

/-- HEM_MARGIN_CHECK (R381): every 30 days of device time; the words that the reads correct are counted (R378). -/
def execHemMarginCheck (t : Nat) (a b : MarginRead) (s : State) : Host.Outcome State Fault Refusal :=
  let s := s.atTime t
  if s.hem.marginUs + 2592000000000 ≤ s.now then
    .next { s with
      hem.marginUs := s.now
      hem.corrected := s.hem.corrected + (a.corrected + b.corrected)
      hem.twinA := s.hem.twinA.margin a.ok
      hem.twinB := s.hem.twinB.margin b.ok }
  else .next s

end Sys2Proof.Machine
end

