-- ==== Sys2Proof/Machine/Ecc.lean ====
section
/-! DEFINITION. What an uncorrectable error brings about, by where it lies (R367, R368). -/

namespace Sys2Proof.Machine

/-- A committed sector lost before its durable copy: it reads as unrecovered, and is counted (R368). -/
def State.loseSector (s : State) (key : Nat) : State :=
  let mark : Sealed → Sealed := fun x => { x with lost := true, data := 0#32768 }
  let spoil : List (Nat × Sealed) → List (Nat × Sealed) := fun t => match Tab.find t key with
    | none => t
    | some y => Tab.set t key (mark y)
  let whole : Bool := [s.wr.swatches, s.wr.staging].any (fun t => match Tab.find t key with | some x => !x.lost | none => false)
  if whole then { s with wr.swatches := spoil s.wr.swatches, wr.staging := spoil s.wr.staging, mem.lost := s.mem.lost + 1 }
  else s

/-- A decoded sector that waits for a Seam lane is read again from its source (R367). -/
def State.rereadSector (s : State) (cmd i : Nat) : State :=
  match s.rd.seamQ.find? (fun j => j.isRead && decide (j.cmd = cmd ∧ j.sector = i)), s.readCmd cmd with
  | some j, some q =>
    let s := { s with rd.seamQ := s.rd.seamQ.erase j }
    if j.die = 1024 then s.seamPush j
    else
      let (op, s) := s.newOp
      s.submitRead (dieOfKey j.die) { j.src with id := op, sectors := [q.src.getD i 0 % 2 ^ 20], step := 1, tries := 0, base := 0, darnTried := false }
  | _, _ => s

/-- A darn restarted from its component reads, with no further charge (R367). -/
def State.restartDarn (s : State) (id : Nat) : State :=
  match s.rd.darns.find? (fun n => decide (n.id = id)) with
  | none => s
  | some n =>
    let (s, ds) := ({ s with
      rd.darns := s.rd.darns.filter (fun m => decide (m.id ≠ id))
      dies.table := s.dies.table.map (fun (p : Nat × Die) => (p.1, { p.2 with reads := p.2.reads.filter (fun r => decide (r.darn ≠ id)) })) } : State).startDarn n
    ds.foldl State.settle s

/-- A sector read for a move, whose program has not been queued, is read again from its source (R367). -/
def State.rereadMove (s : State) (item place : Nat) : State :=
  match s.recl.items.find? (fun i => decide (i.id = item) && i.got.contains place && i.cur.any (fun p => decide (p.2 = place))) with
  | none => s
  | some i => (s.setItem { i with got := i.got.filter (fun p => decide (p ≠ place)) }).readPlaces i [place]

/-- A warm device reset asked for by a duplicated record whose copies have both failed (R367, R524). -/
def State.askWarm (s : State) : State :=
  if s.supply.ewLatched then { s with aon.superseded := true }
  else
    let s := s.updMbxPort s.mbx.manager (fun x => { x with ready := false, readyAt := none })
    ({ s with aon.warmDue := true } : State).tryWarm

/-- A die whose ledger entry was lost during an adoption (R367): reads are darned, its program runs again from its swatches
and its erase is issued again under its open intent. -/
def State.rerunDie (s : State) (d : DieId) : State :=
  let s := (s.busDrop d).requeueReads d
  let x := s.die d
  (s.setDie d { x with
    progs := x.prog.toList ++ x.progs
    prog := none
    eraseQ := x.erase.toList.map (fun (e : EraseRun) => { e with suspended := false }) ++ x.eraseQ
    erase := none
    ledger := .idle }).settle d

/-- The outcome of an uncorrectable error by where it lies (R367). Where only a copy is rewritten or rebuilt, nothing of the state
changes. -/
def State.eccOutcome (s : State) (r : EccRegion) (both : Bool) : State :=
  match r with
  | .tailorTcm p => s.trapPair p
  | .bobbinStore b => s.bobbinFailed b 3
  | .readStaging c i => s.rereadSector c i
  | .darnAccumulator n => s.restartDarn n
  | .reclaimSwatch i p => s.rereadMove i p
  | .zoneMapCache | .parityLine | .mappingTables | .other => s
  | .tailorJournal | .roleTable | .mapJournal | .swatchState => if both then s.askWarm else s
  | .dieLedger d => if (s.role (roleOf d)).st = .adopting then s.rerunDie d else s
  | .hostSwatch t nsid lba => s.loseSector (secKey t nsid lba)

end Sys2Proof.Machine
end

