-- ==== Sys2Proof/Machine/Shuttle.lean ====
section
/-! DEFINITION. Shuttle DMA (R371-R374): descriptors, bursts and their retries, the channel registers; and a host's error
answer to a read of its memory (R251, R373). -/

namespace Sys2Proof.Machine

/-! Channels. -/

/-- A Shuttle channel. -/
def State.shtCh (s : State) (c : Nat) : ShtCh := Tab.get ShtCh.fresh s.mem.shuttle c

/-- The state with a Shuttle channel replaced. -/
def State.setShtCh (s : State) (c : Nat) (x : ShtCh) : State :=
  { s with mem.shuttle := if x = ShtCh.fresh then Tab.del s.mem.shuttle c else Tab.set s.mem.shuttle c x }

/-- The descriptors of a ring: values of ENTRIES outside 2-64 are treated as 64 (R374). -/
def ShtCh.ringLen (x : ShtCh) : Nat := if 2 ≤ x.entries ∧ x.entries ≤ 64 then x.entries else 64

/-- The Spool address of the descriptor at HEAD (R374). -/
def ShtCh.descAddr (x : ShtCh) : Nat := 32 * (x.base + x.head)

/-! Fields of the descriptor in progress (R372). -/

/-- SRC. -/
def ShtCh.src (x : ShtCh) : Nat := fieldLE x.desc 0 8
/-- DST. -/
def ShtCh.dst (x : ShtCh) : Nat := fieldLE x.desc 8 8
/-- LEN. -/
def ShtCh.len (x : ShtCh) : Nat := fieldLE x.desc 16 4
/-- SRC_SPACE. -/
def ShtCh.srcSpace (x : ShtCh) : Nat := fieldLE x.desc 20 1 % 16
/-- DST_SPACE. -/
def ShtCh.dstSpace (x : ShtCh) : Nat := fieldLE x.desc 20 1 / 16
/-- IRQ. -/
def ShtCh.irq (x : ShtCh) : Bool := x.desc.getLsbD 168
/-- FUNC. -/
def ShtCh.func (x : ShtCh) : Nat := fieldLE x.desc 22 2
/-- OWN. -/
def ShtCh.own (x : ShtCh) : Bool := x.desc.getLsbD 248

/-- The host port of an address space (R372). -/
def spacePort (sp : Nat) : Option Port := if sp = 2 then some .a else if sp = 3 then some .b else none

/-- The host ports that the descriptor in progress reaches. -/
def ShtCh.ports (x : ShtCh) : List Port := (spacePort x.srcSpace).toList ++ (spacePort x.dstSpace).toList

/-- Whether one side of a descriptor is at fault: a reserved space, a misaligned DRAM side, or an address beyond its block
(R373; for DRAM beyond the usable part, log 43). -/
def State.sideBad (s : State) (sp addr len : Nat) : Bool :=
  match sp with
  | 0 => decide (16777216 < addr + len)
  | 1 => decide (addr % 64 ≠ 0 ∨ len % 64 ≠ 0 ∨ !s.mem.up ∨ s.board.dramGib * 896 * 1048576 < addr + len)
  | 2 => false
  | 3 => false
  | 4 => decide (67108864 < addr + len)
  | _ => true

/-- DESCRIPTOR_FAULT (R373). -/
def State.descFault (s : State) (x : ShtCh) : Bool :=
  !x.own || decide (x.len = 0 ∨ 16777216 < x.len) || s.sideBad x.srcSpace x.src x.len || s.sideBad x.dstSpace x.dst x.len ||
    x.ports.any (fun p => !s.fnExists ⟨p, x.func⟩)

/-- REFUSED (R373): the function has Bus Master Enable clear or is in reset. -/
def State.descRefused (s : State) (x : ShtCh) : Bool :=
  x.ports.any (fun p => !(s.fn ⟨p, x.func⟩).bme || (s.portSt p).perst)

/-- A stopped host port that the descriptor reaches (R450). -/
def State.descStopped (s : State) (x : ShtCh) : Option Port := x.ports.find? (fun p => !s.inRun (2 + portNo p))

/-! Hem words (R377, R378). -/

/-- A Hem word that has been erased. -/
def HemWord.erased : HemWord := ⟨BitVec.allOnes 64, 0, 0xFF#8, 0xFF#8⟩

/-- A Hem word; one never programmed reads all ones. -/
def State.hemWord (s : State) (w : Nat) : HemWord := Tab.get HemWord.erased s.hem.words w

/-- A Hem word programmed: the first program writes check field 0, the second field 1; the code's matrix is not stated (R378,
log 11). -/
def HemWord.program (x : HemWord) (v : BitVec 64) : HemWord :=
  let k := BitVec.ofNat 8 (Config.secded v.toNat)
  if x.count = 0 then { x with val := v, count := 1, check0 := k } else { x with val := v, count := x.count + 1, check1 := k }

/-- The check field that a read of a Hem word is held against: that of its last program (R378). -/
def HemWord.check (x : HemWord) : Option (BitVec 8) :=
  if x.count = 0 then none else if x.count = 1 then some x.check0 else some x.check1

/-- A program of a Hem word: a third one, or one that would turn a 0 into a 1, is refused and recorded (R377). -/
def State.programWord (s : State) (w : Nat) (v : BitVec 64) : State :=
  let x := s.hemWord w
  if 2 ≤ x.count ∨ v &&& ~~~x.val ≠ 0#64 then s.selvedge { source := 4, code := 0x44, detail := w, answer := 1 }
  else { s with hem.words := Tab.set s.hem.words w (x.program v) }

/-- A byte of the Hem store. -/
def State.hemByte (s : State) (a : Nat) : Byte := BitVec.ofNat 8 (fieldLE (s.hemWord (a / 8)).val (a % 8) 1)

/-- Bytes programmed into the Hem store, word by word; the bytes of a word that are not written keep their value. No program
is started after early warning (R388). -/
def State.hemWrite (s : State) (a : Nat) (bs : List Byte) : State :=
  if bs.isEmpty || s.lastCall then s
  else (List.range ((a + bs.length - 1) / 8 - a / 8 + 1)).foldl (fun s i =>
    let w := a / 8 + i
    let v := numLE ((List.range 8).map (fun j =>
      let b := 8 * w + j
      if a ≤ b ∧ b < a + bs.length then bs.getD (b - a) 0#8 else s.hemByte b))
    s.programWord w (BitVec.ofNat 64 v)) s

/-! Moving bytes. -/

/-- `n` source bytes of the descriptor in progress from where it stands; a host's bytes are those it answered, and host memory
not given reads zero (log 8). -/
def State.shtSource (s : State) (x : ShtCh) (n : Nat) (host : List Byte) : List Byte :=
  let a := x.src + x.done
  match x.srcSpace with
  | 0 => s.spoolRead a n
  | 1 => s.mem.dram.readBytes a n
  | 4 => (List.range n).map (fun i => s.hemByte (a + i))
  | _ => (List.range n).map (fun i => host.getD i 0#8)

/-- Bytes written to the destination of the descriptor in progress, where it stands. -/
def State.shtSink (s : State) (x : ShtCh) (bs : List Byte) : State :=
  let a := x.dst + x.done
  match x.dstSpace with
  | 0 => s.spoolWrite a bs
  | 1 => (s.dramWrite a bs).getD s
  | 2 => s.emit (.mem .a a bs)
  | 3 => s.emit (.mem .b a bs)
  | _ => s.hemWrite a bs

/-- `n` bytes of the descriptor in progress moved. -/
def State.shtMove (s : State) (c n : Nat) (host : List Byte) : State :=
  let x := s.shtCh c
  if n = 0 then s
  else (s.shtSink x (s.shtSource x n host)).setShtCh c { x with done := x.done + n, credit := 0 }

/-- A descriptor ends (R372, R373): bytes 24-30 are written back, then OWN is cleared, then the owner is signalled; a nonzero
status halts the channel. HEAD moves on (log 43). A warm device reset that waited restores the registers (R374). -/
def State.shtEnd (s : State) (c status : Nat) : State :=
  let x := s.shtCh c
  let a := x.descAddr
  let back := bytesLE 4 x.done ++ bytesLE 1 status ++ bytesLE 1 x.retries ++ [0#8, 0#8]
  let bad := decide (status ≠ 0)
  let s := ({ s with mem.shuttleHalts := s.mem.shuttleHalts + bad.toNat } : State).spoolWrite (a + 24) back
  if x.resetDue then ({ s with mem.shuttle := Tab.del s.mem.shuttle c } : State).assignShare c
  else s.setShtCh c { x with
    running := false
    failed := false
    burstTries := 0
    head := (x.head + 1) % x.ringLen
    halted := x.halted || bad
    lastStatus := if bad then status else x.lastStatus
    irqs := x.irqs + x.irq.toNat }

/-- A burst of the descriptor in progress has failed (R373): it is retried 1 µs later, or the descriptor ends. -/
def State.shtFail (s : State) (c : Nat) : State :=
  let x := s.shtCh c
  if x.retry ≤ x.burstTries then s.shtEnd c 1 else s.setShtCh c { x with failed := true }

/-- A burst that meets a stop guard: recorded, and a bus error (R450). -/
def State.shtGuard (s : State) (c : Nat) (p : Port) : State :=
  (s.selvedge { source := 4, code := 0x47, detail := 2 + portNo p, loc := c, answer := 1 }).shtFail c

/-- The channel starts its next descriptor, if it runs (R372, R373). -/
def State.shtStart (s : State) (c : Nat) : State :=
  let x := s.shtCh c
  if !x.enable || x.halted || x.running || decide (x.head = x.tail) then s
  else
    let x := { x with
      running := true
      desc := BitVec.ofNat 256 (numLE (s.spoolRead x.descAddr 32))
      done := 0
      retries := 0
      burstTries := 0
      failed := false }
    let s := s.setShtCh c x
    if s.descFault x then s.shtEnd c 3
    else if s.descRefused x then s.shtEnd c 4
    else match s.descStopped x with
      | some p => s.shtGuard c p
      | none => s

/-- The descriptor in progress, all moved, ends well, and the next one starts. -/
def State.shtDone (s : State) (c : Nat) : State := (s.shtEnd c 0).shtStart c

/-! Registers (R374). -/

/-- SHT_PTR_WRITE: TAIL, and the channel wakes. -/
def execShtPtrWrite (c : Nat) (value : BitVec 32) (s : State) : Host.Outcome State Fault Refusal :=
  if 64 ≤ c then .next s
  else .next ((s.setShtCh c { s.shtCh c with tail := value.toNat % 64 }).shtStart c)

/-- SHT_CTRL_WRITE: ENABLE, RETRY and SHARE; a 1 in HALTED clears it and the channel resumes at HEAD. -/
def execShtCtrlWrite (c : Nat) (value : BitVec 32) (s : State) : Host.Outcome State Fault Refusal :=
  if 64 ≤ c then .next s
  else
    let x := s.shtCh c
    .next ((s.setShtCh c { x with
      enable := value.getLsbD 0
      halted := x.halted && !value.getLsbD 1
      retry := value.toNat / 4 % 8
      share := value.toNat / 256 % 256 }).shtStart c)

/-- SHT_RING_WRITE: ignored and counted while ENABLE = 1; an ENTRIES outside 2-64 is counted. -/
def execShtRingWrite (c : Nat) (value : BitVec 32) (s : State) : Host.Outcome State Fault Refusal :=
  if 64 ≤ c then .next s
  else
    let x := s.shtCh c
    let n := value.toNat / 2 ^ 20 % 128
    let note := s.selvedge { source := 4, code := 0x49, loc := c, detail := value.toNat }
    if x.enable then .next note
    else
      let s := if n < 2 ∨ 64 < n then note else s
      .next (s.setShtCh c { x with base := value.toNat % 2 ^ 19, entries := n })

/-! Descriptors in progress. -/

/-- Where an uncorrectable source read lies is counted (R367, R375). -/
def State.countSource (s : State) (x : ShtCh) : State :=
  match x.srcSpace with
  | 0 => { s with mem.sramUnc := s.mem.sramUnc + 1 }
  | 1 => { s with mem.dramUnc := s.mem.dramUnc + 1 }
  | _ => s

/-- SHUTTLE_DESCRIPTOR_COMPLETE (R372): the bytes left are moved and the descriptor ends, unless the source proves
uncorrectable after a number of further bursts, where the region's own rule applies too (R367), the function is refused, or a
port of it has stopped (R373). -/
def execShuttleDescriptorComplete (c : Nat) (hostData : List Byte) (uncorrectable : Option SourceError) (s : State) :
    Host.Outcome State Fault Refusal :=
  let x := s.shtCh c
  if !x.running || x.failed then .next s
  else if s.descRefused x then .next (s.shtEnd c 4)
  else match s.descStopped x, uncorrectable with
    | some p, _ => .next (s.shtGuard c p)
    | none, none => .next ((s.shtMove c (x.len - x.done) hostData).shtDone c)
    | none, some e =>
      if (spacePort x.srcSpace).isNone then
        settled (.next ((((s.shtMove c (64 * min e.bursts ((x.len - x.done - 1) / 64)) hostData).countSource x).shtEnd c 2).eccOutcome
          e.region e.bothCopies))
      else .next ((s.shtMove c (x.len - x.done) hostData).shtDone c)

/-- SHUTTLE_BURST_RETRY (R373): the retry moves its burst, or fails again. -/
def execShuttleBurstRetry (c : Nat) (ok : Bool) (hostData : List Byte) (s : State) : Host.Outcome State Fault Refusal :=
  let x := s.shtCh c
  if !x.running || !x.failed then .next s
  else
    let x := { x with failed := false, retries := min (x.retries + 1) 255, burstTries := x.burstTries + 1 }
    let s := ({ s with mem.shuttleRetries := s.mem.shuttleRetries + 1 } : State).setShtCh c x
    match s.descStopped x with
    | some p => .next (s.shtGuard c p)
    | none =>
      if !ok then .next (s.shtFail c)
      else
        let n := min 64 (x.len - x.done)
        let s := (s.setShtCh c { x with burstTries := 0 }).shtMove c n hostData
        .next (if x.len ≤ x.done + n then s.shtDone c else s)

/-- A burst read from a host fails after `bursts` more have moved. -/
def State.hostBurstFails (s : State) (c bursts : Nat) (host : List Byte) : State :=
  let x := s.shtCh c
  if !x.running || x.failed || (spacePort x.srcSpace).isNone then s
  else (s.shtMove c (64 * min bursts ((x.len - x.done - 1) / 64)) host).shtFail c

/-- COMPLETION_TIMEOUT (R373): the host gives no answer to a read. -/
def execCompletionTimeout (c bursts : Nat) (hostData : List Byte) (s : State) : Host.Outcome State Fault Refusal :=
  .next (s.hostBurstFails c bursts hostData)

/-- HOST_ERROR_COMPLETION: a write in its data stage fails with Data Transfer Error (R250, R251); a Shuttle burst fails
(R373). -/
def execHostErrorCompletion (of : HostRead) (_ : HostAnswer) (s : State) : Host.Outcome State Fault Refusal :=
  match of with
  | .shuttle c bursts host => .next (s.hostBurstFails c bursts host)
  | .data f sqid cid =>
    match s.writeOf f sqid cid with
    | none => .next s
    | some w =>
      if w.stage = .data ∧ w.kind ≠ .zeroes ∧ w.arrived.length < w.len then
        settled (.next ((((s.hostWaited w).hostViolation f 0x0A sqid cid 1).dataFail w.id nvTransferError).pump))
      else .next s

end Sys2Proof.Machine
end

