-- ==== Sys2Proof/Machine/Memory.lean ====
section
/-! DEFINITION. DRAM calibration and refresh (R352), the scrubber (R369, R370), and the read errors it meets (R366). -/

namespace Sys2Proof.Machine

/-! DRAM (R352). -/

/-- Whether a DRAM channel is trained and in use (R351, R357); after a thermal shutdown none is (R485). -/
def State.dramRuns (s : State) (ch : Nat) : Bool := s.mem.up && !s.therm.latch && decide (ch < 4) && s.mem.chOk.getLsbD ch

/-- DRAM_CALIBRATION (R352): a channel's write timing is adjusted. -/
def execDramCalibration (channel t : Nat) (s : State) : Host.Outcome State Fault Refusal :=
  let s := s.atTime t
  if s.dramRuns channel then .next { s with mem.calUs := s.now, mem.calibrations := s.mem.calibrations + 1 } else .next s

/-- DRAM_REFRESH (R352): one bank of a channel. -/
def execDramRefresh (channel bank : Nat) (s : State) : Host.Outcome State Fault Refusal :=
  if s.dramRuns channel ∧ bank < 16 then
    .next { s with mem.refreshes := Tab.bump s.mem.refreshes (channel * 16 + bank) 1 }
  else .next s

/-! The scrubber (R369, R370). -/

/-- What the Fray unit's DRAM rules make of a scrub read (R518, R519): one flipped bit is corrected, two are flagged, and
with three the outcome is the environment's. -/
def frayRead (r : EccResult) (bits : List Nat) : EccResult :=
  match bits with
  | [] => r
  | b :: _ =>
    if b = 1 then (match r with | .clean => .corrected | .corrected => .uncorrectable false | .uncorrectable x => .uncorrectable x)
    else if b = 2 then (match r with | .uncorrectable x => .uncorrectable x | _ => .uncorrectable false)
    else r

/-- The CORRUPT_BITS of the rules that a scrub read of a DRAM channel fires, and the state with them counted. -/
def State.frayScrub (s : State) (ch : Nat) : List Nat × State :=
  if s.dbg.armed then
    s.dbg.rules.zipIdx.foldl (fun (p : List Nat × State) e =>
      if e.1.counts 3 ch 1 then
        let (a, s) := p.2.frayRule e.2 e.1
        (if a = some 2 then p.1 ++ [fieldLE e.1.raw 12 1] else p.1, s)
      else p) ([], s)
  else ([], s)

/-- A correction or an uncorrectable result counted by memory (R366, R375), and its outcome. -/
def State.scrubResult (s : State) (dram : Bool) (region : EccRegion) (r : EccResult) : State :=
  match r, dram with
  | .clean, _ => s
  | .corrected, true => { s with mem.dramCorr := s.mem.dramCorr + 1, mem.dramPassCorr := s.mem.dramPassCorr + 1 }
  | .corrected, false => { s with mem.sramCorr := s.mem.sramCorr + 1, mem.sramPassCorr := s.mem.sramPassCorr + 1 }
  | .uncorrectable both, true => ({ s with mem.dramUnc := s.mem.dramUnc + 1 } : State).eccOutcome region both
  | .uncorrectable both, false => ({ s with mem.sramUnc := s.mem.sramUnc + 1 } : State).eccOutcome region both

/-- The period of the next pass (R370): halved after more than 64 corrections, the default after a clean pass. -/
def nextPeriod (period errs floor default : Nat) : Nat :=
  if 64 < errs then max floor (period / 2) else if errs = 0 then default else period

/-- The end of a pass (R370, R375); the flash channels' interface checks go with each pass over DRAM (R369; log 95). -/
def State.passEnd (s : State) (dram : Bool) : State :=
  if dram then { s.raiseChecks with
    mem.dramPassUs := s.now
    mem.scrubDramH := nextPeriod s.mem.scrubDramH s.mem.dramPassCorr 6 72
    mem.dramPassCorr := 0 }
  else { s with
    mem.sramPassUs := s.now
    mem.scrubSramH := nextPeriod s.mem.scrubSramH s.mem.sramPassCorr 1 24
    mem.sramPassCorr := 0 }

/-- A scrub read of a swatch waits for the writes of it that its channel still holds (R358). -/
def State.scrubWait (s : State) (channel : Nat) (region : EccRegion) : State :=
  match region with
  | .hostSwatch t nsid lba => s.drainFor channel (secKey t nsid lba)
  | _ => s

/-- SCRUB_READ (R369): the next word or burst is read and repaired; DRAM is scrubbed only where it is up. -/
def execScrubRead (dram : Bool) (channel : Nat) (region : EccRegion) (result : EccResult) (passEnd : Bool) (t : Nat) (s : State) :
    Host.Outcome State Fault Refusal :=
  let s := s.atTime t
  if dram && !s.dramRuns channel then .next s
  else
    let s := if dram then s.scrubWait channel region else s
    let (bits, s) := if dram then s.frayScrub channel else ([], s)
    let s := s.scrubResult dram region (frayRead result bits)
    settled (.next (if passEnd then s.passEnd dram else s))

end Sys2Proof.Machine
end

