-- ==== Sys2Proof/Machine/Rows.lean ====
section
/-! DEFINITION. The rows whose commands may end a wait: each is its family's own row (`row…`) followed by what the end of a
command lets go on (R432, R438, R461, R524). -/

namespace Sys2Proof.Machine

/-- READ (R138). -/
def execRead (c : NvmeCmd) (io : IoArgs) (s : State) : Host.Outcome State Fault Refusal :=
  settled (rowRead c io s)

/-- WRITE (R107). -/
def execWrite (c : NvmeCmd) (io : IoArgs) (s : State) : Host.Outcome State Fault Refusal :=
  settled (rowWrite c io s)

/-- ZONE_APPEND (R118): its LBA is assigned at reservation. -/
def execZoneAppend (c : NvmeCmd) (io : IoArgs) (s : State) : Host.Outcome State Fault Refusal :=
  settled (rowZoneAppend c io s)

/-- WRITE_ZEROES (R106): zero data made inside the device. -/
def execWriteZeroes (c : NvmeCmd) (io : IoArgs) (s : State) : Host.Outcome State Fault Refusal :=
  settled (rowWriteZeroes c io s)

/-- FLUSH (R105, R106): completes with no other effect. -/
def execFlush (c : NvmeCmd) (s : State) : Host.Outcome State Fault Refusal :=
  settled (rowFlush c s)

/-- ZONE_OPEN (R120): Zone Send Action 3. -/
def execZoneOpen (c : NvmeCmd) (slba : Nat) (all : Bool) (s : State) : Host.Outcome State Fault Refusal :=
  settled (rowZoneOpen c slba all s)

/-- ZONE_CLOSE (R120): Zone Send Action 1. -/
def execZoneClose (c : NvmeCmd) (slba : Nat) (all : Bool) (s : State) : Host.Outcome State Fault Refusal :=
  settled (rowZoneClose c slba all s)

/-- ZONE_FINISH (R122): Zone Send Action 2. -/
def execZoneFinish (c : NvmeCmd) (slba : Nat) (all : Bool) (s : State) : Host.Outcome State Fault Refusal :=
  settled (rowZoneFinish c slba all s)

/-- ZONE_RESET (R561): Zone Send Action 4. -/
def execZoneReset (c : NvmeCmd) (slba : Nat) (all : Bool) (s : State) : Host.Outcome State Fault Refusal :=
  settled (rowZoneReset c slba all s)

/-- Zone Management Receive (R96). -/
def execReportZones (c : NvmeCmd) (slba zra zrasf : Nat) (partialReport : Bool) (maxDesc addr : Nat) (s : State) :
    Host.Outcome State Fault Refusal :=
  settled (rowReportZones c slba zra zrasf partialReport maxDesc addr s)

/-- HOST_DATA_ARRIVAL (R29): a sector's data arrives and is put before the lanes. -/
def execHostDataArrival (f : FnId) (sqid cid sector : Nat) (data : SectorData) (md : BitVec 64) (s : State) :
    Host.Outcome State Fault Refusal :=
  settled (rowHostDataArrival f sqid cid sector data md s)

/-- SEAM_LANE_COMPLETE (R318): the lane is free again, and its sector goes to the host or into DRAM. -/
def execSeamLaneComplete (lane : Nat) (tagOk : Bool) (s : State) : Host.Outcome State Fault Refusal :=
  settled (rowSeamLaneComplete lane tagOk s)

/-- DRAM_WRITE_DRAIN (R358): the oldest queued burst of a channel drains. -/
def execDramWriteDrain (channel : Nat) (s : State) : Host.Outcome State Fault Refusal :=
  settled (rowDramWriteDrain channel s)

/-- COMMIT_POINT (R123, R558): where every condition holds the write commits; where only the cap stands against it, the oldest
partial chunk is spilled (R124). -/
def execCommitPoint (f : FnId) (sqid cid t : Nat) (s : State) : Host.Outcome State Fault Refusal :=
  settled (rowCommitPoint f sqid cid t s)

/-- SPILL_TIMER_EXPIRY (R124): a partial chunk has received no commit for 2 ms. -/
def execSpillTimerExpiry (tenant nsid index : Nat) (s : State) : Host.Outcome State Fault Refusal :=
  settled (rowSpillTimerExpiry tenant nsid index s)

/-- PROGRAM_STATUS_READ (R128): a die reports its program, whose confirm has gone out, as passed or failed. -/
def execProgramStatusRead (die : DieId) (found : StatusRead) (us : Nat) (s : State) : Host.Outcome State Fault Refusal :=
  settled (rowProgramStatusRead die found.pass us found.again s)

/-- ARRAY_READ_DONE (R31): the read command has gone out and tR has passed: the data-out is requested. -/
def execArrayReadDone (die : DieId) (s : State) : Host.Outcome State Fault Refusal :=
  settled (rowArrayReadDone die s)

/-- DATA_OUT_DONE (R31): one codeword is out, on a flash link that the Fray unit may meet (R518). -/
def execDataOutDone (die : DieId) (s : State) : Host.Outcome State Fault Refusal :=
  settled (rowDataOutDone die s)

/-- LDPC_DECODE_DONE (R155): a soft pass reports on a codeword at its soft steps, a hard one on the others (R156). -/
def execLdpcDecodeDone (opId : Nat) (corrected : Option Nat) (soft : Bool) (s : State) : Host.Outcome State Fault Refusal :=
  settled (rowLdpcDecodeDone opId corrected soft s)

/-- DARN_EXHAUSTION_END (R152, R153): the bucket holds DEPTH ÷ 2 again; exhaustion and overdraft end. -/
def execDarnExhaustionEnd (group t : Nat) (s : State) : Host.Outcome State Fault Refusal :=
  settled (rowDarnExhaustionEnd group t s)

/-- DARN_WINDOW_BOUNDARY (R151): at a multiple of 10 ms the tenants' charges return to zero. -/
def execDarnWindowBoundary (t : Nat) (s : State) : Host.Outcome State Fault Refusal :=
  settled (rowDarnWindowBoundary t s)

/-- DONE (R201): the request is finished and leaves its sender's record. -/
def execDone (m : BobbinMsg) (s : State) : Host.Outcome State Fault Refusal :=
  settled (rowDone m s)

/-- FAULT (R201): the request has failed and leaves its sender's record. -/
def execFault (m : BobbinMsg) (s : State) : Host.Outcome State Fault Refusal :=
  settled (rowFault m s)

/-- DIE_RESET (R201): a die is RESET for recovery, under a recovery-level grant; what it was doing is settled as after a
recovery that passes (R516). -/
def execDieReset (m : BobbinMsg) (s : State) : Host.Outcome State Fault Refusal :=
  settled (rowDieReset m s)

/-- ADOPT (R209 steps 3-6): the spare takes the role with the epoch given, and asks for its recovery grant; a role whose
dies are not populated is in service at once. -/
def execAdopt (m : BobbinMsg) (s : State) : Host.Outcome State Fault Refusal :=
  settled (rowAdopt m s)

/-- EPOCH_ADVANCE (R206): every sender resends what it had sent to the role under an older epoch. -/
def execEpochAdvance (m : BobbinMsg) (s : State) : Host.Outcome State Fault Refusal :=
  settled (rowEpochAdvance m s)

/-- PROBE_TIMEOUT (R208): a bobbin has not acknowledged its probe within 1,024 stitches. -/
def execProbeTimeout (bobbin t : Nat) (s : State) : Host.Outcome State Fault Refusal :=
  settled (rowProbeTimeout bobbin t s)

/-- HELD_INPUT_TIMEOUT (R208): a bobbin has held a request unacknowledged for 1,024 stitches with credit free. -/
def execHeldInputTimeout (bobbin t : Nat) (s : State) : Host.Outcome State Fault Refusal :=
  settled (rowHeldInputTimeout bobbin t s)

/-- BOBBIN_SELF_FAULT (R208, R209): a bobbin reports its own failure, or a spare fails its check. -/
def execBobbinSelfFault (bobbin : Nat) (cause : BobbinFault) (t : Nat) (s : State) : Host.Outcome State Fault Refusal :=
  settled (rowBobbinSelfFault bobbin cause t s)

/-- BUS_TRANSACTION_END (R223, R227). -/
def execBusTransactionEnd (channel : Nat) (s : State) : Host.Outcome State Fault Refusal :=
  settled (rowBusTransactionEnd channel s)

/-- HOLD_CUTOFF (R226, R208): the transaction ends at HOLD, is recorded, and is raised again; the third of a bobbin within
1 s makes it a failed bobbin. -/
def execHoldCutoff (channel t : Nat) (s : State) : Host.Outcome State Fault Refusal :=
  settled (rowHoldCutoff channel t s)

/-- INPUT_RETURN (R418): HOLD_EN is released. -/
def execInputReturn (vinMv : Nat) (s : State) : Host.Outcome State Fault Refusal :=
  settled (rowInputReturn vinMv s)

/-- CAPACITANCE_TEST_END (R423): C_MEAS is the charge over the voltage drop, and the result is graded. BACKUP_FAILED clears at
the next test that passes (log 26). -/
def execCapacitanceTestEnd (t dqUc dvMv : Nat) (timedOut : Bool) (s : State) : Host.Outcome State Fault Refusal :=
  settled (rowCapacitanceTestEnd t dqUc dvMv timedOut s)

/-- POWER_DRAIN_END (R454): the stops begin once the drain is complete; a checkpoint of the Pattern Book falls due (R496). -/
def execPowerDrainEnd (t : Nat) (s : State) : Host.Outcome State Fault Refusal :=
  settled (rowPowerDrainEnd t s)

/-- DOMAIN_STOP_ANSWER (R463): a domain accepts where its condition for Stop holds, and otherwise refuses. -/
def execDomainStopAnswer (domain : Nat) (accept : Bool) (t : Nat) (s : State) : Host.Outcome State Fault Refusal :=
  settled (rowDomainStopAnswer domain accept t s)

/-- DOMAIN_STOP_TIMEOUT (R463): no answer within 100 µs counts as a refusal. -/
def execDomainStopTimeout (domain t : Nat) (s : State) : Host.Outcome State Fault Refusal :=
  settled (rowDomainStopTimeout domain t s)

/-- DOMAIN_START_DONE (R448, R462): the next start proceeds, or the exit, rollback or transition goes on. -/
def execDomainStartDone (domain t : Nat) (s : State) : Host.Outcome State Fault Refusal :=
  settled (rowDomainStartDone domain t s)

/-- VCORE_SETTLED (R466): the level commanded is reached, and the transition goes on. After early warning in PS1 or PS2 the
flash channels return to 3,600 MT/s (R456). -/
def execVcoreSettled (t : Nat) (s : State) : Host.Outcome State Fault Refusal :=
  settled (rowVcoreSettled t s)

/-- WAKE (R464): a source with its code. -/
def execWake (source t : Nat) (tenant : Option Nat) (s : State) : Host.Outcome State Fault Refusal :=
  settled (rowWake source t tenant s)

/-- L1_2_EXIT (R464): the host leaves L1.2; on a stopped port that is a wake. -/
def execL12Exit (port : Port) (t : Nat) (s : State) : Host.Outcome State Fault Refusal :=
  settled (rowL12Exit port t s)

/-- ACTIVATION_TIMEOUT (R398): not confirmed within 1 s. -/
def execActivationTimeout (t : Nat) (s : State) : Host.Outcome State Fault Refusal :=
  settled (rowActivationTimeout t s)

/-- TAILOR_TRAP (R216): a lockstep mismatch or an uncorrectable instruction fetch. -/
def execTailorTrap (pair t : Nat) (x1 : TrapCause) (s : State) : Host.Outcome State Fault Refusal :=
  settled (rowTailorTrap pair t x1 s)

/-- HEARTBEAT_MISS (R216): only an active pair posts heartbeats. -/
def execHeartbeatMiss (pair t : Nat) (s : State) : Host.Outcome State Fault Refusal :=
  settled (rowHeartbeatMiss pair t s)

/-- SELF_TEST_DONE (R218, R396): a trapped pair returns or is retired; a pair that loads the new image takes the next set, or
its failure reverts the activation. -/
def execSelfTestDone (pair : Nat) (pass : Bool) (s : State) : Host.Outcome State Fault Refusal :=
  settled (rowSelfTestDone pair pass s)

/-- FW_ACTIVATE with MODE 0 (R396). -/
def execFwActivateNow (r : MbxReq) (s : State) : Host.Outcome State Fault Refusal :=
  settled (rowFwActivateNow r s)

/-- FW_ROLLBACK. -/
def execFwRollback (r : MbxReq) (s : State) : Host.Outcome State Fault Refusal :=
  settled (rowFwRollback r s)

/-- FIRMWARE_COMMIT (R398, R402): it waits for an activation in progress to end. -/
def execFirmwareCommit (c : NvmeCmd) (ca : BitVec 3) (fs verdict : Nat) (hemOk : Bool) (s : State) :
    Host.Outcome State Fault Refusal :=
  settled (rowFirmwareCommit c ca fs verdict hemOk s)

/-- CC_ENABLE: a write of CC with EN = 1 on a function where it is 0. -/
def execCcEnable (f : FnId) (value : BitVec 32) (s : State) : Host.Outcome State Fault Refusal :=
  settled (rowCcEnable f value s)

/-- CONTROLLER_RESET: CC.EN changed from 1 to 0. -/
def execControllerReset (f : FnId) (s : State) : Host.Outcome State Fault Refusal :=
  settled (rowControllerReset f s)

/-- SHUTDOWN_NOTIFICATION (R523). -/
def execShutdownNotification (f : FnId) (shn : BitVec 2) (s : State) : Host.Outcome State Fault Refusal :=
  settled (rowShutdownNotification f shn s)

/-- FLR (R276): a configuration request, so a wake too (R464). -/
def execFlr (f : FnId) (s : State) : Host.Outcome State Fault Refusal :=
  settled (rowFlr f s)

/-- PERST_N_ASSERT: the port goes to electrical idle with its domain stopped, and its functions are reset. -/
def execPerstNAssert (port : Port) (widthNs : Nat) (s : State) : Host.Outcome State Fault Refusal :=
  settled (rowPerstNAssert port widthNs s)

end Sys2Proof.Machine
end

