-- ==== Sys2Proof/Machine/Queued.lean ====
section
/-! DEFINITION. Mailbox commands by opcode: those that start later than their doorbell (R52), those of opcodes that are not
defined (R62), and those that a plain write of MBX_DOORBELL submits (R42, R43). -/

namespace Sys2Proof.Machine

/-- Any other opcode completes with BAD_OPCODE (R62). -/
def badOpcodeCmd (_ : MbxCmd) (_ : MbxReq) (s : State) : MbxRes := MbxRes.err s stBadOpcode

/-- What executes an opcode of the command index (R62). -/
def mbxHandler (op : Nat) : MbxCmd → MbxReq → State → MbxRes :=
  match op with
  | 0x0101 => tenantCreateCmd
  | 0x0102 => tenantDestroyCmd
  | 0x0103 => tenantQueryCmd
  | 0x0104 => tenantListCmd
  | 0x0105 => tenantSetQosCmd
  | 0x0106 => tenantSetAtomicCmd
  | 0x0107 => tenantQuarantineCmd
  | 0x0108 => tenantReleaseCmd
  | 0x0109 => tenantResetCmd
  | 0x0201 => qpairGrantCmd
  | 0x0202 => qpairRevokeCmd
  | 0x0203 => vectorBlockGrantCmd
  | 0x0204 => vectorBlockRevokeCmd
  | 0x0205 => queueQueryCmd
  | 0x0206 => setCoalescingCmd
  | 0x0301 => geometryQueryCmd
  | 0x0302 => diegroupAssignCmd
  | 0x0303 => diegroupQueryCmd
  | 0x0304 => placementCreateCmd
  | 0x0305 => placementDestroyCmd
  | 0x0306 => placementQueryCmd
  | 0x0307 => convRegionSetCmd
  | 0x0401 => keyLoadCmd
  | 0x0402 => keyRekeyBeginCmd
  | 0x0403 => keyRekeyEndCmd
  | 0x0404 => keyDestroyCmd
  | 0x0405 => keyQueryCmd
  | 0x0406 => wrapKeyInfoCmd
  | 0x0501 => tenantFreezeCmd
  | 0x0502 => snapshotReadCmd
  | 0x0503 => snapshotDiscardCmd
  | 0x0504 => tenantRestoreCmd
  | 0x0505 => tenantThawCmd
  | 0x0601 => powerPolicyCmd
  | 0x0602 => domainQueryCmd
  | 0x0603 => vcorePolicyCmd
  | 0x0604 => thermalConfigCmd
  | 0x0605 => holdupQueryCmd
  | 0x0606 => capacitanceTestCmd
  | 0x0607 => exposedCapSetCmd
  | 0x0701 => pbFreezeCmd
  | 0x0702 => pbThawCmd
  | 0x0703 => pbQueryCmd
  | 0x0704 => yardageSetEpochCmd
  | 0x0705 => yardageReadCmd
  | 0x0706 => hostTimeSetCmd
  | 0x0801 => fwStageCmd
  | 0x0802 => fwVerifyCmd
  | 0x0803 => fwActivateCmd
  | 0x0804 => fwRollbackCmd
  | 0x0805 => bootQueryCmd
  | 0x0806 => managerPolicyCmd
  | 0x0901 => sanitiseStartCmd
  | 0x0902 => sanitiseStatusCmd
  | 0x0903 => formatStartCmd
  | 0x0904 => formatStatusCmd
  | 0x0A01 => debugAuthCmd
  | 0x0A02 => frayArmCmd
  | 0x0A03 => frayDisarmCmd
  | 0x0A04 => selvedgeReadCmd
  | 0x0A05 => selvedgeThresholdCmd
  | 0x0A06 => warmResetCmd
  | _ => badOpcodeCmd

/-- The queued command that starts next: the lowest SEQ that the rules of R52 let start. -/
def State.nextQueued (s : State) : Option MbxCmd :=
  (s.mbx.accepted.filter s.mbxMayStart).foldl (fun best c =>
    match best with
    | none => some c
    | some b => if c.seq < b.seq then some c else some b) none

/-- MBX_QUEUED_START (R52). -/
def execMbxQueuedStart (s : State) : Host.Outcome State Fault Refusal :=
  match s.nextQueued with
  | none => .next s
  | some c => settled (.next (s.mbxRun (mbxHandler c.opcode.toNat) c))

/-- UNDEFINED_MAILBOX_OPCODE (R62): accepted like any command, and completes with BAD_OPCODE; an opcode that is defined runs its
command. -/
def execUndefinedMailboxOpcode (opcode : BitVec 16) (r : MbxReq) (s : State) : Host.Outcome State Fault Refusal :=
  settled (.next (s.mbxSubmit opcode (mbxHandler opcode.toNat) r))

/-! A plain write of MBX_DOORBELL (R42). -/

/-- The request that a slot's bytes spell (R43), with what the environment answers it. -/
def State.slotReq (s : State) (p : Port) (slot : Nat) (env : MbxEnv) : BitVec 16 × MbxReq :=
  let m := (s.mbxPort p).slots
  let f := fun (o n : Nat) => m.num (64 * slot + o) n
  (BitVec.ofNat 16 (f 0 2),
    { port := p, slot := slot, tag := BitVec.ofNat 16 (f 2 2), flags := BitVec.ofNat 8 (f 4 1), rsvA := BitVec.ofNat 24 (f 5 3),
      target := BitVec.ofNat 32 (f 8 4), rsvB := BitVec.ofNat 32 (f 12 4), params := BitVec.ofNat 384 (f 16 48), env := env })

/-- A write of MBX_DOORBELL: one with a reserved bit set is rejected (R42, R48), another submits its slot. -/
def State.mbxDoorbell (s : State) (p : Port) (value : Nat) (env : MbxEnv) : State :=
  if 64 ≤ value then s.mbxReject p value
  else if (s.mbxPort p).slotBusy value then s.mbxReject p value
  else
    let (op, r) := s.slotReq p value env
    s.mbxSubmit op (mbxHandler op.toNat) r

end Sys2Proof.Machine
end

