-- ==== Sys2Proof/Machine/Registers.lean ====
section
/-! DEFINITION. Writes of registers and windows that have no row of their own (R15, R16, R39-R42, R231, R263, R357, R467, R521),
MBX_CQ_HEAD (R51), NVMe-MI messages (R464, R486) and the activity LED (R547). -/

namespace Sys2Proof.Machine

/-- A register of `size` bytes at `base` after a write of `len` bytes of `v` at `off`. -/
def mergeReg (old base size off len v : Nat) : Nat :=
  numLE ((List.range size).map (fun i =>
    BitVec.ofNat 8 (if off ≤ base + i ∧ base + i < off + len then v / 2 ^ (8 * (base + i - off)) else old / 2 ^ (8 * i))))

/-- Whether a write reaches a register. -/
def reaches (base size off len : Nat) : Bool := decide (off < base + size ∧ base < off + len)

/-! BAR0 (R231, R233, R265). -/

/-- A write to a doorbell (R231, R233): one that is not an aligned 32-bit write counts as a violation. -/
def State.writeDoorbell (s : State) (f : FnId) (off len v : Nat) : State :=
  let y := (off - 0x1000) / 8
  let width := if off % 4 = 0 then 8 * len else 0
  if (off - 0x1000) % 8 < 4 then s.doorbell f y width v (fun _ s => s.landTail f y v)
  else s.doorbell f y width v (fun _ s => s.landHead f y v)

/-- A write to the NVMe controller registers: CC, AQA, ASQ and ACQ take it, everything else is read-only or has no effect
(R231); those of a function with no tenant keep their reset values (R265). -/
def State.writeController (s : State) (f : FnId) (off len v : Nat) : State :=
  let x := s.fn f
  let s : State := if (s.tenantOf f).isNone then s
    else s.setFn f { x with
      aqa := if reaches 0x24 4 off len then BitVec.ofNat 32 (mergeReg x.aqa.toNat 0x24 4 off len v) &&& 0x0FFF0FFF#32 else x.aqa
      asq := if reaches 0x28 8 off len then BitVec.ofNat 64 (mergeReg x.asq.toNat 0x28 8 off len v) else x.asq
      acq := if reaches 0x30 8 off len then BitVec.ofNat 64 (mergeReg x.acq.toNat 0x30 8 off len v) else x.acq }
  if reaches 0x14 4 off len then s.writeCc f (BitVec.ofNat 32 (mergeReg x.cc.toNat 0x14 4 off len v)) else s

/-- A write to BAR0. -/
def State.writeBar0 (s : State) (f : FnId) (off len v : Nat) : State :=
  if !s.fnExists f then s
  else if 0x1000 ≤ off ∧ off < 0x3008 then s.writeDoorbell f off len v
  else if off < 0x1000 then s.writeController f off len v
  else s

/-! BAR2 (R39-R42, R521). -/

/-- A write to the command slots, byte by byte: a busy slot ignores it, and the misuse is recorded (R41). -/
def State.writeSlots (s : State) (p : Port) (off len v : Nat) : State :=
  let bs := bytesLE len v
  let s := ((List.range len).map (fun i => (off + i) / 64)).eraseDups.foldl (fun s k =>
    if (s.mbxPort p).slotBusy k then s.bar2Misuse p k else s) s
  (List.range len).foldl (fun s i =>
    let x := s.mbxPort p
    if x.slotBusy ((off + i) / 64) then s else s.setMbxPort p { x with slots := x.slots.write (off + i) (bs.getD i 0#8) }) s

/-- A write to the mailbox registers by an aligned 32-bit access (R41, R42): DB_ERR clears where a 1 is written, IRQ_EN and
VECTOR are stored, the doorbell and the head act, and the rest is read-only. -/
def State.writeMbxReg (s : State) (p : Port) (off v : Nat) (env : MbxEnv) : State :=
  match off with
  | 0x2000 => s.mbxDoorbell p v env
  | 0x2004 => if v.testBit 4 then s.updMbxPort p (fun x => { x with dbErr := false }) else s
  | 0x2008 => s.updMbxPort p (fun x => { x with irqEn := v.testBit 0, vector := BitVec.ofNat 11 (v / 65536) })
  | 0x200C => s.mbxHead p (BitVec.ofNat 32 v)
  | _ => s

/-- A write to BAR2: the ring, the status page and the Pattern Book window ignore it (R41, R498), the manager's Fray window
records it (R521). -/
def State.writeBar2 (s : State) (p : Port) (env : MbxEnv) (off len v : Nat) : State :=
  if !s.portThere p || s.therm.latch then s
  else if off < 0x1000 then s.writeSlots p off (min len (0x1000 - off)) v
  else if 0x2000 ≤ off ∧ off < 0x2018 then
    if off % 4 = 0 ∧ len = 4 then s.writeMbxReg p off v env else s.bar2Misuse p off
  else if 0x40000 ≤ off ∧ off < 0x50000 ∧ p = s.mbx.manager then
    s.selvedge { source := 5, code := 0x63, fn := fnField ⟨p, 0⟩, detail := off }
  else s

/-! BAR4 (R263, R269). -/

/-- A write to BAR4: aligned Dwords of the MSI-X table; the PBA is read-only. -/
def State.writeBar4 (s : State) (f : FnId) (off len v : Nat) : State :=
  if off % 4 = 0 ∧ len % 4 = 0 ∧ off + len ≤ 0x8000 then
    (List.range (len / 4)).foldl (fun s i =>
      s.msixWrite f ((off + 4 * i) / 16) ((off + 4 * i) / 4 % 4) (BitVec.ofNat 32 (v / 2 ^ (32 * i)))) s
  else s

/-! Registers that firmware writes. -/

/-- A write of DM_CFG (R357): MAP_ORDER and LOCK until LOCK is set; then it is ignored and counted (R16). -/
def State.writeDmCfg (s : State) (v : Nat) : State :=
  if s.mem.lock then s.selvedge { source := 1, code := 0x0E, detail := v }
  else { s with mem.mapOrder := BitVec.ofNat 2 v, mem.lock := v.testBit 2 }

/-- Whether any flash island in Run is set to 3,600 MT/s. -/
def State.flashFast (s : State) : Bool := !s.pow.flashSlow && (List.range s.flashDomains).any (fun f => s.inRun (4 + f))

/-- A write that the always-on sequencer does not let through (R467). -/
def State.orderBroken (s : State) (v : Nat) : State := s.selvedge { source := 4, code := 0x48, detail := v }

/-- A write of the flash rate, 0 for 3,600 MT/s and 1 for 2,400 MT/s (R467). -/
def State.writeFlashRate (s : State) (v : Nat) : State :=
  if v % 2 = 0 ∧ (s.pow.vid = 3 ∨ (s.pow.settling ∧ s.pow.oldVcore = 3)) then s.orderBroken v
  else { s with pow.flashSlow := decide (v % 2 = 1) }

/-- A write of VCORE_VID (R467). -/
def State.writeVid (s : State) (v : Nat) : State :=
  if v % 4 = 3 ∧ s.flashFast then s.orderBroken v else s.setVid (v % 4)

/-- REGISTER_WRITE (R15): `width` in bits, as the host or the firmware writes it; only whole bytes are written. -/
def execRegisterWrite (tgt : RegTarget) (off width : Nat) (value : BitVec 64) (s : State) : Host.Outcome State Fault Refusal :=
  let len := min 8 (width / 8)
  let v := value.toNat % 2 ^ (8 * len)
  if len = 0 then .next s
  else match tgt with
    | .bar0 f => settled (.next (s.writeBar0 f off len v))
    | .bar2 p env => settled (.next (s.writeBar2 p env off len v))
    | .bar4 f => .next (s.writeBar4 f off len v)
    | .dmCfg => .next (s.writeDmCfg v)
    | .flashRate => .next (s.writeFlashRate v)
    | .vcoreVid => .next (s.writeVid v)

/-- MBX_CQ_HEAD_WRITE (R51). -/
def execMbxCqHeadWrite (p : Port) (value : BitVec 32) (s : State) : Host.Outcome State Fault Refusal :=
  .next (s.mbxHead p value)

/-! Sideband and LED. -/

/-- NVME_MI_MESSAGE (R464, R486): one that needs Claind is a wake; the endpoint answers while the shutdown latch is set, and
such a message is then no wake. -/
def execNvmeMiMessage (needsClaind : Bool) (t : Nat) (s : State) : Host.Outcome State Fault Refusal :=
  let s := s.atTime t
  if needsClaind && !s.therm.latch then .next (s.wakeUp 5 0xFFFF) else .next s

/-- LED_ACT_HOLD_END (R547): LED_ACT_N is released. -/
def execLedActHoldEnd (s : State) : Host.Outcome State Fault Refusal :=
  if s.aon.ledHold && !s.aon.ledActive then .next (({ s with aon.ledHold := false } : State).emit (.pin 3 1)) else .next s

end Sys2Proof.Machine
end

