-- ==== Sys2Proof/Machine/Windows.lean ====
section
/-! DEFINITION. What a host reads in the register maps: BAR0 (R231, R232), the mailbox registers and ring (R42, R45), the device
status page (R64, R440, R489, R525), the Pattern Book and Fray windows (R498, R521), and the status pins (R547). -/

namespace Sys2Proof.Machine

/-! What a function's configuration header reports (R1, R263). -/

/-- The identification of a function in its configuration space. -/
structure PciId where
  /-- PCI Revision ID (00 R1). -/
  revision : Nat
  /-- Device ID (09 R263). -/
  device : Nat
  /-- Class code, base class first (09 R263). -/
  classCode : Nat
  /-- Interrupt Pin: 0, no INTx (09 R263). -/
  pin : Nat
  /-- MSI-X Table Size (09 R263). -/
  tableSize : Nat
  /-- TotalVFs and InitialVFs, none on a virtual function (09 R263). -/
  totalVfs : Option Nat
  deriving DecidableEq, Repr

/-- The identification of a function: the Device ID tells the 32-channel parts from the 16-channel ones, and a physical function
from a virtual one (R1, R263). -/
def State.pciId (s : State) (f : FnId) : PciId where
  revision := 0x21
  device := if f.vf = 0 then (if s.channels = 32 then 0x9632 else 0x9616) else (if s.channels = 32 then 0x9633 else 0x9617)
  classCode := 0x010802
  pin := 0
  tableSize := 0x7FF
  totalVfs := if f.vf = 0 then some 1023 else none

/-! BAR0. -/

/-- CAP (R232). -/
def capReg : Nat :=
  0x0FFF + 2 ^ 16 + 1 * 2 ^ 17 + 20 * 2 ^ 24 + 0x41 * 2 ^ 37 + 4 * 2 ^ 52

/-- CSTS: RDY, CFS, SHST, and PP, which reads 1 while set M is being switched by an activation (R239, R397, R523, R562). -/
def State.csts (s : State) (f : FnId) : Nat :=
  let x := s.fn f
  x.ready.toNat + 2 * x.cfs.toNat + 4 * x.shst + 32 * (decide (s.mbxState s.mbx.manager = 1#2 ∧ s.hem.actStep ≠ 0)).toNat

/-- A byte of BAR0 as read: doorbells and everything not listed read zero (R231, R233). -/
def State.readBar0 (s : State) (f : FnId) (off : Nat) : Byte :=
  let x := s.fn f
  if !s.fnExists f ∨ 0x38 ≤ off then 0#8
  else (bytesLE 8 capReg ++ bytesLE 4 0x00020000 ++ bytesLE 8 0 ++ bytesLE 4 x.cc.toNat ++ bytesLE 4 0 ++ bytesLE 4 (s.csts f) ++
    bytesLE 4 0 ++ bytesLE 4 x.aqa.toNat ++ bytesLE 8 x.asq.toNat ++ bytesLE 8 x.acq.toNat).getD off 0#8

/-! BAR4. -/

/-- A byte of a MSI-X table entry as read; an entry in no block reads zero (R265, R269). -/
def State.readBar4 (s : State) (f : FnId) (off : Nat) : Byte :=
  let x := s.fn f
  if off < 0x8000 then
    if (s.blockOf f (off / 16)).isSome then
      let e := x.entry (off / 16)
      (bytesLE 4 e.addrLo.toNat ++ bytesLE 4 e.addrHi.toNat ++ bytesLE 4 e.data.toNat ++ bytesLE 4 e.mask.toNat).getD (off % 16) 0#8
    else 0#8
  else if off < 0x8100 then
    flagByte ((List.range 8).map (fun i =>
      (s.blockOf f (8 * (off - 0x8000) + i)).isSome && (x.entry (8 * (off - 0x8000) + i)).pba)) |> BitVec.ofNat 8
  else 0#8

/-! The mailbox registers and ring. -/

/-- MBX_STATUS (R36, R39, R42). -/
def State.mbxStatus (s : State) (p : Port) : Nat :=
  let x := s.mbxPort p
  let pair := s.setPairOf 0
  (s.mbxReady p).toNat + 2 * (decide (p = s.mbx.manager)).toNat + 4 * (s.mbxState p).toNat + 16 * x.dbErr.toNat +
    32 * (!x.waiting.isEmpty).toNat + 4096 * (pair % 4) + 65536 * s.boot16

/-- A mailbox register as an aligned 32-bit read gives it (R42). -/
def State.readMbxReg (s : State) (p : Port) (off : Nat) : Nat :=
  let x := s.mbxPort p
  match off with
  | 0x2004 => s.mbxStatus p
  | 0x2008 => x.irqEn.toNat + 65536 * x.vector.toNat
  | 0x200C => x.head.toNat
  | 0x2010 => x.busy.toNat % 2 ^ 32
  | 0x2014 => x.busy.toNat / 2 ^ 32
  | _ => 0

/-- The bytes of a completion entry (R45). -/
def MbxCqe.bytes (e : MbxCqe) : List Byte :=
  bytesLE 2 e.tag.toNat ++ bytesLE 2 e.opcode.toNat ++ bytesLE 1 e.status.toNat ++ bytesLE 1 (flagByte [e.phase, e.replayed]) ++
    bytesLE 1 (e.slot % 64) ++ bytesLE 1 0 ++ bytesLE 4 e.seq ++ bytesLE 2 e.fieldOffset.toNat ++ bytesLE 2 0 ++
    bytesLE 4 e.resultHandle.toNat ++ bytesLE 12 e.result.toNat

/-- A byte of the completion ring as read; an index not written since the last manager reset reads zero (R46). -/
def State.readRing (s : State) (p : Port) (off : Nat) : Byte :=
  match Tab.find (s.mbxPort p).ring (off / 32) with
  | none => 0#8
  | some e => e.bytes.getD (off % 32) 0#8

/-! The device status page. -/

/-- CONDITION (R525). -/
def State.condition (s : State) : List Bool :=
  [s.aon.noMedia, s.aon.noDram, s.gauge.flag, s.gauge.seen, s.aon.rateReduced, s.hem.degraded, s.clk.fault,
    s.presentGroups.any s.degraded, s.anyOverdraft, s.eng.roles.any (fun p => decide (p.2.st = .none)), s.dbg.armed,
    s.authorised, s.supply.ewLatched, decide (s.supply.lastFlush = 2)]

/-- The bytes of a list of flags, bit 0 first. -/
def flagsLE (len : Nat) (fs : List Bool) : List Byte :=
  bytesLE len ((fs.zipIdx.filter (·.1)).foldl (fun m p => m + 2 ^ p.2) 0)

/-- Offsets 0x000-0x0FF of the page (R525). -/
def State.conditionArea (s : State) : List Byte :=
  flagsLE 4 s.condition ++ bytesLE 4 s.hem.bootCount ++ bytesLE 8 s.now ++ bytesLE 1 s.aon.lastReset ++ bytesLE 1 s.aon.warmCause ++
    bytesLE 2 0 ++ bytesLE 4 s.selv.seq ++ bytesLE 4 s.selv.lost ++ bytesLE 228 0

/-- The bytes of an outcome-log entry (R64). -/
def OutcomeEntry.bytes (e : OutcomeEntry) : List Byte :=
  bytesLE 4 e.seq ++ bytesLE 2 e.tag.toNat ++ bytesLE 2 e.opcode.toNat ++ bytesLE 1 e.status.toNat ++
    bytesLE 1 (flagByte [e.posted, e.replayed]) ++ bytesLE 2 0 ++ bytesLE 4 e.resultHandle.toNat

/-- Offsets 0x800-0xC0F of the page: the outcome log (R64). -/
def State.outcomeArea (s : State) : List Byte :=
  bytesLE 4 s.mbx.logNewest ++ bytesLE 1 ((s.mbx.logIndex + 63) % 64) ++ bytesLE 11 0 ++
    (List.range 64).flatMap (fun i => match Tab.find s.mbx.log i with
      | none => bytesLE 16 0
      | some e => e.bytes)

/-- The device status page (R64). -/
def State.statusPage (s : State) : List Byte :=
  padTo 2048 (s.conditionArea ++ padTo 256 s.supplyArea ++ padTo 256 s.thermalArea) ++ padTo 2048 s.outcomeArea

/-! The Pattern Book window (R498). -/

/-- A byte of view 1: the header, the extremes and the device counter block. -/
def State.pbView1 (s : State) (off : Nat) : Byte :=
  let head := [0x50#8, 0x42#8, 0x4B#8, 0x31#8] ++ bytesLE 8 (if s.pbFrozen then s.pb.freezeUs else s.now) ++ bytesLE 2 s.boot16 ++
    bytesLE 1 s.pbFrozen.toNat ++ bytesLE 1 0 ++ bytesLE 8 s.pb.missed ++ bytesLE 8 s.pb.savedUs
  if off < 0x1000 then head.getD off 0#8
  else if off < 0x1400 then (extremeBytes (Tab.find s.pb.extremes ((off - 0x1000) / 16))).getD (off % 16) 0#8
  else if 0x2000 ≤ off ∧ off < 0x2200 then
    (satBytes 8 (Tab.get 0 s.pb.counters ((off - 0x2000) / 8))).getD (off % 8) 0#8
  else 0#8

/-- The record that a tenant view shows: one destroyed since its selection reads zero, unless the freeze still holds its
record. -/
def State.pbViewRecord (s : State) : List (Nat × Nat) :=
  match s.host.tenants.find? (fun p => decide (s.handleOf 1 p.1 = s.pb.viewTenant)) with
  | some p => p.2.pb
  | none => []

/-- A byte of the Pattern Book window. -/
def State.readPb (s : State) (off : Nat) : Byte :=
  match s.pb.view with
  | 0 => (satBytes 8 (Tab.get 0 s.pb.hist (off / 8))).getD (off % 8) 0#8
  | 1 => s.pbView1 off
  | _ =>
    if off < 0x2000 then (satBytes 8 (Tab.get 0 s.pbViewRecord (off / 8))).getD (off % 8) 0#8
    else if off < 0x2100 then (satBytes 8 (Tab.get 0 s.pbViewRecord (1024 + (off - 0x2000) / 8))).getD (off % 8) 0#8
    else 0#8

/-! The Fray window (R521). -/

/-- FRAY_STATUS. -/
def State.frayStatus (s : State) : Nat :=
  let d := s.dbg
  let full := d.rules.zipIdx.filter (fun p => decide (fieldLE p.1.raw 8 4 ≠ 0 ∧ fieldLE p.1.raw 8 4 ≤ p.1.fired))
  d.armed.toNat + 2 * s.authorised.toNat + 4 * (s.authorised && d.perms.getLsbD 0).toNat + 8 * (d.armed && d.trigOut).toNat +
    32 * (if d.armed then d.rules.length else 0) + 65536 * maskOf (full.map (·.2))

/-- A byte of the Fray window. -/
def State.readFray (s : State) (off : Nat) : Byte :=
  let d := s.dbg
  if off < 12 then (bytesLE 4 s.frayStatus ++ bytesLE 4 s.authLeft ++ bytesLE 4 d.ballDrops).getD off 0#8
  else if 0x100 ≤ off ∧ off < 0x300 then
    (match d.rules[(off - 0x100) / 32]? with
      | some r => if d.armed then (bytesLE 32 r.raw.toNat).getD (off % 32) 0#8 else 0#8
      | none => 0#8)
  else if 0x400 ≤ off ∧ off < 0x480 then
    (match d.rules[(off - 0x400) / 8]? with
      | some r => (satBytes 8 r.fired).getD (off % 8) 0#8
      | none => 0#8)
  else 0#8

/-- A byte of BAR2 as read (R39-R41): the Pattern Book and Fray windows of the function that is not manager read zero. -/
def State.readBar2 (s : State) (p : Port) (off : Nat) : Byte :=
  if !s.portThere p then 0#8
  else if off < 0x1000 then (s.mbxPort p).slots.read off
  else if off < 0x1800 then s.readRing p (off - 0x1000)
  else if 0x2000 ≤ off ∧ off < 0x2018 then (bytesLE 4 (s.readMbxReg p (off / 4 * 4))).getD (off % 4) 0#8
  else if 0x10000 ≤ off ∧ off < 0x11000 then s.statusPage.getD (off - 0x10000) 0#8
  else if p ≠ s.mbx.manager then 0#8
  else if 0x20000 ≤ off ∧ off < 0x40000 then s.readPb (off - 0x20000)
  else if 0x40000 ≤ off ∧ off < 0x50000 then s.readFray (off - 0x40000)
  else 0#8

/-- A read of `len` bytes of BAR2 and the state after it: one of the mailbox registers that is not an aligned 32-bit access
returns zeros and is counted in the Selvedge log (R41). -/
def State.bar2Read (s : State) (p : Port) (off len : Nat) : List Byte × State :=
  if s.portThere p ∧ off < 0x2018 ∧ 0x2000 < off + len ∧ ¬ (off % 4 = 0 ∧ len = 4) then (List.replicate len 0#8, s.bar2Misuse p off)
  else ((List.range len).map (fun i => s.readBar2 p (off + i)), s)

/-! Status pins (R547). -/

/-- Whether LED_FAULT_N is low. -/
def State.ledFault (s : State) : Bool :=
  decide (s.criticalWarning ≠ 0) || s.aon.noMedia || s.aon.noDram || s.hem.degraded || s.clk.fault ||
    s.eng.roles.any (fun p => decide (p.2.st = .none))

/-- Whether SMB_ALERT_N is low. -/
def State.smbAlert (s : State) : Bool := decide (s.criticalWarning ≠ 0)

/-- Whether THERMTRIP_N is low. -/
def State.thermTrip (s : State) : Bool := s.therm.latch

end Sys2Proof.Machine
end

