-- ==== Sys2Proof/Machine/Dispatch.lean ====
section
/-! DEFINITION. One arm per command: what it does to everything but the queue. -/

namespace Sys2Proof.Machine

/-- The effect of a command on everything but the queue. -/
def exec (i : Instr) (s : State) : Host.Outcome State Fault Refusal :=
  match i with
  | .powerOn b => Sys2Proof.Machine.execPowerOn b s
  | .supplyReset us => Sys2Proof.Machine.execSupplyReset us s
  | .crystalQualifyWindow count => Sys2Proof.Machine.execCrystalQualifyWindow count s
  | .rcFallback => Sys2Proof.Machine.execRcFallback s
  | .brownOutRecovery b t => Sys2Proof.Machine.execBrownOutRecovery b t s
  | .earlyWarning t => Sys2Proof.Machine.execEarlyWarning t s
  | .hardThreshold t vinMv => Sys2Proof.Machine.execHardThreshold t vinMv s
  | .flushSeal e => Sys2Proof.Machine.execFlushSeal e s
  | .inputReturn vinMv => Sys2Proof.Machine.execInputReturn vinMv s
  | .bankBelowMin t bankMv vinMv => Sys2Proof.Machine.execBankBelowMin t bankMv vinMv s
  | .comparatorArm vinMv => Sys2Proof.Machine.execComparatorArm vinMv s
  | .vinSample vinMv bankMv measMa => Sys2Proof.Machine.execVinSample vinMv bankMv measMa s
  | .gaugeUpdate t bankMv dqUc => Sys2Proof.Machine.execGaugeUpdate t bankMv dqUc s
  | .capRecompute t => Sys2Proof.Machine.execCapRecompute t s
  | .capRaiseDelay t => Sys2Proof.Machine.execCapRaiseDelay t s
  | .capacitanceTestPeriod t => Sys2Proof.Machine.execCapacitanceTestPeriod t s
  | .capacitanceTestEnd t dqUc dvMv timedOut => Sys2Proof.Machine.execCapacitanceTestEnd t dqUc dvMv timedOut s
  | .tenantCreate r => Sys2Proof.Machine.execTenantCreate r s
  | .tenantDestroy r => Sys2Proof.Machine.execTenantDestroy r s
  | .tenantQuery r => Sys2Proof.Machine.execTenantQuery r s
  | .tenantList r => Sys2Proof.Machine.execTenantList r s
  | .tenantSetQos r => Sys2Proof.Machine.execTenantSetQos r s
  | .tenantSetAtomic r => Sys2Proof.Machine.execTenantSetAtomic r s
  | .tenantQuarantine r => Sys2Proof.Machine.execTenantQuarantine r s
  | .tenantRelease r => Sys2Proof.Machine.execTenantRelease r s
  | .tenantReset r => Sys2Proof.Machine.execTenantReset r s
  | .qpairGrant r => Sys2Proof.Machine.execQpairGrant r s
  | .qpairRevoke r => Sys2Proof.Machine.execQpairRevoke r s
  | .vectorBlockGrant r => Sys2Proof.Machine.execVectorBlockGrant r s
  | .vectorBlockRevoke r => Sys2Proof.Machine.execVectorBlockRevoke r s
  | .queueQuery r => Sys2Proof.Machine.execQueueQuery r s
  | .setCoalescing r => Sys2Proof.Machine.execSetCoalescing r s
  | .geometryQuery r => Sys2Proof.Machine.execGeometryQuery r s
  | .diegroupAssign r => Sys2Proof.Machine.execDiegroupAssign r s
  | .diegroupQuery r => Sys2Proof.Machine.execDiegroupQuery r s
  | .placementCreate r => Sys2Proof.Machine.execPlacementCreate r s
  | .placementDestroy r => Sys2Proof.Machine.execPlacementDestroy r s
  | .placementQuery r => Sys2Proof.Machine.execPlacementQuery r s
  | .convRegionSet r => Sys2Proof.Machine.execConvRegionSet r s
  | .keyLoad r => Sys2Proof.Machine.execKeyLoad r s
  | .keyRekeyBegin r => Sys2Proof.Machine.execKeyRekeyBegin r s
  | .keyRekeyEnd r => Sys2Proof.Machine.execKeyRekeyEnd r s
  | .keyDestroy r => Sys2Proof.Machine.execKeyDestroy r s
  | .keyQuery r => Sys2Proof.Machine.execKeyQuery r s
  | .wrapKeyInfo r => Sys2Proof.Machine.execWrapKeyInfo r s
  | .tenantFreeze r => Sys2Proof.Machine.execTenantFreeze r s
  | .freezeCapture tenant t => Sys2Proof.Machine.execFreezeCapture tenant t s
  | .freezeTimeout tenant t => Sys2Proof.Machine.execFreezeTimeout tenant t s
  | .snapshotRead r => Sys2Proof.Machine.execSnapshotRead r s
  | .snapshotDiscard r => Sys2Proof.Machine.execSnapshotDiscard r s
  | .tenantRestore r => Sys2Proof.Machine.execTenantRestore r s
  | .tenantThaw r => Sys2Proof.Machine.execTenantThaw r s
  | .powerPolicy r => Sys2Proof.Machine.execPowerPolicy r s
  | .domainQuery r => Sys2Proof.Machine.execDomainQuery r s
  | .vcorePolicy r => Sys2Proof.Machine.execVcorePolicy r s
  | .thermalConfig r => Sys2Proof.Machine.execThermalConfig r s
  | .holdupQuery r => Sys2Proof.Machine.execHoldupQuery r s
  | .capacitanceTest r => Sys2Proof.Machine.execCapacitanceTest r s
  | .exposedCapSet r => Sys2Proof.Machine.execExposedCapSet r s
  | .pbFreeze r => Sys2Proof.Machine.execPbFreeze r s
  | .pbThaw r => Sys2Proof.Machine.execPbThaw r s
  | .pbQuery r => Sys2Proof.Machine.execPbQuery r s
  | .yardageSetEpoch r => Sys2Proof.Machine.execYardageSetEpoch r s
  | .yardageRead r => Sys2Proof.Machine.execYardageRead r s
  | .hostTimeSet r => Sys2Proof.Machine.execHostTimeSet r s
  | .fwStage r => Sys2Proof.Machine.execFwStage r s
  | .fwVerify r => Sys2Proof.Machine.execFwVerify r s
  | .fwActivateNow r => Sys2Proof.Machine.execFwActivateNow r s
  | .fwActivateNextPowerOn r => Sys2Proof.Machine.execFwActivateNextPowerOn r s
  | .activationTimeout t => Sys2Proof.Machine.execActivationTimeout t s
  | .fwRollback r => Sys2Proof.Machine.execFwRollback r s
  | .bootQuery r => Sys2Proof.Machine.execBootQuery r s
  | .managerPolicy r => Sys2Proof.Machine.execManagerPolicy r s
  | .managerFailover t => Sys2Proof.Machine.execManagerFailover t s
  | .sanitiseStartBlockErase r => Sys2Proof.Machine.execSanitiseStartBlockErase r s
  | .sanitiseStartCryptoErase r => Sys2Proof.Machine.execSanitiseStartCryptoErase r s
  | .sanitiseStartExitFailure r => Sys2Proof.Machine.execSanitiseStartExitFailure r s
  | .sanitiseStatus r => Sys2Proof.Machine.execSanitiseStatus r s
  | .formatStart r => Sys2Proof.Machine.execFormatStart r s
  | .formatStatus r => Sys2Proof.Machine.execFormatStatus r s
  | .debugAuthoriseChallenge r => Sys2Proof.Machine.execDebugAuthoriseChallenge r s
  | .debugAuthoriseToken r => Sys2Proof.Machine.execDebugAuthoriseToken r s
  | .debugAuthoriseRevoke r => Sys2Proof.Machine.execDebugAuthoriseRevoke r s
  | .debugAuthExpiry t => Sys2Proof.Machine.execDebugAuthExpiry t s
  | .frayArm r => Sys2Proof.Machine.execFrayArm r s
  | .frayDisarm r => Sys2Proof.Machine.execFrayDisarm r s
  | .selvedgeRead r => Sys2Proof.Machine.execSelvedgeRead r s
  | .selvedgeSetThreshold r => Sys2Proof.Machine.execSelvedgeSetThreshold r s
  | .warmReset r => Sys2Proof.Machine.execWarmReset r s
  | .mbxQueuedStart => Sys2Proof.Machine.execMbxQueuedStart s
  | .mbxCqHeadWrite port value => Sys2Proof.Machine.execMbxCqHeadWrite port value s
  | .registerWrite tgt off width value => Sys2Proof.Machine.execRegisterWrite tgt off width value s
  | .createIoSq c qid qsize pc prp1 cqid qprio => Sys2Proof.Machine.execCreateIoSq c qid qsize pc prp1 cqid qprio s
  | .createIoCq c qid qsize pc prp1 ien iv => Sys2Proof.Machine.execCreateIoCq c qid qsize pc prp1 ien iv s
  | .deleteIoSq c qid => Sys2Proof.Machine.execDeleteIoSq c qid s
  | .deleteIoCq c qid => Sys2Proof.Machine.execDeleteIoCq c qid s
  | .getLogPage c lid lsi rae addr => Sys2Proof.Machine.execGetLogPage c lid lsi rae addr s
  | .getLogVendorEvents c lsi rae addr => Sys2Proof.Machine.execGetLogVendorEvents c lsi rae addr s
  | .identify c cns csi addr => Sys2Proof.Machine.execIdentify c cns csi addr s
  | .abort c sqid acid => Sys2Proof.Machine.execAbort c sqid acid s
  | .setFeatures c fid sv dw11 dw12 data => Sys2Proof.Machine.execSetFeatures c fid sv dw11 dw12 data s
  | .getFeatures c fid sel dw11 addr => Sys2Proof.Machine.execGetFeatures c fid sel dw11 addr s
  | .setArbitration c dw11 => Sys2Proof.Machine.execSetArbitration c dw11 s
  | .setPowerManagement c dw11 => Sys2Proof.Machine.execSetPowerManagement c dw11 s
  | .setTemperatureThreshold c dw11 => Sys2Proof.Machine.execSetTemperatureThreshold c dw11 s
  | .setNumberOfQueues c dw11 => Sys2Proof.Machine.execSetNumberOfQueues c dw11 s
  | .setInterruptCoalescing c vectorConfig dw11 => Sys2Proof.Machine.execSetInterruptCoalescing c vectorConfig dw11 s
  | .setApst c sv dw11 table hemOk => Sys2Proof.Machine.execSetApst c sv dw11 table hemOk s
  | .setTimestamp c timestamp => Sys2Proof.Machine.execSetTimestamp c timestamp s
  | .setDarningControl c sv dw11 dw12 hemOk => Sys2Proof.Machine.execSetDarningControl c sv dw11 dw12 hemOk s
  | .setReclamationControl c sv dw11 dw12 hemOk => Sys2Proof.Machine.execSetReclamationControl c sv dw11 dw12 hemOk s
  | .setChannelArbiterControl c sv dw11 hemOk => Sys2Proof.Machine.execSetChannelArbiterControl c sv dw11 hemOk s
  | .setIntakeArbitrationControl c sv dw11 hemOk => Sys2Proof.Machine.execSetIntakeArbitrationControl c sv dw11 hemOk s
  | .setVendorEventConfiguration c dw11 => Sys2Proof.Machine.execSetVendorEventConfiguration c dw11 s
  | .asynchronousEventRequest c => Sys2Proof.Machine.execAsynchronousEventRequest c s
  | .firmwareImageDownload c ofst data => Sys2Proof.Machine.execFirmwareImageDownload c ofst data s
  | .firmwareCommit c ca fs verdict hemOk => Sys2Proof.Machine.execFirmwareCommit c ca fs verdict hemOk s
  | .formatNvm c lbaf ses mset pi pil hemOk => Sys2Proof.Machine.execFormatNvm c lbaf ses mset pi pil hemOk s
  | .sanitizeBlockErase c ause ndas hemOk => Sys2Proof.Machine.execSanitizeBlockErase c ause ndas hemOk s
  | .sanitizeCryptoErase c ause ndas hemOk => Sys2Proof.Machine.execSanitizeCryptoErase c ause ndas hemOk s
  | .sanitizeExitFailureMode c => Sys2Proof.Machine.execSanitizeExitFailureMode c s
  | .read c io => Sys2Proof.Machine.execRead c io s
  | .write c io => Sys2Proof.Machine.execWrite c io s
  | .zoneAppend c io => Sys2Proof.Machine.execZoneAppend c io s
  | .writeZeroes c io => Sys2Proof.Machine.execWriteZeroes c io s
  | .flush c => Sys2Proof.Machine.execFlush c s
  | .zoneOpen c slba selectAll => Sys2Proof.Machine.execZoneOpen c slba selectAll s
  | .zoneClose c slba selectAll => Sys2Proof.Machine.execZoneClose c slba selectAll s
  | .zoneFinish c slba selectAll => Sys2Proof.Machine.execZoneFinish c slba selectAll s
  | .zoneReset c slba selectAll => Sys2Proof.Machine.execZoneReset c slba selectAll s
  | .reportZones c slba zra zrasf partialReport maxDesc addr => Sys2Proof.Machine.execReportZones c slba zra zrasf partialReport maxDesc addr s
  | .hostDataArrival fn sqid cid sector data metadata => Sys2Proof.Machine.execHostDataArrival fn sqid cid sector data metadata s
  | .seamLaneComplete lane tagOk => Sys2Proof.Machine.execSeamLaneComplete lane tagOk s
  | .dramWriteDrain channel => Sys2Proof.Machine.execDramWriteDrain channel s
  | .commitPoint fn sqid cid t => Sys2Proof.Machine.execCommitPoint fn sqid cid t s
  | .spillTimerExpiry tenant nsid index => Sys2Proof.Machine.execSpillTimerExpiry tenant nsid index s
  | .programStatusRead die found us => Sys2Proof.Machine.execProgramStatusRead die found us s
  | .arrayReadDone die => Sys2Proof.Machine.execArrayReadDone die s
  | .dataOutDone die => Sys2Proof.Machine.execDataOutDone die s
  | .ldpcDecodeDone opId corrected soft => Sys2Proof.Machine.execLdpcDecodeDone opId corrected soft s
  | .darnExhaustionEnd group t => Sys2Proof.Machine.execDarnExhaustionEnd group t s
  | .darnWindowBoundary t => Sys2Proof.Machine.execDarnWindowBoundary t s
  | .eraseMinSegmentEnd die => Sys2Proof.Machine.execEraseMinSegmentEnd die s
  | .bulkReadAge die opId => Sys2Proof.Machine.execBulkReadAge die opId s
  | .tokenDeferralLimit die => Sys2Proof.Machine.execTokenDeferralLimit die s
  | .boltEraseStart bolt hemOk => Sys2Proof.Machine.execBoltEraseStart bolt hemOk s
  | .eraseStatusRead die found us hemOk => Sys2Proof.Machine.execEraseStatusRead die found us hemOk s
  | .itemAgePromotion item => Sys2Proof.Machine.execItemAgePromotion item s
  | .mergeIdleTimer group => Sys2Proof.Machine.execMergeIdleTimer group s
  | .mergeStart tenant region => Sys2Proof.Machine.execMergeStart tenant region s
  | .relocationStart bolt kind => Sys2Proof.Machine.execRelocationStart bolt kind s
  | .mediaPatrolSample bolt pick => Sys2Proof.Machine.execMediaPatrolSample bolt pick s
  | .bobbinRead m bulk => Sys2Proof.Machine.execBobbinRead m bulk s
  | .readComponent m => Sys2Proof.Machine.execReadComponent m s
  | .program m => Sys2Proof.Machine.execProgram m s
  | .erase m => Sys2Proof.Machine.execErase m s
  | .cancel m => Sys2Proof.Machine.execCancel m s
  | .tokenGrant m => Sys2Proof.Machine.execTokenGrant m s
  | .dieReset m => Sys2Proof.Machine.execDieReset m s
  | .adopt m => Sys2Proof.Machine.execAdopt m s
  | .handover m => Sys2Proof.Machine.execHandover m s
  | .done m => Sys2Proof.Machine.execDone m s
  | .dataReady m => Sys2Proof.Machine.execDataReady m s
  | .bounce m => Sys2Proof.Machine.execBounce m s
  | .tokenReturn m => Sys2Proof.Machine.execTokenReturn m s
  | .fault m => Sys2Proof.Machine.execFault m s
  | .epochAdvance m => Sys2Proof.Machine.execEpochAdvance m s
  | .livenessProbe t => Sys2Proof.Machine.execLivenessProbe t s
  | .probeTimeout bobbin t => Sys2Proof.Machine.execProbeTimeout bobbin t s
  | .heldInputTimeout bobbin t => Sys2Proof.Machine.execHeldInputTimeout bobbin t s
  | .tailorTrap pair t cause => Sys2Proof.Machine.execTailorTrap pair t cause s
  | .heartbeatMiss pair t => Sys2Proof.Machine.execHeartbeatMiss pair t s
  | .selfTestDone pair pass => Sys2Proof.Machine.execSelfTestDone pair pass s
  | .busArbiterDecision channel => Sys2Proof.Machine.execBusArbiterDecision channel s
  | .busTransactionEnd channel => Sys2Proof.Machine.execBusTransactionEnd channel s
  | .holdCutoff channel t => Sys2Proof.Machine.execHoldCutoff channel t s
  | .sqTailDoorbell fn qid width value t => Sys2Proof.Machine.execSqTailDoorbell fn qid width value t s
  | .cqHeadDoorbell fn qid width value => Sys2Proof.Machine.execCqHeadDoorbell fn qid width value s
  | .sqeArrival fn qid entries => Sys2Proof.Machine.execSqeArrival fn qid entries s
  | .arbiterGrant t => Sys2Proof.Machine.execArbiterGrant t s
  | .longestWaiterGrant t => Sys2Proof.Machine.execLongestWaiterGrant t s
  | .agePromotion fn sqid cid t => Sys2Proof.Machine.execAgePromotion fn sqid cid t s
  | .coalescingTimer fn vector t => Sys2Proof.Machine.execCoalescingTimer fn vector t s
  | .msixTableWrite fn entry dword value => Sys2Proof.Machine.execMsixTableWrite fn entry dword value s
  | .ccEnable fn value => Sys2Proof.Machine.execCcEnable fn value s
  | .controllerReset fn => Sys2Proof.Machine.execControllerReset fn s
  | .shutdownNotification fn shn => Sys2Proof.Machine.execShutdownNotification fn shn s
  | .flr fn => Sys2Proof.Machine.execFlr fn s
  | .perstNAssert port widthNs => Sys2Proof.Machine.execPerstNAssert port widthNs s
  | .perstNDeassert port t => Sys2Proof.Machine.execPerstNDeassert port t s
  | .configRequest fn bme mse msixEnable fmask write t => Sys2Proof.Machine.execConfigRequest fn bme mse msixEnable fmask write t s
  | .numvfsWrite port value => Sys2Proof.Machine.execNumvfsWrite port value s
  | .linkUp port t => Sys2Proof.Machine.execLinkUp port t s
  | .linkDown port t => Sys2Proof.Machine.execLinkDown port t s
  | .laneFailure port width => Sys2Proof.Machine.execLaneFailure port width s
  | .malformedTlp port fn => Sys2Proof.Machine.execMalformedTlp port fn s
  | .hostErrorCompletion src answer => Sys2Proof.Machine.execHostErrorCompletion src answer s
  | .refclkLoss port t => Sys2Proof.Machine.execRefclkLoss port t s
  | .getVersion => Sys2Proof.Machine.execGetVersion s
  | .getCapabilities => Sys2Proof.Machine.execGetCapabilities s
  | .negotiateAlgorithms ecdsaP384 sha384 => Sys2Proof.Machine.execNegotiateAlgorithms ecdsaP384 sha384 s
  | .getDigests => Sys2Proof.Machine.execGetDigests s
  | .getCertificate slot offset length => Sys2Proof.Machine.execGetCertificate slot offset length s
  | .challenge slot nonce => Sys2Proof.Machine.execChallenge slot nonce s
  | .getMeasurements index nonce => Sys2Proof.Machine.execGetMeasurements index nonce s
  | .dramCalibration channel t => Sys2Proof.Machine.execDramCalibration channel t s
  | .dramRefresh channel bank => Sys2Proof.Machine.execDramRefresh channel bank s
  | .scrubRead dram channel region result passEnd t => Sys2Proof.Machine.execScrubRead dram channel region result passEnd t s
  | .shtPtrWrite channel value => Sys2Proof.Machine.execShtPtrWrite channel value s
  | .shtCtrlWrite channel value => Sys2Proof.Machine.execShtCtrlWrite channel value s
  | .shtRingWrite channel value => Sys2Proof.Machine.execShtRingWrite channel value s
  | .shuttleDescriptorComplete channel hostData uncorrectable => Sys2Proof.Machine.execShuttleDescriptorComplete channel hostData uncorrectable s
  | .shuttleBurstRetry channel ok hostData => Sys2Proof.Machine.execShuttleBurstRetry channel ok hostData s
  | .hemProgramComplete bank pass => Sys2Proof.Machine.execHemProgramComplete bank pass s
  | .hemEraseComplete bank pass => Sys2Proof.Machine.execHemEraseComplete bank pass s
  | .hemEraseSuspend bank => Sys2Proof.Machine.execHemEraseSuspend bank s
  | .hemWindowMove => Sys2Proof.Machine.execHemWindowMove s
  | .hemMarginCheck t a b => Sys2Proof.Machine.execHemMarginCheck t a b s
  | .idleTimerExpiry t => Sys2Proof.Machine.execIdleTimerExpiry t s
  | .powerDrainEnd t => Sys2Proof.Machine.execPowerDrainEnd t s
  | .domainStopAnswer domain accept t => Sys2Proof.Machine.execDomainStopAnswer domain accept t s
  | .domainStopTimeout domain t => Sys2Proof.Machine.execDomainStopTimeout domain t s
  | .entryRetry t => Sys2Proof.Machine.execEntryRetry t s
  | .domainStartDone domain t => Sys2Proof.Machine.execDomainStartDone domain t s
  | .wake source t tenant => Sys2Proof.Machine.execWake source t tenant s
  | .l12Exit port t => Sys2Proof.Machine.execL12Exit port t s
  | .vcoreSettled t => Sys2Proof.Machine.execVcoreSettled t s
  | .maintenanceWake t => Sys2Proof.Machine.execMaintenanceWake t s
  | .gaugeWindowEnd reading t => Sys2Proof.Machine.execGaugeWindowEnd reading t s
  | .sensorConversionStart remote index t => Sys2Proof.Machine.execSensorConversionStart remote index t s
  | .sensorConversionDone remote index reading broken t => Sys2Proof.Machine.execSensorConversionDone remote index reading broken t s
  | .commaLevelDescent t => Sys2Proof.Machine.execCommaLevelDescent t s
  | .thermalHold t => Sys2Proof.Machine.execThermalHold t s
  | .histogramSample t => Sys2Proof.Machine.execHistogramSample t s
  | .pbCheckpoint t hemOk => Sys2Proof.Machine.execPbCheckpoint t hemOk s
  | .pbFreezeExpiry t => Sys2Proof.Machine.execPbFreezeExpiry t s
  | .epochClose tenant t => Sys2Proof.Machine.execEpochClose tenant t s
  | .epochSave t => Sys2Proof.Machine.execEpochSave t s
  | .selvedgeDrain => Sys2Proof.Machine.execSelvedgeDrain s
  | .selvedgeHemFlush t hemOk => Sys2Proof.Machine.execSelvedgeHemFlush t hemOk s
  | .dieStatusTimeout die impossible recovers t => Sys2Proof.Machine.execDieStatusTimeout die impossible recovers t s
  | .bobbinSelfFault bobbin cause t => Sys2Proof.Machine.execBobbinSelfFault bobbin cause t s
  | .eraseSuspendLatencyEnd die => Sys2Proof.Machine.execEraseSuspendLatencyEnd die s
  | .hemSuspendWindowEnd bank => Sys2Proof.Machine.execHemSuspendWindowEnd bank s
  | .completionTimeout channel bursts hostData => Sys2Proof.Machine.execCompletionTimeout channel bursts hostData s
  | .refclkRelock port t => Sys2Proof.Machine.execRefclkRelock port t s
  | .linkL12Entry port => Sys2Proof.Machine.execLinkL12Entry port s
  | .nvmeMiMessage needsClaind t => Sys2Proof.Machine.execNvmeMiMessage needsClaind t s
  | .coreResetRelease vcoreInRange vsramInRange => Sys2Proof.Machine.execCoreResetRelease vcoreInRange vsramInRange s
  | .capacitanceTestWaitLimit t => Sys2Proof.Machine.execCapacitanceTestWaitLimit t s
  | .capacitanceTestRetry t => Sys2Proof.Machine.execCapacitanceTestRetry t s
  | .debugNonceExpiry t => Sys2Proof.Machine.execDebugNonceExpiry t s
  | .ledActHoldEnd => Sys2Proof.Machine.execLedActHoldEnd s
  | .undefinedMailboxOpcode opcode r => Sys2Proof.Machine.execUndefinedMailboxOpcode opcode r s

end Sys2Proof.Machine
end

