-- ==== Sys2Proof/Machine/Step.lean ====
section
/-! DEFINITION. One step: the command at the front of the queue takes effect on the state with the queue's rest; an empty queue
idles, and a reset of the mailbox that is under way ends (log 1). -/

namespace Sys2Proof.Machine

/-- One step of the block. -/
def step (s : State) : Host.Outcome State Fault Refusal :=
  match s.pending with
  | [] => .next s.idleTick
  | c :: r => exec c { s with pending := r }

/-- The state with the command that a word spells in front of its queue; no row of the table gives bits, so no word spells one
(log 10). -/
def State.withFetchWord (s : State) (nbits w : Nat) : State :=
  match decodeTableWord nbits w with
  | none => s
  | some c => { s with pending := c :: s.pending }

end Sys2Proof.Machine
end

