-- ==== Sys2Proof/WellFormed.lean ====
section
/-! DEFINITION. What a well-formed command is: every number it names is one that the spec gives the thing named (R18, R40, R43,
R71, R198, R214, R263, R349, R371, R376, R448). A command that is not well formed never arrives; `exec` is total on it. -/

namespace Sys2Proof

/-- A function number of a port (R263). -/
def FnId.wf (f : FnId) : Bool := decide (f.vf ≤ 1023)

/-- A die by channel and position (R71). -/
def DieId.wf (d : DieId) : Bool := decide (d.ch < 32 ∧ d.pos < 32)

/-- A mailbox slot (R43). -/
def MbxReq.wf (r : MbxReq) : Bool := decide (r.slot < 64)

/-- An NVMe command: its function, queue and Command ID (R250, R263). -/
def NvmeCmd.wf (c : NvmeCmd) : Bool := c.fn.wf && decide (c.sqid < 65536 ∧ c.cid < 65536)

/-- The operands of an I/O read or write (R105). -/
def IoArgs.wf (x : IoArgs) : Bool := decide (x.slba < 2 ^ 64 ∧ x.nlb < 65536 ∧ x.mptr < 2 ^ 64)

/-- Where a register write lands. -/
def RegTarget.wf : RegTarget → Bool
  | .bar0 f => f.wf
  | .bar4 f => f.wf
  | .bar2 _ _ | .dmCfg | .flashRate | .vcoreVid => true

/-- Which host read an answer belongs to. -/
def HostRead.wf : HostRead → Bool
  | .data f sqid cid => f.wf && decide (sqid < 65536 ∧ cid < 65536)
  | .shuttle c _ _ => decide (c < 64)

/-- What a power-on finds: training steps of the four channels and three rates, known verdicts (R350, R390). -/
def BootEnv.wf (b : BootEnv) : Bool :=
  decide (b.verdictA ≤ 9 ∧ b.verdictB ≤ 9) && b.trainBad.all (fun x => decide (x.ch < 4 ∧ x.step < 4 ∧ x.rate < 3)) &&
    (match b.mrBad with | none => true | some (c, _) => decide (c < 4)) &&
    b.dies.all (fun d => d.1.wf)

/-- A memory region (R367). -/
def EccRegion.wf : EccRegion → Bool
  | .tailorTcm p => decide (p < 4)
  | .bobbinStore b => decide (b < 136)
  | .dieLedger d => d.wf
  | .hostSwatch t n _ => decide (t < 1024 ∧ (n = 1 ∨ n = 2))
  | .readStaging _ _ | .darnAccumulator _ | .zoneMapCache | .parityLine | .tailorJournal | .roleTable | .mapJournal | .swatchState
  | .mappingTables | .reclaimSwatch _ _ | .other => true

/-- Whether a command is well formed. -/
def Instr.wf : Instr → Bool
  | .powerOn b => b.wf
  | .supplyReset _ => true
  | .crystalQualifyWindow _ => true
  | .rcFallback => true
  | .brownOutRecovery b _ => b.wf
  | .earlyWarning _ => true
  | .hardThreshold _ _ => true
  | .flushSeal e => e.fails.all (fun p => p.1.wf)
  | .inputReturn _ => true
  | .bankBelowMin _ _ _ => true
  | .comparatorArm _ => true
  | .vinSample _ _ _ => true
  | .gaugeUpdate _ _ _ => true
  | .capRecompute _ => true
  | .capRaiseDelay _ => true
  | .capacitanceTestPeriod _ => true
  | .capacitanceTestEnd _ _ _ _ => true
  | .tenantCreate r => r.wf
  | .tenantDestroy r => r.wf
  | .tenantQuery r => r.wf
  | .tenantList r => r.wf
  | .tenantSetQos r => r.wf
  | .tenantSetAtomic r => r.wf
  | .tenantQuarantine r => r.wf
  | .tenantRelease r => r.wf
  | .tenantReset r => r.wf
  | .qpairGrant r => r.wf
  | .qpairRevoke r => r.wf
  | .vectorBlockGrant r => r.wf
  | .vectorBlockRevoke r => r.wf
  | .queueQuery r => r.wf
  | .setCoalescing r => r.wf
  | .geometryQuery r => r.wf
  | .diegroupAssign r => r.wf
  | .diegroupQuery r => r.wf
  | .placementCreate r => r.wf
  | .placementDestroy r => r.wf
  | .placementQuery r => r.wf
  | .convRegionSet r => r.wf
  | .keyLoad r => r.wf
  | .keyRekeyBegin r => r.wf
  | .keyRekeyEnd r => r.wf
  | .keyDestroy r => r.wf
  | .keyQuery r => r.wf
  | .wrapKeyInfo r => r.wf
  | .tenantFreeze r => r.wf
  | .freezeCapture tenant _ => decide (tenant < 1024)
  | .freezeTimeout tenant _ => decide (tenant < 1024)
  | .snapshotRead r => r.wf
  | .snapshotDiscard r => r.wf
  | .tenantRestore r => r.wf
  | .tenantThaw r => r.wf
  | .powerPolicy r => r.wf
  | .domainQuery r => r.wf
  | .vcorePolicy r => r.wf
  | .thermalConfig r => r.wf
  | .holdupQuery r => r.wf
  | .capacitanceTest r => r.wf
  | .exposedCapSet r => r.wf
  | .pbFreeze r => r.wf
  | .pbThaw r => r.wf
  | .pbQuery r => r.wf
  | .yardageSetEpoch r => r.wf
  | .yardageRead r => r.wf
  | .hostTimeSet r => r.wf
  | .fwStage r => r.wf
  | .fwVerify r => r.wf
  | .fwActivateNow r => r.wf
  | .fwActivateNextPowerOn r => r.wf
  | .activationTimeout _ => true
  | .fwRollback r => r.wf
  | .bootQuery r => r.wf
  | .managerPolicy r => r.wf
  | .managerFailover _ => true
  | .sanitiseStartBlockErase r => r.wf
  | .sanitiseStartCryptoErase r => r.wf
  | .sanitiseStartExitFailure r => r.wf
  | .sanitiseStatus r => r.wf
  | .formatStart r => r.wf
  | .formatStatus r => r.wf
  | .debugAuthoriseChallenge r => r.wf
  | .debugAuthoriseToken r => r.wf
  | .debugAuthoriseRevoke r => r.wf
  | .debugAuthExpiry _ => true
  | .frayArm r => r.wf
  | .frayDisarm r => r.wf
  | .selvedgeRead r => r.wf
  | .selvedgeSetThreshold r => r.wf
  | .warmReset r => r.wf
  | .mbxQueuedStart => true
  | .mbxCqHeadWrite _ _ => true
  | .registerWrite tgt _ width _ => tgt.wf && decide (width = 8 ∨ width = 16 ∨ width = 32 ∨ width = 64)
  | .createIoSq c qid qsize _ _ cqid _ => c.wf && decide (qid < 65536) && decide (qsize < 65536) && decide (cqid < 65536)
  | .createIoCq c qid qsize _ _ _ iv => c.wf && decide (qid < 65536) && decide (qsize < 65536) && decide (iv < 65536)
  | .deleteIoSq c qid => c.wf && decide (qid < 65536)
  | .deleteIoCq c qid => c.wf && decide (qid < 65536)
  | .getLogPage c lid lsi _ _ => c.wf && decide (lid < 256) && decide (lsi < 65536)
  | .getLogVendorEvents c lsi _ _ => c.wf && decide (lsi < 65536)
  | .identify c cns csi _ => c.wf && decide (cns < 256) && decide (csi < 256)
  | .abort c sqid acid => c.wf && decide (sqid < 65536) && decide (acid < 65536)
  | .setFeatures c fid _ _ _ _ => c.wf && decide (fid < 256)
  | .getFeatures c fid sel _ _ => c.wf && decide (fid < 256) && decide (sel < 8)
  | .setArbitration c _ => c.wf
  | .setPowerManagement c _ => c.wf
  | .setTemperatureThreshold c _ => c.wf
  | .setNumberOfQueues c _ => c.wf
  | .setInterruptCoalescing c _ _ => c.wf
  | .setApst c _ _ _ _ => c.wf
  | .setTimestamp c _ => c.wf
  | .setDarningControl c _ _ _ _ => c.wf
  | .setReclamationControl c _ _ _ _ => c.wf
  | .setChannelArbiterControl c _ _ _ => c.wf
  | .setIntakeArbitrationControl c _ _ _ => c.wf
  | .setVendorEventConfiguration c _ => c.wf
  | .asynchronousEventRequest c => c.wf
  | .firmwareImageDownload c _ _ => c.wf
  | .firmwareCommit c _ fs verdict _ => c.wf && decide (fs < 8) && decide (verdict ≤ 9)
  | .formatNvm c _ _ _ _ _ _ => c.wf
  | .sanitizeBlockErase c _ _ _ => c.wf
  | .sanitizeCryptoErase c _ _ _ => c.wf
  | .sanitizeExitFailureMode c => c.wf
  | .read c io => c.wf && io.wf
  | .write c io => c.wf && io.wf
  | .zoneAppend c io => c.wf && io.wf
  | .writeZeroes c io => c.wf && io.wf
  | .flush c => c.wf
  | .zoneOpen c _ _ => c.wf
  | .zoneClose c _ _ => c.wf
  | .zoneFinish c _ _ => c.wf
  | .zoneReset c _ _ => c.wf
  | .reportZones c _ _ _ _ _ _ => c.wf
  | .hostDataArrival fn sqid cid _ _ _ => fn.wf && decide (sqid < 65536) && decide (cid < 65536)
  | .seamLaneComplete lane _ => decide (lane < 32)
  | .dramWriteDrain channel => decide (channel < 4)
  | .commitPoint fn sqid cid _ => fn.wf && decide (sqid < 65536) && decide (cid < 65536)
  | .spillTimerExpiry tenant nsid _ => decide (tenant < 1024) && decide (nsid = 1 ∨ nsid = 2)
  | .programStatusRead die _ _ => die.wf
  | .arrayReadDone die => die.wf
  | .dataOutDone die => die.wf
  | .ldpcDecodeDone opId _ _ => decide (opId < 65536)
  | .darnExhaustionEnd group _ => decide (group < 32)
  | .darnWindowBoundary _ => true
  | .eraseMinSegmentEnd die => die.wf
  | .bulkReadAge die opId => die.wf && decide (opId < 65536)
  | .tokenDeferralLimit die => die.wf
  | .boltEraseStart bolt _ => decide (bolt < 262144)
  | .eraseStatusRead die _ _ _ => die.wf
  | .itemAgePromotion _ => true
  | .mergeIdleTimer group => decide (group < 32)
  | .mergeStart tenant _ => decide (tenant < 1024)
  | .relocationStart bolt _ => decide (bolt < 262144)
  | .mediaPatrolSample bolt _ => decide (bolt < 262144)
  | .bobbinRead _ _ => true
  | .readComponent _ => true
  | .program _ => true
  | .erase _ => true
  | .cancel _ => true
  | .tokenGrant _ => true
  | .dieReset _ => true
  | .adopt _ => true
  | .handover _ => true
  | .done _ => true
  | .dataReady _ => true
  | .bounce _ => true
  | .tokenReturn _ => true
  | .fault _ => true
  | .epochAdvance _ => true
  | .livenessProbe _ => true
  | .probeTimeout bobbin _ => decide (bobbin < 136)
  | .heldInputTimeout bobbin _ => decide (bobbin < 136)
  | .tailorTrap pair _ _ => decide (pair < 4)
  | .heartbeatMiss pair _ => decide (pair < 4)
  | .selfTestDone pair _ => decide (pair < 4)
  | .busArbiterDecision channel => decide (channel < 32)
  | .busTransactionEnd channel => decide (channel < 32)
  | .holdCutoff channel _ => decide (channel < 32)
  | .sqTailDoorbell fn qid width _ _ => fn.wf && decide (qid < 65536) && decide (width = 8 ∨ width = 16 ∨ width = 32 ∨ width = 64)
  | .cqHeadDoorbell fn qid width _ => fn.wf && decide (qid < 65536) && decide (width = 8 ∨ width = 16 ∨ width = 32 ∨ width = 64)
  | .sqeArrival fn qid entries => fn.wf && decide (qid < 65536) && entries.all (fun e => e.cmd.wf)
  | .arbiterGrant _ => true
  | .longestWaiterGrant _ => true
  | .agePromotion fn sqid cid _ => fn.wf && decide (sqid < 65536) && decide (cid < 65536)
  | .coalescingTimer fn vector _ => fn.wf && decide (vector < 2048)
  | .msixTableWrite fn entry dword _ => fn.wf && decide (entry < 2048) && decide (dword < 4)
  | .ccEnable fn _ => fn.wf
  | .controllerReset fn => fn.wf
  | .shutdownNotification fn _ => fn.wf
  | .flr fn => fn.wf
  | .perstNAssert _ _ => true
  | .perstNDeassert _ _ => true
  | .configRequest fn _ _ _ _ _ _ => fn.wf
  | .numvfsWrite _ value => decide (value < 65536)
  | .linkUp _ _ => true
  | .linkDown _ _ => true
  | .laneFailure _ width => decide (width ≤ 4)
  | .malformedTlp _ fn => fn.all FnId.wf
  | .hostErrorCompletion src _ => src.wf
  | .refclkLoss _ _ => true
  | .getVersion => true
  | .getCapabilities => true
  | .negotiateAlgorithms _ _ => true
  | .getDigests => true
  | .getCertificate slot _ _ => decide (slot < 8)
  | .challenge slot _ => decide (slot < 8)
  | .getMeasurements index _ => decide (index < 256)
  | .dramCalibration channel _ => decide (channel < 4)
  | .dramRefresh channel bank => decide (channel < 4) && decide (bank < 16)
  | .scrubRead _ channel region _ _ _ => decide (channel < 4) && region.wf
  | .shtPtrWrite channel _ => decide (channel < 64)
  | .shtCtrlWrite channel _ => decide (channel < 64)
  | .shtRingWrite channel _ => decide (channel < 64)
  | .shuttleDescriptorComplete channel _ e => decide (channel < 64) && (match e with | none => true | some e => e.region.wf)
  | .shuttleBurstRetry channel _ _ => decide (channel < 64)
  | .hemProgramComplete bank _ => decide (bank < 4)
  | .hemEraseComplete bank _ => decide (bank < 4)
  | .hemEraseSuspend bank => decide (bank < 4)
  | .hemWindowMove => true
  | .hemMarginCheck _ _ _ => true
  | .idleTimerExpiry _ => true
  | .powerDrainEnd _ => true
  | .domainStopAnswer domain _ _ => decide (domain < 26)
  | .domainStopTimeout domain _ => decide (domain < 26)
  | .entryRetry _ => true
  | .domainStartDone domain _ => decide (domain < 26)
  | .wake _ _ tenant => tenant.all (fun k => decide (k < 1024))
  | .l12Exit _ _ => true
  | .vcoreSettled _ => true
  | .maintenanceWake _ => true
  | .gaugeWindowEnd _ _ => true
  | .sensorConversionStart _ _ _ => true
  | .sensorConversionDone _ _ _ _ _ => true
  | .commaLevelDescent _ => true
  | .thermalHold _ => true
  | .histogramSample _ => true
  | .pbCheckpoint _ _ => true
  | .pbFreezeExpiry _ => true
  | .epochClose tenant _ => decide (tenant < 1024)
  | .epochSave _ => true
  | .selvedgeDrain => true
  | .selvedgeHemFlush _ _ => true
  | .dieStatusTimeout die _ _ _ => die.wf
  | .bobbinSelfFault bobbin _ _ => decide (bobbin < 136)
  | .eraseSuspendLatencyEnd die => die.wf
  | .hemSuspendWindowEnd bank => decide (bank < 4)
  | .completionTimeout channel _ _ => decide (channel < 64)
  | .refclkRelock _ _ => true
  | .linkL12Entry _ => true
  | .nvmeMiMessage _ _ => true
  | .coreResetRelease _ _ => true
  | .capacitanceTestWaitLimit _ => true
  | .capacitanceTestRetry _ => true
  | .debugNonceExpiry _ => true
  | .ledActHoldEnd => true
  | .undefinedMailboxOpcode _ r => r.wf

end Sys2Proof
end

