-- ==== Sys2Proof/Safety.lean ====
section
/-! DEFINITION. What counts as a safe run, and the conditions on a state that claims about single commands are stated under. -/

namespace Sys2Proof

/-- A step that answers a next state. -/
def StepsTo (s t : Machine.State) : Prop := Machine.step s = .next t

/-- A state that a run of steps reaches. -/
inductive Reaches : Machine.State → Machine.State → Prop
  | refl (s : Machine.State) : Reaches s s
  | next {s t u : Machine.State} : Reaches s t → StepsTo t u → Reaches s u

/-- The commands waiting are well formed. -/
def QueueWf (s : Machine.State) : Prop := ∀ c ∈ s.pending, c.wf = true

/-- A state whose next step does not stop. -/
def Safe (s : Machine.State) : Prop := ∃ t, StepsTo s t

end Sys2Proof

namespace Sys2Proof.Machine

/-! Conditions on a state. -/

/-- Nothing waits for commands to end: no warm device reset is due (R524), no sanitise runs (R432), no tenant is being
formatted (R438) or has its conventional region resized (R104), no activation is under way (R396), and no power state is recorded
for later (R461). -/
def State.Calm (s : State) : Prop :=
  s.aon.warmCmd = none ∧ s.aon.warmDue = false ∧ s.san.s.running = false ∧ s.pow.held = none ∧ s.hem.actStep = 0 ∧
    ∀ p ∈ s.host.tenants, (s.tenantD p.1).formatting ≠ 1 ∧ (s.tenantD p.1).convCmd = none

/-- The write path and reclamation have nothing to do: no command of a tenant's waits or is under way there, no item is queued or
running, no binding waits, no tenant's swatches have just come free, no zone is to be finished by the device, no log bolt is full, the
free ones stand at their high mark, and no group's wear spread asks for a move (R92, R109, R116, R121, R172-R182, R194). -/
def State.Rests (s : State) : Prop :=
  s.wr.writes = [] ∧ s.wr.sends = [] ∧ s.wr.ready = [] ∧ s.recl.inbox = [] ∧ s.recl.items = [] ∧ s.recl.throttled = [] ∧
    s.recl.logState = 0 ∧ s.recl.logHigh ≤ s.freeLogCount ∧ (∀ p ∈ s.bolts.table, p.2.fillSeq = 0) ∧
    (∀ p ∈ s.host.tenants, ∀ z ∈ p.2.zones, z.2.finishDue = false) ∧ s.wr.freed = [] ∧ s.bolts.bindWait = [] ∧
    ∀ p ∈ s.bolts.table, s.wearDue (boltGroup p.1) = false

/-- The mailbox is idle and takes the command that `r` submits: the manager's port, a READY mailbox with the slot free and room
in the ring, no other command, no role move or power policy waiting, the device in an operational power state with DRAM, a pair in
Run serving set M, and the host port running with the Fray unit disarmed (R39, R42, R48, R52, R63, R68, R217, R220, R349, R395, R412,
R518). -/
def State.MbxIdle (s : State) (r : MbxReq) : Prop :=
  s.portThere r.port = true ∧ r.slot < 64 ∧ s.therm.latch = false ∧ s.mbx.manager = r.port ∧ s.eng.dead = false ∧
    (s.mbxPort r.port).slotBusy r.slot = false ∧ s.mbxReady r.port = true ∧ (s.mbxPort r.port).waiting = [] ∧
    (s.mbxPort r.port).posted < 64 ∧ s.mbx.accepted = [] ∧ s.mbx.movePending = none ∧ s.pow.ps < 3 ∧ s.pow.step = .none ∧
    s.aon.noDram = false ∧ s.hem.recovery = false ∧ s.supply.portsStopped = false ∧ s.dbg.armed = false ∧ s.mServed = true ∧
    s.pow.stopped.contains (22 + s.eng.setM) = false ∧ s.pow.policyDue = false

/-- The mailbox is idle, nothing waits for commands to end, and `r`'s reserved flags and bytes outside PARAMS are 0 (R43,
R44). -/
def State.Takes (s : State) (r : MbxReq) : Prop :=
  s.MbxIdle r ∧ s.Calm ∧ r.flags.toNat < 4 ∧ r.rsvA = 0#24 ∧ r.rsvB = 0#32

/-- The TARGET of `r` is a live handle of a kind, for the object in `slot` of the tenant `t` in slot `k` (R55-R57). -/
def State.Names (s : State) (kind : Nat) (r : MbxReq) (slot k : Nat) (t : Tenant) : Prop :=
  s.checkHandle kind r.target.toNat = .valid slot k ∧ s.tenant k = some t

/-- A command that writes the Hem store may: early warning has not latched, and its program passes (R382, R411). -/
def State.MayStore (s : State) (r : MbxReq) : Prop := s.supply.ewLatched = false ∧ r.env.hemOk = true

/-- The completion of the mailbox command that `r` submitted, as it was written into the ring: its status, RESULT_HANDLE and
RESULT (R45, R49). -/
def State.MbxAnswered (t : State) (op : BitVec 16) (r : MbxReq) (status handle result : Nat) : Prop :=
  ∃ i e, Out.mbx r.port i e ∈ t.out ∧ e.tag = r.tag ∧ e.opcode = op ∧ e.slot = r.slot ∧ e.status = BitVec.ofNat 8 status ∧
    e.resultHandle = BitVec.ofNat 32 handle ∧ e.result = BitVec.ofNat 96 result

/-- The command `c` is the next one granted, in the entry `e` with this opcode, and the device executes; `u` is the state once it
is taken (R241, R242, R450). -/
def State.Granted (s : State) (c : NvmeCmd) (e : Sqe) (op : BitVec 8) (u : State) : Prop :=
  s.pow.ps < 3 ∧ e.cmd = c ∧ e.opcode = op ∧ s.host.granted = (c.fn, (e, c.sqid)) :: u.host.granted ∧
    u = { s with host.granted := u.host.granted }

/-- A completion of the command `c` can be written: its completion queue has room and nothing waiting, and what is sent to the host
arrives (R241, R412, R518). -/
def State.Posts (s : State) (c : NvmeCmd) : Prop :=
  c.sqid < 65536 ∧ c.cid < 65536 ∧ s.supply.portsStopped = false ∧ s.dbg.armed = false ∧
    ((s.fn c.fn).cq ((s.fn c.fn).cqOf c.sqid)).any (fun q => q.waiting.isEmpty && q.hasRoom) = true

/-- The request `m`, no control event, arrives alone at the input of the bobbin that owns its role, whose domain runs; the Fray unit
injects nothing, and `m` is no repeat of one already begun. `u` is the state once it is recorded and taken (R199-R207, R450, R518). -/
def State.Accepted (s : State) (m : BMsg) (u : State) : Prop :=
  ∃ v, (s.recordReq m).fray 2 m.dest 0 = ([], v) ∧ u = v.takeReq m ∧ m.control = false ∧ (∀ q ∈ u.eng.msgs, q.dest ≠ m.dest) ∧
    u.isBobbin m.dest = true ∧ u.pow.stopped.contains (u.bobbinDomain m.dest) = false ∧ u.accepts m = true ∧
    u.eng.reqs.any (fun q => decide (q.src = m.src ∧ q.opId = m.opId) && (q.answered || decide (q.op ≠ 0))) = false

/-- The completion of an NVMe command, as it was written into its completion queue (R241). -/
def State.Completed (t : State) (c : NvmeCmd) (status : Nat) (dw0 : BitVec 32) : Prop :=
  ∃ q e ph i h, Out.cqe c.fn q e ph i h ∈ t.out ∧ e.sqid = c.sqid ∧ e.cid = c.cid ∧ e.status = status ∧ e.dw0 = dw0

/-! What a command leaves as it is. -/

/-- Everything of a state but what the completion of a command may change: the functions' and tenants' tables, the busy time, the fetches
in flight and when the last one went out, what has been sent, the live samples and counts of the Pattern Book, the idle timer, the activity LED, the counts of the Fray rules and
the free values drawn. -/
def State.rest (s : State) : State :=
  { s with
    host.fns := []
    host.tenants := []
    host.busyFrom := none
    host.busyUs := 0
    host.fetchTagsA := 0
    host.fetchTagsB := 0
    host.lastFetchUs := 0
    out := []
    pb.hist := []
    pb.extremes := []
    pb.counters := []
    pb.heldExtremes := []
    pb.heldCounters := []
    pb.heldTenant := []
    pb.missed := 0
    pb.dirty := false
    pow.idleUs := 0
    aon.ledHold := false
    aon.ledActive := false
    dbg.rules := []
    fresh := 0 }

/-- A function's registers and settings, without what a completion may change of it. -/
def Fn.cfg (x : Fn) : Fn :=
  { x with sqs := [], cqs := [], msix := [], granted := [], shst := 0, errs := [], errCount := 0, deleting := [] }

/-- A tenant's records, without what a completion may change of them: its counts. -/
def Tenant.cfg (t : Tenant) : Tenant :=
  { t with meters := [], smart := [], smartBusyUs := 0, activeFrom := none, pb := [] }

/-- What the completion of an NVMe command leaves as it is: `rest`, the settings of every function and the records of every
tenant. -/
def State.kept (s : State) : State × (FnId → Fn) × (Nat → Option Tenant) :=
  (s.rest, fun f => (s.fn f).cfg, fun k => (s.tenant k).map Tenant.cfg)

/-- What the activity of the functions' queues leaves as it is: everything that `kept` keeps but the functions. -/
def State.apart (s : State) : State × (Nat → Option Tenant) := (s.rest, fun k => (s.tenant k).map Tenant.cfg)

/-- A port's mailbox registers, without what running one command changes of them: slots, ring and busy bits. -/
def MbxPort.cfg (x : MbxPort) : MbxPort :=
  { x with slots := [], ring := [], busy := 0#64, tail := 0#6, phase := false, posted := 0, waiting := [] }

/-- The mailbox, without what running one command changes of it: its ports' slots and rings, the last SEQ, the commands accepted
and the outcome log. -/
def Mbx.cfg (m : Mbx) : Mbx :=
  { m with portA := m.portA.cfg, portB := m.portB.cfg, seq := 0, accepted := [], log := [], logNewest := 0, logIndex := 0 }

/-- What the start and the end of a mailbox command leave as it is: what `kept` keeps, but for the slots and rings of the mailbox
and the Selvedge log. -/
def State.mkept (s : State) : State × (FnId → Fn) × (Nat → Option Tenant) :=
  ({ s.rest with mbx := s.mbx.cfg, selv := default }, s.kept.2)

/-- What the start and the end of a mailbox command that sets the functions' queues to work leave as it is: what `apart` keeps, but
for the slots and rings of the mailbox and the Selvedge log. -/
def State.mapart (s : State) : State × (Nat → Option Tenant) :=
  ({ s.apart.1 with mbx := s.mbx.cfg, selv := default }, s.apart.2)

/-- Row `i`, the mailbox command that `r` submits, runs on `s`: it answers a next state in which its completion with OK, this
RESULT_HANDLE and this RESULT has been sent, and in which everything that `mkept` keeps is as in `u`. -/
def State.Does (s : State) (i : Instr) (op : BitVec 16) (r : MbxReq) (handle result : Nat) (u : State) : Prop :=
  ∃ t, exec i s = .next t ∧ t.MbxAnswered op r stOk handle result ∧ t.mkept = u.mkept

/-- As `Does`, where the command changes nothing and writes `bytes` to the manager's buffer, as many as it holds: the buffer's
address and length stand in the slot at `addrOff` and `lenOff` (R44). -/
def State.Tells (s : State) (i : Instr) (op : BitVec 16) (r : MbxReq) (handle result addrOff lenOff : Nat) (bytes : List Byte) :
    Prop :=
  ∃ t, exec i s = .next t ∧ t.MbxAnswered op r stOk handle result ∧
    Out.mem s.mbx.manager (r.p addrOff 8) (bytes.take (r.p lenOff 4)) ∈ t.out ∧ t.mkept = s.mkept

/-- As `Tells`, where the command also leaves everything that `mkept` keeps as in `u`. -/
def State.DoesTelling (s : State) (i : Instr) (op : BitVec 16) (r : MbxReq) (handle result addrOff lenOff : Nat) (bytes : List Byte)
    (u : State) : Prop :=
  ∃ t, exec i s = .next t ∧ t.MbxAnswered op r stOk handle result ∧
    Out.mem s.mbx.manager (r.p addrOff 8) (bytes.take (r.p lenOff 4)) ∈ t.out ∧ t.mkept = u.mkept

/-- As `Does`, where the command also sets the functions' queues to work: everything but the functions and the mailbox's slots and
rings is as in `u`. -/
def State.DoesApart (s : State) (i : Instr) (op : BitVec 16) (r : MbxReq) (handle result : Nat) (u : State) : Prop :=
  ∃ t, exec i s = .next t ∧ t.MbxAnswered op r stOk handle result ∧ t.mapart = u.mapart

/-! A mailbox command as it runs. -/

/-- The command that `r` submits, before it executes. -/
def State.queuedCmd (s : State) (op : BitVec 16) (r : MbxReq) : MbxCmd := 
  ⟨op, r, s.mbx.seq + 1, false, false, true, s.eng.setM, true, false, s.now⟩

/-- The registers of the port while the command that `r` submits executes: the slot holds its bytes and is busy. -/
def State.begunPort (s : State) (op : BitVec 16) (r : MbxReq) : MbxPort :=
  let x := s.mbxPort r.port
  ({ x with slots := x.slots.writeBytes (64 * r.slot) (slotBytes op r) }).setBusy r.slot true

/-- The mailbox with a command accepted and the registers of its port changed. -/
def State.begunWith (s : State) (p : Port) (x : MbxPort) (cs : List MbxCmd) : Mbx :=
  { (s.setMbxPort p x).mbx with seq := s.mbx.seq + 1, accepted := cs }

/-- The mailbox while the command that `r` submits executes. -/
def State.begunMbx (s : State) (op : BitVec 16) (r : MbxReq) : Mbx :=
  s.begunWith r.port (s.begunPort op r) [{ s.queuedCmd op r with started := true, applied := true }]

/-- The state in which the handler of the command that `r` submits runs. -/
def State.begun (s : State) (op : BitVec 16) (r : MbxReq) : State := { s with mbx := s.begunMbx op r, pow.idleUs := s.now }

/-- Row `i`, the mailbox command that `r` submits, runs on `s`: its handler leaves `u`, and its completion with OK, this
RESULT_HANDLE and this RESULT is posted. -/
def State.Finishes (s : State) (i : Instr) (op : BitVec 16) (r : MbxReq) (handle result : Nat) (u : State) : Prop :=
  exec i s = .next (u.mbxFinish (s.queuedCmd op r) stOk 0xFFFF handle result)

/-- Row `i`, the mailbox command that `r` submits, runs on `s`: its handler leaves `u`, its completion with OK, this RESULT_HANDLE
and this RESULT is posted, and what waits for commands to end goes on. -/
def State.Ends (s : State) (i : Instr) (op : BitVec 16) (r : MbxReq) (handle result : Nat) (u : State) : Prop :=
  exec i s = .next (u.mbxFinish (s.queuedCmd op r) stOk 0xFFFF handle result).after

end Sys2Proof.Machine

namespace Sys2Proof

/-- The mailbox command that a row submits: its opcode and its slot (R61). -/
def Instr.mailbox : Instr → Option (BitVec 16 × MbxReq)
  | .tenantCreate r => some (0x0101#16, r)
  | .tenantDestroy r => some (0x0102#16, r)
  | .tenantQuery r => some (0x0103#16, r)
  | .tenantList r => some (0x0104#16, r)
  | .tenantSetQos r => some (0x0105#16, r)
  | .tenantSetAtomic r => some (0x0106#16, r)
  | .tenantQuarantine r => some (0x0107#16, r)
  | .tenantRelease r => some (0x0108#16, r)
  | .tenantReset r => some (0x0109#16, r)
  | .qpairGrant r => some (0x0201#16, r)
  | .qpairRevoke r => some (0x0202#16, r)
  | .vectorBlockGrant r => some (0x0203#16, r)
  | .vectorBlockRevoke r => some (0x0204#16, r)
  | .queueQuery r => some (0x0205#16, r)
  | .setCoalescing r => some (0x0206#16, r)
  | .geometryQuery r => some (0x0301#16, r)
  | .diegroupAssign r => some (0x0302#16, r)
  | .diegroupQuery r => some (0x0303#16, r)
  | .placementCreate r => some (0x0304#16, r)
  | .placementDestroy r => some (0x0305#16, r)
  | .placementQuery r => some (0x0306#16, r)
  | .convRegionSet r => some (0x0307#16, r)
  | .keyLoad r => some (0x0401#16, r)
  | .keyRekeyBegin r => some (0x0402#16, r)
  | .keyRekeyEnd r => some (0x0403#16, r)
  | .keyDestroy r => some (0x0404#16, r)
  | .keyQuery r => some (0x0405#16, r)
  | .wrapKeyInfo r => some (0x0406#16, r)
  | .tenantFreeze r => some (0x0501#16, r)
  | .snapshotRead r => some (0x0502#16, r)
  | .snapshotDiscard r => some (0x0503#16, r)
  | .tenantRestore r => some (0x0504#16, r)
  | .tenantThaw r => some (0x0505#16, r)
  | .powerPolicy r => some (0x0601#16, r)
  | .domainQuery r => some (0x0602#16, r)
  | .vcorePolicy r => some (0x0603#16, r)
  | .thermalConfig r => some (0x0604#16, r)
  | .holdupQuery r => some (0x0605#16, r)
  | .capacitanceTest r => some (0x0606#16, r)
  | .exposedCapSet r => some (0x0607#16, r)
  | .pbFreeze r => some (0x0701#16, r)
  | .pbThaw r => some (0x0702#16, r)
  | .pbQuery r => some (0x0703#16, r)
  | .yardageSetEpoch r => some (0x0704#16, r)
  | .yardageRead r => some (0x0705#16, r)
  | .hostTimeSet r => some (0x0706#16, r)
  | .fwStage r => some (0x0801#16, r)
  | .fwVerify r => some (0x0802#16, r)
  | .fwActivateNow r => some (0x0803#16, r)
  | .fwActivateNextPowerOn r => some (0x0803#16, r)
  | .fwRollback r => some (0x0804#16, r)
  | .bootQuery r => some (0x0805#16, r)
  | .managerPolicy r => some (0x0806#16, r)
  | .sanitiseStartBlockErase r => some (0x0901#16, Machine.withAction r 1)
  | .sanitiseStartCryptoErase r => some (0x0901#16, Machine.withAction r 2)
  | .sanitiseStartExitFailure r => some (0x0901#16, Machine.withAction r 3)
  | .sanitiseStatus r => some (0x0902#16, r)
  | .formatStart r => some (0x0903#16, r)
  | .formatStatus r => some (0x0904#16, r)
  | .debugAuthoriseChallenge r => some (0x0A01#16, r)
  | .debugAuthoriseToken r => some (0x0A01#16, r)
  | .debugAuthoriseRevoke r => some (0x0A01#16, r)
  | .frayArm r => some (0x0A02#16, r)
  | .frayDisarm r => some (0x0A03#16, r)
  | .selvedgeRead r => some (0x0A04#16, r)
  | .selvedgeSetThreshold r => some (0x0A05#16, r)
  | .warmReset r => some (0x0A06#16, r)
  | .undefinedMailboxOpcode op r => some (op, r)
  | _ => none

/-- The buffer fields of `r` are sound, and the host's memory takes and gives bytes there: its address is a multiple of 64, and its
length from `least` to 1 MiB (R44). -/
def MbxReq.Buffer (r : MbxReq) (addrOff lenOff least : Nat) : Prop :=
  r.p addrOff 8 % 64 = 0 ∧ 0 < r.p lenOff 4 ∧ r.p lenOff 4 ≤ 2 ^ 20 ∧ least ≤ r.p lenOff 4 ∧ r.env.bufOk = true

/-- The runs of reserved bytes of PARAMS are 0 (R44): each by its first byte's offset in the slot and its length. -/
def MbxReq.Zero (r : MbxReq) (runs : List (Nat × Nat)) : Prop := ∀ p ∈ runs, r.rsv p.1 p.2 = none

end Sys2Proof
end

