-- ==== Sys2Proof/Certificates/Slice0/Obligations.lean ====
section
/-! DEFINITION. The statements for the provers. -/

open Sys2Proof Sys2Proof.Machine

/-- A step takes the command at the front of the queue and answers what `exec` answers for it with the queue's rest. The
queue is the model's own frame (log 1). -/
def Obligations.StepRunsFrontCommand : Prop :=
  ∀ (s : State) (c : Instr) (r : List Instr), s.pending = c :: r → step s = exec c { s with pending := r }

/-- On an empty queue the block idles but for READY after a manager reset, and no word spells a command: both are the model's
choices (logs 1 and 10). -/
def Obligations.EmptyQueueIdles : Prop :=
  (∀ s : State, s.pending = [] → s.mbx.portA.readyAt = none → s.mbx.portB.readyAt = none → step s = .next s) ∧
  (∀ s : State, s.pending = [] → ∃ a b : MbxPort, step s = .next { s with mbx.portA := a, mbx.portB := b } ∧
    (∀ n, s.mbx.portA.readyAt = some n → a = { s.mbx.portA with ready := true, readyAt := none }) ∧
    (∀ n, s.mbx.portB.readyAt = some n → b = { s.mbx.portB with ready := true, readyAt := none })) ∧
  (∀ (s : State) (n w : Nat), decodeTableWord n w = none ∧ s.withFetchWord n w = s)

/-- No command stops the block: every row answers a next state on every state and operands (a fault of the machine is an
effect on its state, R526). -/
def Obligations.EveryCommandAnswers : Prop :=
  ∀ (c : Instr) (s : State), ∃ t, exec c s = .next t

/-- A mailbox row is its 64 bytes in the slot and a doorbell: what the slot holds reads back as the row's opcode and fields,
and the doorbell runs the same handler as the row (R41, R43, R44, R48, R61). That a row stands for both is the model's choice
(log 14). -/
def Obligations.MailboxDoorbellRunsItsSlot : Prop :=
  ∀ (s : State) (i : Instr) (op : BitVec 16) (r : MbxReq), i.mailbox = some (op, r) → s.portThere r.port = true →
    s.therm.latch = false → r.slot < 64 → (s.mbxPort r.port).slotBusy r.slot = false → (s.mbxPort r.port).slots.wf = true →
    (s.mbxSlotWrite op r).slotReq r.port r.slot r.env = (op, r) ∧
      exec (.registerWrite (.bar2 r.port r.env) 0x2000 32 (BitVec.ofNat 64 r.slot)) (s.mbxSlotWrite op r) =
        .next (s.mbxSubmit op (mbxHandler op.toNat) r).after ∧
      (exec i s = .next (s.mbxSubmit op (mbxHandler op.toNat) r) ∨ exec i s = .next (s.mbxSubmit op (mbxHandler op.toNat) r).after)

/-- What destroying an object does to the handles of its slot (R56-R58). -/
def Obligations.GenerationsAdvance : Prop :=
  ∀ (s : State) (kind slot : Nat), slot < 65536 →
    (s.bumpGen kind slot).gen kind slot = (if s.gen kind slot = 4095 then 1 else s.gen kind slot + 1) ∧
      (∀ h o, s.checkHandle kind h = .valid slot o → (s.bumpGen kind slot).checkHandle kind h = .stale) ∧
      (∀ kind' slot' h o, (kind', slot') ≠ (kind, slot) → s.checkHandle kind' h = .valid slot' o →
        (s.bumpGen kind slot).checkHandle kind' h = .valid slot' o) ∧
      (∀ o, s.ownerOf kind slot = some o → slot < kindSlots kind → s.gen kind slot < 4096 →
        (s.bumpGen kind slot).checkHandle kind ((s.bumpGen kind slot).handleOf kind slot) = .valid slot o)

/-- The checks of a handle field and their place in the order of the status codes (R55, R57, R60), for one command of each
kind of handle. -/
def Obligations.HandlesAreChecked : Prop :=
  ∀ (s : State) (r : MbxReq) (i : Instr) (op : BitVec 16) (kind : Nat) (zeros : Nat × Nat),
    (i, op, kind, zeros) ∈ [(.tenantQuery r, 0x0103#16, 1, (28, 36)), (.queueQuery r, 0x0205#16, 2, (16, 48)),
      (.placementQuery r, 0x0306#16, 3, (16, 48)), (.keyQuery r, 0x0405#16, 4, (16, 48)),
      (.vectorBlockRevoke r, 0x0204#16, 5, (16, 48)), (.snapshotDiscard r, 0x0503#16, 6, (16, 48))] →
    s.Takes r → (kind = 4 → s.cipher = true) →
    (r.target.toNat / 2 ^ 28 ≠ kind ∨ kindSlots kind ≤ handleSlot r.target.toNat ∨ r.target.toNat % 2 ^ 12 = 0 →
      ∃ t, exec i s = .next t ∧ t.MbxAnswered op r stBadField 0 0 ∧ t.mkept = s.mkept) ∧
    (r.target.toNat / 2 ^ 28 = kind → handleSlot r.target.toNat < kindSlots kind → r.target.toNat % 2 ^ 12 ≠ 0 →
      s.ownerOf kind (handleSlot r.target.toNat) = none ∨ s.gen kind (handleSlot r.target.toNat) ≠ r.target.toNat % 2 ^ 12 →
      r.Zero [zeros] → (kind = 1 → r.Buffer 16 24 128) →
      ∃ t, exec i s = .next t ∧ t.MbxAnswered op r stStale 0 0 ∧ t.mkept = s.mkept)

/-- Commands that a frozen tenant does not accept complete with FROZEN (R60, R66): one of each kind of object a tenant owns.
-/
def Obligations.FrozenTenantsRefuse : Prop :=
  ∀ (s : State) (r : MbxReq) (i : Instr) (op : BitVec 16) (kind slot k : Nat) (t : Tenant),
    (i, op, kind) ∈ [(.tenantReset r, 0x0109#16, 1), (.qpairRevoke r, 0x0202#16, 2), (.placementQuery r, 0x0306#16, 3),
      (.keyDestroy r, 0x0404#16, 4), (.vectorBlockRevoke r, 0x0204#16, 5)] →
    s.Takes r → (kind = 4 → s.cipher = true) → s.Names kind r slot k t → t.frozen = true → r.Zero [(16, 48)] →
    ∃ u, exec i s = .next u ∧ u.MbxAnswered op r stFrozen 0 0 ∧ u.mkept = s.mkept

/-- R48: when a doorbell write is rejected and what rejecting it does; and that a doorbell of a free slot is taken as the
slot's command. A port without the manager role rejects every doorbell as well (R39). -/
def Obligations.RejectedDoorbells : Prop :=
  ∀ (s : State) (p : Port) (env : MbxEnv) (v : Nat), s.portThere p = true → s.therm.latch = false → v < 2 ^ 32 →
    (s.mbxPort p).slots.wf = true →
    ((64 ≤ v ∨ (s.mbxPort p).slotBusy v = true ∨ s.mbxReady p = false ∨ s.eng.dead = true ∨ s.mbx.manager ≠ p) →
      exec (.registerWrite (.bar2 p env) 0x2000 32 (BitVec.ofNat 64 v)) s =
        .next ((s.setMbxPort p { s.mbxPort p with dbErr := true }).selvedge
          { source := 1, code := 0x0D, fn := fnField ⟨p, 0⟩, detail := v }).after) ∧
    (v < 64 → (s.mbxPort p).slotBusy v = false →
      exec (.registerWrite (.bar2 p env) 0x2000 32 (BitVec.ofNat 64 v)) s =
        .next (s.mbxSubmit (s.slotReq p v env).1 (mbxHandler (s.slotReq p v env).1.toNat) (s.slotReq p v env).2).after)

/-- R51: what a write of MBX_CQ_HEAD does. -/
def Obligations.HeadWrites : Prop :=
  ∀ (s : State) (p : Port) (v : BitVec 32) (x : MbxPort) (adv : Nat), s.portThere p = true → s.mbx.manager = p → x = s.mbxPort p →
    adv = (v.toNat % 64 + 64 - x.head.toNat) % 64 →
    (adv ≤ x.posted → exec (.mbxCqHeadWrite p v) s = .next (((s.setMbxPort p { x with
        head := BitVec.ofNat 6 v.toNat
        posted := x.posted - adv }).mbxDrain x.waiting.length p).policySettle)) ∧
    (x.posted < adv → exec (.mbxCqHeadWrite p v) s = .next ((s.setMbxPort p { x with dbErr := true }).selvedge
        { source := 1, code := 0x0D, fn := fnField ⟨p, 0⟩, detail := v.toNat })) ∧
    (v.toNat % 64 = x.head.toNat → x.waiting = [] → s.pow.policyDue = false → exec (.mbxCqHeadWrite p v) s = .next s)

/-- R62: opcodes outside the command index, and the cipher's commands on N variants. -/
def Obligations.UndefinedOpcodes : Prop :=
  (∀ (s : State) (r : MbxReq) (op : BitVec 16), s.Takes r →
    (∀ q ∈ [(1, 9), (2, 6), (3, 7), (4, 6), (5, 5), (6, 7), (7, 6), (8, 6), (9, 4), (10, 6)],
      op.toNat / 256 = q.1 → op.toNat % 256 = 0 ∨ q.2 < op.toNat % 256) →
    ∃ t, exec (.undefinedMailboxOpcode op r) s = .next t ∧ t.MbxAnswered op r stBadOpcode 0 0 ∧ t.mkept = s.mkept) ∧
  (∀ (s : State) (i : Instr) (op : BitVec 16) (r : MbxReq), s.Takes r → s.cipher = false → i.mailbox = some (op, r) →
    op.toNat / 256 = 4 →
    ∃ t, exec i s = .next t ∧ t.MbxAnswered op r stBadOpcode 0 0 ∧ t.mkept = s.mkept)

/-- The windows of the function that does not hold the manager role (R39). -/
def Obligations.OtherFunctionWindows : Prop :=
  ∀ (s : State) (p : Port), s.portThere p = true → s.mbx.manager ≠ p →
    s.mbxStatus p / 2 % 2 = 0 ∧ s.mbxStatus p / 4 % 4 = 3 ∧
    (∀ off, 0x20000 ≤ off → off < 0x50000 → s.readBar2 p off = 0#8 ∧
      ∀ env width v, 8 ≤ width → exec (.registerWrite (.bar2 p env) off width v) s = .next s.after) ∧
    (∀ off, 0x10000 ≤ off → off < 0x11000 → s.readBar2 p off = s.statusPage.getD (off - 0x10000) 0#8)

/-- What writes of BAR2 do (R41). -/
def Obligations.SlotAndAreaWrites : Prop :=
  ∀ (s : State) (p : Port) (env : MbxEnv) (off width len : Nat) (v : BitVec 64), s.portThere p = true → s.therm.latch = false →
    len = width / 8 → 0 < len → len ≤ 8 →
    (off < 0x1000 → off % 64 + len ≤ 64 → (s.mbxPort p).slotBusy (off / 64) = true →
      exec (.registerWrite (.bar2 p env) off width v) s =
        .next (s.selvedge { source := 1, code := 0x0D, fn := fnField ⟨p, 0⟩, detail := off / 64 }).after) ∧
    (off < 0x1000 → off % 64 + len ≤ 64 → (s.mbxPort p).slotBusy (off / 64) = false →
      exec (.registerWrite (.bar2 p env) off width v) s =
        .next (s.setMbxPort p { s.mbxPort p with
          slots := (s.mbxPort p).slots.writeBytes off (bytesLE len (v.toNat % 2 ^ (8 * len))) }).after) ∧
    (0x1000 ≤ off ∧ off < 0x1800 ∨ 0x10000 ≤ off ∧ off < 0x11000 →
      exec (.registerWrite (.bar2 p env) off width v) s = .next s.after) ∧
    (0x2000 ≤ off ∧ off < 0x2018 → off % 4 ≠ 0 ∨ len ≠ 4 →
      exec (.registerWrite (.bar2 p env) off width v) s =
        .next (s.selvedge { source := 1, code := 0x0D, fn := fnField ⟨p, 0⟩, detail := off }).after)

/-- Posting a completion to the ring (R45, R46, R49, R50). -/
def Obligations.CompletionRing : Prop :=
  ∀ (s : State) (p : Port) (e : MbxCqe) (x : MbxPort), x = s.mbxPort p → x.waiting = [] → e.slot < 64 →
    (x.posted < 64 → s.mbx.movePending = none →
      ((s.mbxPost p e).mbxPort p).slotBusy e.slot = false ∧
        Tab.find ((s.mbxPost p e).mbxPort p).ring x.tail.toNat = some { e with phase := x.phase, replayed := decide (e.pair ≠ s.eng.setM) } ∧
        ((s.mbxPost p e).mbxPort p).tail = x.tail + 1#6 ∧
        ((s.mbxPost p e).mbxPort p).phase = (if x.tail = 63#6 then !x.phase else x.phase) ∧
        ((s.mbxPost p e).mbxPort p).posted = x.posted + 1 ∧ ((s.mbxPost p e).mbxPort p).waiting = []) ∧
    (64 ≤ x.posted →
      s.mbxPost p e = s.setMbxPort p { x with waiting := [e] } ∧
        ((s.mbxPost p e).mbxPort p).slotBusy e.slot = x.slotBusy e.slot ∧ (s.mbxPost p e).mbxStatus p / 32 % 2 = 1)

/-- What completing an NVMe command writes and leaves (R241, R255). -/
def Obligations.CompletionIsWritten : Prop :=
  (∀ (s : State) (c : NvmeCmd) (dw0 dw1 : BitVec 32), s.Posts c →
    (s.okCmd c dw0 dw1).Completed c 0 dw0 ∧ (s.okCmd c dw0 dw1).kept = s.kept) ∧
  (∀ (s : State) (c : NvmeCmd) (status lba : Nat), s.Posts c →
    (s.failCmd c.fn c status lba).Completed c status 0#32 ∧ (s.failCmd c.fn c status lba).kept = s.kept) ∧
  (∀ (s : State) (f : FnId) (e : Cqe) (id : Nat) (q : Cq), s.supply.portsStopped = false → s.dbg.armed = false →
    (s.fn f).cq id = some q → (q.hasRoom = false ∨ q.waiting ≠ []) →
    (s.postCqe f id e).out = s.out ∧
      (((s.postCqe f id e).fn f).cq id).map Cq.waiting = some (q.waiting ++ [e]))

/-- Capturing a violation (R511). -/
def Obligations.CaptureQueue : Prop :=
  ∀ (s : State) (v : Viol),
    (s.selv.queue.length < 64 → s.selvedge v = { s with
      selv.queue := s.selv.queue ++ [⟨s.now, s.boot16, v.source, v.code, v.tenant, v.fn, v.loc, v.detail % 2 ^ 32, s.selv.seq + 1, v.answer, v.flags⟩]
      selv.seq := s.selv.seq + 1 }) ∧
    (64 ≤ s.selv.queue.length → s.selv.lost < 2 ^ 32 →
      s.selvedge v = { s with selv.lost := if s.selv.lost = 2 ^ 32 - 1 then 2 ^ 32 - 1 else s.selv.lost + 1 }) ∧
    (s.selv.queue.length ≤ 64 → (s.selvedge v).selv.queue.length ≤ 64)

/-- When a Fray rule fires and what it leaves (R519). The shift register's value is the model's free value (log 11). -/
def Obligations.FrayTriggers : Prop :=
  ∀ (s : State) (i : Nat) (r q : FrayRule) (n limit : Nat), n = fieldLE r.raw 4 4 → limit = fieldLE r.raw 8 4 →
    q = { r with
      events := r.events + 1
      lfsr := BitVec.ofNat 64 (Config.freeNat s.fresh) } →
    (limit ≠ 0 → limit ≤ r.fired → (s.frayRule i r).1 = none) ∧
    (limit = 0 ∨ r.fired < limit →
      (fieldLE r.raw 3 1 = 1 → ((s.frayRule i r).1.isSome ↔ n ∣ r.events + 1)) ∧
      (fieldLE r.raw 3 1 = 2 → ((s.frayRule i r).1.isSome ↔ r.events + 1 = n)) ∧
      (fieldLE r.raw 3 1 = 3 → ((s.frayRule i r).1.isSome ↔ 2 ^ n ∣ q.lfsr.toNat))) ∧
    ((s.frayRule i r).1 = none → (s.frayRule i r).2 = { s with
      fresh := s.fresh + 1
      dbg.rules := s.dbg.rules.set i q }) ∧
    ((s.frayRule i r).1.isSome → (s.frayRule i r).1 = some (fieldLE r.raw 2 1) ∧
      (s.frayRule i r).2 = { s with
        fresh := s.fresh + 1
        dbg.rules := s.dbg.rules.set i { q with fired := r.fired + 1 }
        out := if s.dbg.trigOut ∧ fieldLE r.raw 13 1 % 2 = 1 then .pin 6 0 :: s.out else s.out })

/-- Discarding on-die readings and failing a sensor (R475, R476). -/
def Obligations.DieSensorReadings : Prop :=
  (∀ (s u : State) (i t : Nat) (v : Int) (broken : Bool) (x : Sensor), u = (s.atTime t).accrueHeat → x = u.sensor i → x.converting = true →
    (v < -160 ∨ 1120 < v) →
    (x.discards < 2 → exec (.sensorConversionDone false i v broken t) s = .next { u with
      therm.sensors := Tab.set u.therm.sensors i { x with
        converting := false
        hot := false
        discards := x.discards + 1
        discarded := x.discarded + 1
        failed := false } }) ∧
    (2 ≤ x.discards → exec (.sensorConversionDone false i v broken t) s = .next ((({ u with
      therm.sensors := Tab.set u.therm.sensors i { x with
        converting := false
        hot := false
        discards := x.discards + 1
        discarded := x.discarded + 1
        failed := true } } : State).selvedge { source := 4, code := 0x45, detail := i, answer := 3 }).dieConditions.watchFeature))) ∧
  (∀ (s : State) (i t : Nat), (s.sensor i).failed = true →
    exec (.sensorConversionStart false i t) s = .next s ∧ ∀ v, (i, v) ∉ s.dieReadings) ∧
  (∀ s : State, ((List.range 24).filter (fun i => !(s.sensor i).failed)).length < 20 → 1 ≤ s.dieTarget)

/-- How the sectors of a bolt lie on its dies (R69, R74, R75). -/
def Obligations.SectorPlaces : Prop :=
  ∀ b u : Nat, 0 < u → u % 8 = 0 →
    (∀ o, (placeOf b u o).row = o / u / 30 ∧ (placeOf b u o).sector = o % u ∧ (placeOf b u o).column < 32 ∧ (placeOf b u o).plane < 2 ∧
      (placeOf b u o).page < u / 8 ∧ (placeOf b u o).cw < 4 ∧
      (placeOf b u o).column / 16 = o / u % 2 ∧ (placeOf b u o).column % 16 ≠ parityCol b) ∧
    (∀ o o', placeOf b u o = placeOf b u o' → o = o') ∧
    (∀ r h c x, h < 2 → c < 16 → c ≠ parityCol b → x < u →
      ∃ o, o / (30 * u) = r ∧ (placeOf b u o).column = 16 * h + c ∧ (placeOf b u o).row = r ∧ (placeOf b u o).sector = x)

/-- The IV of a sealed sector (R313). -/
def Obligations.SealedSectorIv : Prop :=
  (∀ x : Sealed, x.nsid = 1 ∨ x.nsid = 2 → x.iv.length = 12 ∧
    (x.iv.getD 0 0#8).toNat = x.keySlot % 2 + 2 * x.nsid ∧ numLE ((x.iv.drop 1).take 5) = x.lba % 2 ^ 40 ∧
    (x.nsid = 1 → numLE ((x.iv.drop 6).take 4) = x.gen % 2 ^ 32 ∧ (x.iv.drop 10) = [0#8, 0#8]) ∧
    (x.nsid = 2 → numLE (x.iv.drop 6) = x.gen % 2 ^ 48)) ∧
  (∀ x y : Sealed, x.nsid = 1 ∨ x.nsid = 2 → y.nsid = 1 ∨ y.nsid = 2 → x.lba < 2 ^ 40 → y.lba < 2 ^ 40 →
    x.gen < 2 ^ 32 ∨ x.nsid = 2 ∧ x.gen < 2 ^ 48 → y.gen < 2 ^ 32 ∨ y.nsid = 2 ∧ y.gen < 2 ^ 48 → x.iv = y.iv →
    x.nsid = y.nsid ∧ x.keySlot % 2 = y.keySlot % 2 ∧ x.lba = y.lba ∧ x.gen = y.gen)

/-- When the commands on tenants, queue pairs, vector blocks and placement handles complete, with what result, and what they
change (R90, R101, R102, R264, R266, R269, R271, R280, R281, R293, R298, R299, R302, R303, R305). -/
def Obligations.TenantRecordCommands : Prop :=
  (∀ (s : State) (r : MbxReq) (slot block vf : Nat), s.Takes r → r.target = 0#32 → s.MayStore r →
    r.p 16 1 ≤ 1 → (s.host.joined = true → r.p 16 1 = 0) → 1 ≤ r.p 18 2 → r.p 18 2 ≤ 1023 ∨ r.p 18 2 = 0xFFFF →
    (∀ p ∈ s.host.tenants, p.2.fn ≠ some ⟨portOf (r.p 16 1), r.p 18 2⟩) →
    64 ≤ r.p 20 4 → 1 ≤ r.p 24 2 → r.p 24 2 ≤ 4096 → 1 ≤ r.p 26 2 → r.p 26 2 ≤ 2048 → 1 ≤ r.p 28 1 → r.Zero [(17, 1), (29, 35)] →
    s.sumOthers 1024 (·.swatchQuota) + r.p 20 4 ≤ s.hostClass → s.sumOthers 1024 (·.activeZones) + r.p 24 2 ≤ 4096 →
    s.sumOthers 1024 Tenant.vectors + r.p 26 2 ≤ 16384 →
    s.freeSlot 1 = some slot → s.freeSlot 5 = some block → s.pickVf (portOf (r.p 16 1)) (r.p 18 2) = some vf →
    s.Does (.tenantCreate r) 0x0101#16 r (s.handleOf 1 slot)
      (fld 20 1 (r.p 16 1) + fld 22 2 vf + fld 24 4 (s.handleOf 5 block) + fld 28 2 slot)
      (s.setTenant slot (s.newTenant ⟨portOf (r.p 16 1), vf⟩ (r.p 20 4) (r.p 24 2) (r.p 26 2) (r.p 28 1) block))) ∧
  (∀ (s : State) (r : MbxReq) (k : Nat) (t : Tenant), s.Takes r → s.Names 1 r k k t → t.frozen = false → s.MayStore r →
    r.p 16 1 = 1 ∧ 64 ≤ r.p 20 4 ∧ r.p 20 4 ≤ 16384 ∨ r.p 16 1 = 0 ∧ r.p 20 4 = 0 → r.Zero [(17, 3), (24, 40)] →
    s.Does (.tenantSetAtomic r) 0x0106#16 r r.target.toNat 0 (s.setTenant k { t with stagingLimit := r.p 20 4 })) ∧
  (∀ (s : State) (r : MbxReq) (k : Nat) (t : Tenant), s.Takes r → s.Names 1 r k k t → t.frozen = false → s.MayStore r →
    k ≠ s.managerBase → t.quarantined = true → r.Zero [(16, 48)] →
    s.Does (.tenantQuarantine r) 0x0107#16 r r.target.toNat 0 s) ∧
  (∀ (s : State) (r : MbxReq) (k : Nat) (t : Tenant), s.Takes r → s.Names 1 r k k t → t.frozen = false → s.MayStore r →
    k ≠ s.managerBase → t.quarantined = false → r.Zero [(16, 48)] →
    s.DoesApart (.tenantQuarantine r) 0x0107#16 r r.target.toNat 0 (s.setTenant k { t with quarantined := true })) ∧
  (∀ (s : State) (r : MbxReq) (slot k : Nat) (t : Tenant), s.Takes r → s.Names 5 r slot k t → t.frozen = false → s.MayStore r →
    r.p 17 1 < 2 → r.p 18 2 ≤ 1000 → r.Zero [(20, 44)] →
    s.Does (.setCoalescing r) 0x0206#16 r r.target.toNat 0
      (s.setTenant k { t with blocks := t.blocks.map (fun b => if handleSlot b.handle = slot then
        { b with timeCap := r.p 16 1, forceCd := r.bit 17 0, minGapUs := r.p 18 2 } else b) })) ∧
  (∀ (s : State) (r : MbxReq) (k block base : Nat) (t : Tenant), s.Takes r → s.Names 1 r k k t → t.frozen = false → s.MayStore r →
    1 ≤ r.p 16 2 → r.p 16 2 ≤ 2048 → r.p 18 2 ≤ 2047 ∧ base = r.p 18 2 ∧ base + r.p 16 2 ≤ 2048 ∧ t.overlaps base (r.p 16 2) = false ∨
      r.p 18 2 = 0xFFFF ∧ t.freeRun (r.p 16 2) = some base →
    t.vectors + r.p 16 2 ≤ 2048 → s.sumOthers 1024 Tenant.vectors + r.p 16 2 ≤ 16384 → s.freeSlot 5 = some block →
    r.Zero [(20, 44)] →
    s.Does (.vectorBlockGrant r) 0x0203#16 r (s.handleOf 5 block) (fld 20 2 base + fld 22 2 (r.p 16 2))
      (s.setTenant k { t with blocks := t.blocks ++ [⟨s.handleOf 5 block, base, r.p 16 2, 255, false, 0⟩] })) ∧
  (∀ (s : State) (r : MbxReq) (slot k : Nat) (t : Tenant) (b : VecBlock), s.Takes r → s.Names 5 r slot k t → t.frozen = false →
    s.MayStore r → b = t.blockIn slot → s.blockUsed t b = false → b.base ≠ 0 → r.Zero [(16, 48)] →
    s.Does (.vectorBlockRevoke r) 0x0204#16 r r.target.toNat 0
      ((s.setTenant k { t with blocks := t.blocks.filter (fun x => decide (x.handle ≠ b.handle)) }).bumpGen 5 slot)) ∧
  (∀ (s : State) (r : MbxReq) (slot k : Nat) (t : Tenant), s.Takes r → s.Names 2 r slot k t → t.frozen = false → s.MayStore r →
    (∀ q ∈ t.qpairs, q.revoked = true ∨ q.qid ≤ (t.qpairIn slot).qid) → r.Zero [(16, 48)] →
    s.Does (.qpairRevoke r) 0x0202#16 r r.target.toNat
      (fld 20 2 (t.qpairIn slot).qid + fld 22 1 (if s.tenantEn t then 1 else 0))
      ((s.setTenant k { t with
        qpairs := (if s.tenantEn t then t.qpairs.map (fun x => if x.slot = slot then { x with revoked := true } else x)
          else t.qpairs.filter (fun x => decide (x.slot ≠ slot))) }).bumpGen 2 slot)) ∧
  (∀ (s : State) (r : MbxReq) (k : Nat) (t : Tenant), s.Takes r → s.Names 1 r k k t → t.frozen = false → s.MayStore r →
    1 ≤ r.p 16 1 → r.p 16 1 ≤ 63 → r.p 20 4 ≠ 0 → (∀ g ∈ bitsOf (r.p 20 4) 32, g < s.groups ∧ g ∈ t.groups) →
    (∀ p ∈ t.placements, p.index ≠ r.p 16 1) → r.Zero [(17, 3), (24, 40)] →
    s.Does (.placementCreate r) 0x0304#16 r (s.handleOf 3 (k * 64 + r.p 16 1)) (fld 20 4 (r.p 20 4))
      (s.setTenant k { t with placements := t.placements ++ [⟨r.p 16 1, bitsOf (r.p 20 4) 32, 0⟩] })) ∧
  (∀ (s : State) (r : MbxReq) (slot k : Nat) (t : Tenant), s.Takes r → s.Names 3 r slot k t → t.frozen = false → s.MayStore r →
    slot % 64 ≠ 0 → r.Zero [(16, 48)] →
    s.Does (.placementDestroy r) 0x0305#16 r r.target.toNat (fld 20 4 (s.zonesUnder slot t))
      ((({ s with bolts.rr := Tab.del s.bolts.rr slot } : State).setTenant k
        { t with placements := t.placements.filter (fun p => decide (p.index ≠ slot % 64)) }).bumpGen 3 slot))

/-- When these commands complete, with what result, and what they change (R88, R99, R104, R272, R276, R277, R282, R294, R297,
R299, R301). -/
def Obligations.TenantLifeCommands : Prop :=
  (∀ (s : State) (r : MbxReq) (k : Nat) (t : Tenant), s.Takes r → s.Names 1 r k k t → t.frozen = false → s.MayStore r → s.Rests →
    (r.p 16 4 = 0 ∨ r.p 24 4 ≤ r.p 16 4) → (r.p 20 4 = 0 ∨ r.p 28 4 ≤ r.p 20 4) → 1 ≤ r.p 32 2 → r.p 32 2 ≤ 1000 → r.p 34 1 ≠ 0 →
    1 ≤ r.p 36 2 → r.p 36 2 ≤ 4096 → 64 ≤ r.p 40 4 → s.qosShort k (qosOf r) (r.p 36 2) (r.p 40 4) = false →
    (t.zones.filter (fun z => z.2.st.active)).length ≤ r.p 36 2 → r.Zero [(35, 1), (38, 2), (44, 20)] →
    s.Does (.tenantSetQos r) 0x0105#16 r r.target.toNat 0
      (s.setTenant k { t.withContract (qosOf r) s.now with activeZones := r.p 36 2, swatchQuota := r.p 40 4 })) ∧
  (∀ (s : State) (r : MbxReq) (k : Nat) (t : Tenant) (f : FnId), s.Takes r → s.Names 1 r k k t → t.frozen = false → s.MayStore r →
    t.quarantined = true → t.fn = some f → r.p 16 1 = 0 → r.Zero [(17, 47)] →
    s.DoesApart (.tenantRelease r) 0x0108#16 r r.target.toNat 0 (s.setTenant k { t with quarantined := false, violations := 0 })) ∧
  (∀ (s : State) (r : MbxReq) (k : Nat) (t : Tenant) (f : FnId), s.Takes r → s.Names 1 r k k t → t.frozen = false → s.MayStore r →
    t.quarantined = true → t.fn = some f → r.p 16 1 = 1 → r.Zero [(17, 47)] →
    s.Ends (.tenantRelease r) 0x0108#16 r r.target.toNat 0
      (((((s.begun 0x0108#16 r).resetFn f false).updTenant k (fun x => { x with quarantined := false, violations := 0 }))).unhold k f)) ∧
  (∀ (s : State) (r : MbxReq) (k : Nat) (t : Tenant) (f : FnId), s.Takes r → s.Names 1 r k k t → t.frozen = false →
    t.fn = some f → ccEn (s.fn f).cc = true → r.Zero [(16, 48)] →
    s.Ends (.tenantReset r) 0x0109#16 r r.target.toNat 0 ((s.begun 0x0109#16 r).resetFn f false)) ∧
  (∀ (s : State) (r : MbxReq) (k : Nat) (t : Tenant) (f : FnId), s.Takes r → s.Names 1 r k k t → t.frozen = false →
    t.fn = some f → ccEn (s.fn f).cc = false → r.Zero [(16, 48)] →
    s.Does (.tenantReset r) 0x0109#16 r r.target.toNat 0 s) ∧
  (∀ (s : State) (r : MbxReq) (k : Nat) (t : Tenant), s.Takes r → s.Names 1 r k k t → s.MayStore r → 1 < k →
    r.Zero [(16, 48)] →
    s.Ends (.tenantDestroy r) 0x0102#16 r r.target.toNat (fld 20 4 (s.boltsOf k).length) ((s.begun 0x0102#16 r).destroyTenant k)) ∧
  (∀ (s : State) (r : MbxReq) (k : Nat) (t : Tenant) (qs : List Nat), s.Takes r → s.Names 1 r k k t → t.frozen = false →
    s.MayStore r → s.bme = true → r.Buffer 16 24 (4 * r.p 28 2) → 1 ≤ r.p 28 2 → r.p 28 2 ≤ 64 → (∀ q ∈ t.qpairs, q.revoked = false) →
    t.qpairs.length + r.p 28 2 ≤ 1024 → s.sumOthers 1024 (·.qpairs.length) + r.p 28 2 ≤ 8192 →
    qs = freeSlots (s.host.tenants.flatMap (fun p => p.2.qpairs.map (·.slot))) (r.p 28 2) → qs ≠ [] → r.Zero [(30, 34)] →
    s.DoesTelling (.qpairGrant r) 0x0201#16 r (s.handleOf 2 (qs.headD 0))
      (fld 20 2 (t.qpairs.length + 1) + fld 22 2 (r.p 28 2) + fld 24 2 (t.qpairs.length + r.p 28 2)) 16 24
      (qs.flatMap (fun q => bytesLE 4 (s.handleOf 2 q)))
      (s.setTenant k { t with
        qpairs := t.qpairs ++ qs.zipIdx.map (fun p => ⟨p.1, t.qpairs.length + 1 + p.2, !s.tenantEn t, false⟩) })) ∧
  (∀ (s : State) (r : MbxReq) (k : Nat) (t : Tenant) (f : FnId) (gs : List Nat) (ex : Bool), s.Takes r → s.Names 1 r k k t →
    t.frozen = false → s.MayStore r → s.Rests → t.fn = some f → (s.fn f).aec.getLsbD 8 = false →
    gs = bitsOf (r.p 16 4) 32 → (∀ g ∈ gs, g ∈ s.presentGroups) → r.p 16 4 ≠ 0 → r.p 20 1 ≤ 1 → ex = decide (r.p 20 1 = 0) →
    (ex = t.exclusive ∨ s.boltsOf k = []) → (∀ g ∈ t.groups, g ∈ gs ∨ s.holdsIn k g = false) →
    (∀ p ∈ t.placements, p.index = 0 ∨ ∀ g ∈ p.mask, g ∈ gs) → s.setClash k gs ex = false → t.quota ≤ r.p 24 4 →
    s.fits k { t with groups := gs, exclusive := ex, quota := r.p 24 4 } = true → r.Zero [(21, 3), (28, 36)] →
    s.Does (.diegroupAssign r) 0x0302#16 r (s.handleOf 1 k) (fld 20 4 (maskOf gs) + fld 24 4 (s.boltsHeld k))
      (s.setTenant k { t with
        groups := gs
        exclusive := ex
        quota := r.p 24 4
        nsChanged := if r.p 24 4 = t.quota then t.nsChanged else addOnce t.nsChanged 1 })) ∧
  (∀ (s : State) (r : MbxReq) (k : Nat) (t : Tenant), s.Takes r → s.Names 1 r k k t → t.frozen = false → s.MayStore r →
    (r.p 16 4 = 0 ∨ t.groups ≠ []) →
    (r.p 16 4 ≤ t.conv ∨ s.sumOthers k (·.conv) + r.p 16 4 ≤ s.convLimit ∧ s.fits k { t with conv := r.p 16 4 } = true) →
    s.convBusy k (r.p 16 4) = false → r.Zero [(20, 44)] →
    ∀ u, u = ((s.begun 0x0307#16 r).setTenant k { t with convCmd := none }).setConv k (r.p 16 4) →
    s.Ends (.convRegionSet r) 0x0307#16 r (u.handleOf 1 k) (fld 20 4 (r.p 16 4) + fld 24 8 (r.p 16 4 * u.dp.zoneCap)) u)

/-- What the commands that answer through a buffer write, and that they change nothing. -/
def Obligations.QueryCommandsAnswer : Prop :=
  (∀ (s : State) (r : MbxReq) (k : Nat) (t : Tenant), s.Takes r → s.bme = true → s.Names 1 r k k t → r.Buffer 16 24 128 → r.Zero [(28, 36)] →
    s.Tells (.tenantQuery r) 0x0103#16 r r.target.toNat 0 16 24 (s.tenantArea k t)) ∧
  (∀ (s : State) (r : MbxReq), s.Takes r → s.bme = true → r.target = 0#32 → r.Buffer 16 24 8 → r.Zero [(28, 36)] →
    s.Tells (.tenantList r) 0x0104#16 r 0
      (fld 20 4 s.host.tenants.length + fld 24 4 (s.host.tenants.take (r.p 24 4 / 8)).length) 16 24
      ((s.host.tenants.take (r.p 24 4 / 8)).flatMap (fun p => s.listEntry p.1 p.2))) ∧
  (∀ (s : State) (r : MbxReq), s.Takes r → s.bme = true → r.target = 0#32 → r.Buffer 16 24 128 → r.Zero [(28, 36)] →
    s.Tells (.geometryQuery r) 0x0301#16 r 0 (fld 20 4 128) 16 24 s.geometryArea) ∧
  (∀ (s : State) (r : MbxReq), s.Takes r → s.bme = true → r.target = 0#32 → r.Buffer 16 24 (32 * s.groups) → r.Zero [(28, 36)] →
    s.Tells (.diegroupQuery r) 0x0303#16 r 0 (fld 20 1 s.groups) 16 24 ((List.range s.groups).flatMap s.groupEntry)) ∧
  (∀ (s : State) (r : MbxReq), s.Takes r → s.bme = true → s.cipher = true → r.target = 0#32 → r.p 16 4 = 0 →
    r.Buffer 24 32 128 → r.Zero [(20, 4), (36, 28)] →
    s.Tells (.wrapKeyInfo r) 0x0406#16 r 0 0 24 32 s.wrapArea) ∧
  (∀ (s : State) (r : MbxReq) (slot k : Nat) (t : Tenant), s.Takes r → s.bme = true → s.Names 6 r slot k t →
    r.Buffer 16 24 (s.snapIn slot).blobLen → r.Zero [(28, 36)] →
    s.Tells (.snapshotRead r) 0x0502#16 r r.target.toNat (fld 20 4 (s.snapIn slot).blobLen) 16 24 (s.snapIn slot).blob) ∧
  (∀ (s : State) (r : MbxReq), s.Takes r → s.bme = true → r.target = 0#32 → r.Buffer 16 24 256 → r.Zero [(28, 36)] →
    s.Tells (.domainQuery r) 0x0602#16 r 0 0 16 24 s.domainArea) ∧
  (∀ (s : State) (r : MbxReq), s.Takes r → s.bme = true → r.target = 0#32 → r.Buffer 16 24 256 → r.Zero [(28, 36)] →
    s.Tells (.holdupQuery r) 0x0605#16 r 0 0 16 24 s.supplyArea) ∧
  (∀ (s : State) (r : MbxReq), s.Takes r → s.bme = true → r.target = 0#32 → r.Buffer 16 24 256 → r.Zero [(28, 36)] →
    s.Tells (.bootQuery r) 0x0805#16 r 0 (fld 20 1 s.hem.running + fld 21 1 s.hem.actStep) 16 24 s.bootArea) ∧
  (∀ (s : State) (r : MbxReq), s.Takes r → s.bme = true → r.target = 0#32 → r.p 16 1 = 0 → r.p 18 2 = 0 → r.p 20 4 = 0 → r.Buffer 24 32 32 →
    r.p 32 4 % 32 = 0 → r.Zero [(17, 1), (36, 28)] → s.selv.ring.length ≤ r.p 32 4 / 32 →
    s.Tells (.selvedgeRead r) 0x0A04#16 r 0 (fld 20 4 s.selv.ring.length + fld 28 4 s.selv.lost) 24 32
      (s.selv.ring.map SelvEntry.bytes).flatten) ∧
  (∀ (s : State) (r : MbxReq) (k : Nat) (t : Tenant), s.Takes r → s.bme = true → s.Names 1 r k k t → r.Buffer 16 24 128 → r.p 28 4 ≤ t.epochRange.2 →
    r.Zero [(32, 32)] → t.closedEpochs = [] →
    s.Tells (.yardageRead r) 0x0705#16 r r.target.toNat 0 16 24 (s.openRecord t ++ s.yardageHeader t))

/-- What the commands that answer in RESULT answer, and that they change nothing but, for PB_QUERY, the view shown. -/
def Obligations.StatusCommandsAnswer : Prop :=
  (∀ (s : State) (r : MbxReq) (slot k : Nat) (t : Tenant) (f : FnId) (q : Sq) (c : Cq), s.Takes r → s.Names 2 r slot k t → r.Zero [(16, 48)] →
    t.frozen = false → t.fn = some f → (s.fn f).sq (t.qpairIn slot).qid = some q →
    (s.fn f).cq (t.qpairIn slot).qid = some c → (t.qpairIn slot).revoked = false →
    s.Does (.queueQuery r) 0x0205#16 r r.target.toNat
      (fld 20 2 (t.qpairIn slot).qid + fld 22 1 (sqStateNo q.st) + fld 23 1 (flagByte [true, c.ien, !c.waiting.isEmpty]) +
        fld 24 2 q.tail + fld 26 2 (s.sqHead f (t.qpairIn slot).qid) + fld 28 2 c.head + fld 30 2 c.tail) s) ∧
  (∀ (s : State) (r : MbxReq) (slot k : Nat) (t : Tenant) (p : Placement), s.Takes r → s.Names 3 r slot k t → r.Zero [(16, 48)] →
    t.frozen = false → t.placement (slot % 64) = some p →
    s.Does (.placementQuery r) 0x0306#16 r r.target.toNat
      (fld 20 4 (maskOf (if slot % 64 = 0 then t.groups else p.mask)) + fld 24 4 (s.zonesUnder slot t) + fld 28 4 p.fallback) s) ∧
  (∀ (s : State) (r : MbxReq) (slot k : Nat) (t : Tenant), s.Takes r → s.cipher = true →
    s.Names 4 r slot k t → r.Zero [(16, 48)] →
    s.Does (.keyQuery r) 0x0405#16 r r.target.toNat
      (fld 20 1 (keyStNo (t.key (slot % 2)).st) + fld 21 1 (keyStNo (t.key (1 - slot % 2)).st) +
        fld 24 4 (s.zonesOfKey k (slot % 2)) + fld 28 4 (min (t.key (slot % 2)).conv 0xFFFFFFFF)) s) ∧
  (∀ (s : State) (r : MbxReq), s.Takes r → r.target = 0#32 → r.p 16 1 ≤ 1 → r.Zero [(17, 47)] →
    s.Does (.pbQuery r) 0x0703#16 r 0
      (fld 20 1 (r.p 16 1) + fld 21 1 s.pbFrozen.toNat + fld 24 8 (Tab.get 0 s.pb.counters 10)) { s with pb.view := r.p 16 1 }) ∧
  (∀ (s : State) (r : MbxReq) (k : Nat) (t : Tenant), s.Takes r → s.Names 1 r k k t → r.p 16 1 = 0 → r.Zero [(17, 47)] →
    s.Does (.pbQuery r) 0x0703#16 r r.target.toNat
      (fld 20 1 2 + fld 21 1 s.pbFrozen.toNat + fld 24 8 (Tab.get 0 t.pb 1030))
      { s with pb.view := 2, pb.viewTenant := r.target.toNat }) ∧
  (∀ (s : State) (r : MbxReq), s.Takes r → r.target = 0#32 → r.Zero [(16, 48)] →
    s.Does (.sanitiseStatus r) 0x0902#16 r 0
      (fld 20 2 s.sprog + fld 22 1 s.san.s.sstat + fld 23 1 (s.san.s.action / 2) + fld 24 4 s.san.s.done + fld 28 4 s.san.s.total) s) ∧
  (∀ (s : State) (r : MbxReq) (k : Nat) (t : Tenant), s.Takes r → s.Names 1 r k k t → r.Zero [(16, 48)] →
    s.Does (.formatStatus r) 0x0904#16 r r.target.toNat
      (fld 20 1 t.formatting + fld 21 1 t.formatSes + fld 22 1 t.formatNs + fld 24 4 t.formatBolts.length + fld 28 4 t.formatTotal) s)

/-- What the commands on keys do (R58, R321-R327, R333, R342-R345). Cryptography is symbolic (log 7). -/
def Obligations.KeyCommandsAct : Prop :=
  (∀ (s : State) (r : MbxReq) (slot k : Nat) (t : Tenant) (key : BitVec 256), s.Takes r → s.cipher = true → s.Names 4 r slot k t →
    t.frozen = false → s.MayStore r → s.bme = true → (t.key (slot % 2)).st = .empty → t.writeSlot = none →
    r.p 16 8 % 64 = 0 → r.p 24 4 = 160 → r.env.bufOk = true → s.blobBad (r.input 160) slot = false → s.unwrapped r (r.input 160) = some key →
    r.Zero [(28, 36)] →
    s.Does (.keyLoad r) 0x0401#16 r r.target.toNat (fld 20 1 1)
      (s.setTenant k { t with
        keys := t.keys.set (slot % 2) ⟨.write, some key, some (key, s.hem.keyStoreKey), false, 0⟩
        c8 := bumpAt t.c8 2 1 })) ∧
  (∀ (s : State) (r : MbxReq) (slot k : Nat) (t : Tenant) (key : BitVec 256) (x : KeySlot), s.Takes r → s.cipher = true →
    s.Names 4 r slot k t → t.frozen = false → s.MayStore r → s.bme = true →
    (t.key (slot % 2)).st = .empty →
    x = (t.keys.set (slot % 2) ⟨.write, some key, some (key, s.hem.keyStoreKey), false, 0⟩).getD (1 - slot % 2) default →
    (t.key (1 - slot % 2)).st = .write → r.p 16 8 % 64 = 0 → r.p 24 4 = 160 → r.env.bufOk = true →
    s.blobBad (r.input 160) slot = false → s.unwrapped r (r.input 160) = some key → r.Zero [(28, 36)] →
    s.Does (.keyRekeyBegin r) 0x0402#16 r r.target.toNat (fld 20 1 1 + fld 24 4 (s.handleOf 4 (2 * k + (1 - slot % 2))))
      (s.setTenant k { t with
        keys := (t.keys.set (slot % 2) ⟨.write, some key, some (key, s.hem.keyStoreKey), false, 0⟩).set (1 - slot % 2)
          { x with st := .read }
        c8 := bumpAt t.c8 2 1 })) ∧
  (∀ (s : State) (r : MbxReq) (slot k : Nat) (t : Tenant), s.Takes r → s.cipher = true → s.Names 4 r slot k t → t.frozen = false →
    s.MayStore r → (t.key (slot % 2)).st = .read →
    r.bit 16 0 = true ∨ s.zonesOfKey k (slot % 2) = 0 ∧ (t.key (slot % 2)).conv = 0 → r.p 16 1 < 2 → r.Zero [(17, 47)] →
    s.Does (.keyRekeyEnd r) 0x0403#16 r ((s.bumpGen 4 slot).handleOf 4 slot)
      (fld 20 4 (s.zonesOfKey k (slot % 2)) + fld 24 4 (min (t.key (slot % 2)).conv 0xFFFFFFFF))
      ((s.bumpGen 4 slot).setTenant k { t with
        keys := t.keys.set (slot % 2) { t.key (slot % 2) with st := .empty, ram := none, record := none, stale := false, conv := 0 }
        c8 := bumpAt t.c8 2 1 })) ∧
  (∀ (s : State) (r : MbxReq) (slot k : Nat) (t : Tenant), s.Takes r → s.cipher = true → s.Names 4 r slot k t → t.frozen = false →
    s.MayStore r → (t.key (slot % 2)).st ≠ .empty → r.Zero [(16, 48)] →
    s.Does (.keyDestroy r) 0x0404#16 r ((s.bumpGen 4 slot).handleOf 4 slot)
      (fld 20 1 (keyStNo (t.key (slot % 2)).st) + fld 24 4 (s.zonesOfKey k (slot % 2)))
      ((s.bumpGen 4 slot).setTenant k { t with
        keys := t.keys.set (slot % 2) { t.key (slot % 2) with st := .empty, ram := none, record := none, stale := false, conv := 0 }
        c8 := bumpAt t.c8 2 1 }))

/-- When a freeze starts, captures and times out, and the next state of each (R284-R286, R306). -/
def Obligations.FreezeCommands : Prop :=
  (∀ (s : State) (r : MbxReq) (k j : Nat) (t : Tenant) (f : FnId), s.Takes r → s.Names 1 r k k t → t.frozen = false → s.MayStore r →
    1 < k → t.fn = some f → s.freeSlot 6 = some j → s.hem.actStep = 0 → (r.p 16 4 = 0 ∨ 10 ≤ r.p 16 4 ∧ r.p 16 4 ≤ 10000) →
    r.Zero [(20, 44)] →
    exec (.tenantFreeze r) s =
      .next (((s.begun 0x0501#16 r).freeze k f (s.queuedCmd 0x0501#16 r) (if r.p 16 4 = 0 then 100 else r.p 16 4)).after)) ∧
  (∀ (s u : State) (k j t : Nat) (x : Tenant) (f : FnId), u = s.atTime t → s.tenant k = some x → x.fn = some f → x.freezing = true →
    s.freeSlot 6 = some j → s.freezeDrained k f = true →
    exec (.freezeCapture k t) s = .next (u.capture k j f).after) ∧
  (∀ (s u : State) (k t : Nat) (x : Tenant) (f : FnId) (c : MbxCmd), u = s.atTime t → s.tenant k = some x → x.fn = some f →
    x.freezing = true → x.freezeUs + x.freezeLimitMs * 1000 ≤ max s.now t → s.freezeDrained k f = false → x.freezeCmd = some c →
    exec (.freezeTimeout k t) s = .next ((u.unfreeze k).mbxFinish c stTimeout 0xFFFF 0 0).after)

/-- Discarding, restoring and thawing (R287-R291, R307-R309): the next state of each under conditions on the state and the
operands. -/
def Obligations.SnapshotCommands : Prop :=
  (∀ (s : State) (r : MbxReq) (slot k : Nat) (t : Tenant) (x : Snap), s.Takes r → s.Names 6 r slot k t → t.frozen = false →
    s.snapOf k = some x → r.Zero [(16, 48)] →
    s.Does (.snapshotDiscard r) 0x0503#16 r r.target.toNat 0
      (({ s with host.snaps := s.host.snaps.map (fun y => if y.tenant = k then { y with held := false } else y) } : State).bumpGen 6
        x.slot)) ∧
  (∀ (s : State) (r : MbxReq) (p : Port) (slot k vf : Nat) (t : Tenant) (x : Snap), s.Takes r → r.target = 0#32 → r.env.hemOk = true →
    s.supply.ewLatched = false → r.p 16 1 = 0 → r.p 17 1 ≤ 1 → p = portOf (r.p 17 1) → 1 ≤ r.p 18 2 →
    (r.p 18 2 ≤ 1023 ∨ r.p 18 2 = 0xFFFF) → s.checkHandle 6 (r.p 20 4) = .valid slot k → r.p 24 8 = 0 → r.p 32 4 = 0 →
    (s.snapIn slot).tenant = k → (s.snapIn slot).seq = t.freezeSeq → s.tenant k = some t → t.frozen = true → t.freezing = false →
    s.pickVf p (r.p 18 2) = some vf → (s.fn ⟨p, vf⟩).bme = true → (t.vectors = 0 ∨ (s.fn ⟨p, vf⟩).msixEn = true) →
    (s.host.joined = true → r.p 17 1 ≠ 1) → (∀ q ∈ s.host.tenants, q.1 = k ∨ q.2.fn ≠ some ⟨p, vf⟩) →
    s.host.snaps.find? (fun y => decide (y.tenant = k ∧ y.seq = t.freezeSeq)) = some x → r.Zero [(36, 28)] →
    exec (.tenantRestore r) s = .next (((s.begun 0x0504#16 r).restore x ⟨p, vf⟩).mbxFinish (s.queuedCmd 0x0504#16 r) stOk 0xFFFF
      (s.handleOf 1 k) (fld 20 1 (r.p 17 1) + fld 22 2 vf))) ∧
  (∀ (s : State) (r : MbxReq) (p : Port) (k vf : Nat) (t : Tenant) (x : Snap) (b : List Byte), s.Takes r → r.target = 0#32 →
    r.env.hemOk = true → s.bme = true → s.supply.ewLatched = false → r.p 16 1 = 1 → r.p 17 1 ≤ 1 → p = portOf (r.p 17 1) →
    1 ≤ r.p 18 2 → (r.p 18 2 ≤ 1023 ∨ r.p 18 2 = 0xFFFF) → r.p 20 4 = 0 → r.Buffer 24 32 128 → b = r.input (r.p 32 4) →
    bufNum b 0 4 = 0x504E5354 → bufNum b 4 2 = 1 → bufNum b 8 4 = r.p 32 4 → s.checkHandle 1 (bufNum b 12 4) = .valid k k →
    bufNum b 16 4 = t.freezeSeq → bufNum b 40 8 = Config.digest 100 s.hem.bootCount % 2 ^ 64 → r.env.sigOk = true →
    s.tenant k = some t → t.frozen = true → t.freezing = false →
    s.pickVf p (r.p 18 2) = some vf → (s.fn ⟨p, vf⟩).bme = true → (t.vectors = 0 ∨ (s.fn ⟨p, vf⟩).msixEn = true) →
    (s.host.joined = true → r.p 17 1 ≠ 1) → (∀ q ∈ s.host.tenants, q.1 = k ∨ q.2.fn ≠ some ⟨p, vf⟩) →
    s.host.snaps.find? (fun y => decide (y.tenant = k ∧ y.seq = t.freezeSeq)) = some x → r.Zero [(36, 28)] →
    exec (.tenantRestore r) s = .next (((s.begun 0x0504#16 r).restore x ⟨p, vf⟩).mbxFinish (s.queuedCmd 0x0504#16 r) stOk 0xFFFF
      (s.handleOf 1 k) (fld 20 1 (r.p 17 1) + fld 22 2 vf))) ∧
  (∀ (s : State) (r : MbxReq) (k : Nat) (t : Tenant), s.Takes r → s.Names 1 r k k t → t.frozen = true → s.MayStore r →
    r.Zero [(16, 48)] →
    exec (.tenantThaw r) s = .next (((s.begun 0x0505#16 r).thaw k).mbxFinish (s.queuedCmd 0x0505#16 r) stOk 0xFFFF
      r.target.toNat (fld 20 4 (t.freezeSeq + 1))).after)

/-- What the commands that set policies do (R63, R442, R443, R471, R473, R504). -/
def Obligations.PolicyCommands : Prop :=
  (∀ (s u : State) (r : MbxReq), s.Takes r → r.target = 0#32 → (r.bit 17 3 = true → s.MayStore r) → r.p 16 1 ≤ 2 → r.p 17 1 < 32 →
    (r.bit 17 1 = true → r.bit 17 0 = true) → 1 ≤ r.p 18 2 → r.p 18 2 ≤ 168 → (∀ o ∈ profileOffences r, o = none) →
    r.Zero [(20, 4), (54, 10)] →
    u = { s.begun 0x0601#16 r with
      pow.policyDue := true
      pow.capState := r.p 16 1
      pow.polFlags := r.p 17 1 % 8
      pow.maintH := r.p 18 2
      pow.profile := if r.bit 17 4 then profileOf r else s.pow.profile
      pow.savedPolicy := (if r.bit 17 3 then
          some (r.p 16 1, (r.p 17 1 % 8, (r.p 18 2, if r.bit 17 4 then profileOf r else s.pow.profile)))
        else s.pow.savedPolicy) } →
    s.Finishes (.powerPolicy r) 0x0601#16 r 0
      (fld 20 1 s.pow.ps + fld 21 1 (r.p 16 1) + fld 22 1 (if r.bit 17 3 then 1 else 0)) u) ∧
  (∀ (s v : State) (r : MbxReq), s.Takes r → r.target = 0#32 → s.hem.actStep = 0 → (r.bit 21 0 = true → s.MayStore r) →
    (∀ o ∈ levelOffences r, o = none) → r.p 21 1 < 2 → r.Zero [(22, 42)] →
    v = { s with
      pow.levels := (List.range 5).map (fun i => r.p (16 + i) 1)
      pow.savedLevels := if r.bit 21 0 then some ((List.range 5).map (fun i => r.p (16 + i) 1)) else s.pow.savedLevels } →
    v.levelOf s.pow.ps = s.pow.vid →
    s.Does (.vcorePolicy r) 0x0603#16 r 0 (fld 20 1 s.pow.vcore + fld 21 1 (if r.bit 21 0 then 1 else 0)) v) ∧
  (∀ (s u : State) (r : MbxReq), s.Takes r → r.target = 0#32 → s.hem.actStep = 0 → (r.bit 21 0 = true → s.MayStore r) →
    (∀ o ∈ levelOffences r, o = none) → r.p 21 1 < 2 → r.Zero [(22, 42)] →
    u = { s.begun 0x0603#16 r with
      pow.levels := (List.range 5).map (fun i => r.p (16 + i) 1)
      pow.savedLevels := if r.bit 21 0 then some ((List.range 5).map (fun i => r.p (16 + i) 1)) else s.pow.savedLevels } →
    u.levelOf s.pow.ps ≠ s.pow.vid → s.lastCall = false → (u.moveTo s.pow.ps).pow.step ≠ .none →
    exec (.vcorePolicy r) s = .next (u.moveTo s.pow.ps)) ∧
  (∀ (s v : State) (r : MbxReq), s.Takes r → r.target = 0#32 → (r.bit 16 3 = true → s.MayStore r) →
    (∀ o ∈ thermalOffences r s, o = none) → r.bit 16 2 = false →
    v = { s with
      therm.cfg := thermalApply r s.therm.cfg
      therm.saved := if r.bit 16 3 then some (thermalApply r s.therm.cfg) else s.therm.saved } →
    s.Does (.thermalConfig r) 0x0604#16 r 0 (fld 20 1 v.therm.cfg.warnC + fld 21 1 v.therm.cfg.throttleC +
      fld 22 1 v.therm.cfg.shutdownC + fld 24 2 (maskOf ((List.range 16).filter (fun i => (s.remote i).enabled))) +
      fld 26 2 (maskOf ((List.range 16).filter (fun i => (s.remote i).broken))) + fld 28 1 (r.bit 16 3).toNat) v) ∧
  (∀ (s u : State) (r : MbxReq), s.Takes r → r.target = 0#32 → (r.bit 16 3 = true → s.MayStore r) →
    (∀ o ∈ thermalOffences r s, o = none) → r.bit 16 2 = true → (r.p 32 8 ≠ 0 → s.bme = true) →
    u = (({ s.begun 0x0604#16 r with
      therm.cfg := thermalApply r s.therm.cfg
      therm.saved := if r.bit 16 3 then some (thermalApply r s.therm.cfg) else s.therm.saved } : State).enableInputs
        (BitVec.ofNat 16 (r.p 22 2))) →
    s.Finishes (.thermalConfig r) 0x0604#16 r 0 (fld 20 1 (thermalApply r s.therm.cfg).warnC +
      fld 21 1 (thermalApply r s.therm.cfg).throttleC +
      fld 22 1 (thermalApply r s.therm.cfg).shutdownC + fld 24 2 (maskOf ((List.range 16).filter (fun i => (u.remote i).enabled))) +
      fld 26 2 (maskOf ((List.range 16).filter (fun i => (u.remote i).broken))) + fld 28 1 (r.bit 16 3).toNat) u) ∧
  (∀ (s : State) (r : MbxReq), s.Takes r → r.target = 0#32 → s.supply.ewLatched = false → s.supply.testWait = none →
    s.supply.testRun = none → r.Zero [(16, 48)] →
    exec (.capacitanceTest r) s = .next ((s.begun 0x0606#16 r).startTest (some (s.queuedCmd 0x0606#16 r)))) ∧
  (∀ (s u : State) (r : MbxReq), s.Takes r → r.target = 0#32 → (r.bit 20 3 = true → s.MayStore r) →
    (∀ o ∈ capSetOffences r, o = none) → r.p 20 1 < 16 → r.Zero [(21, 3), (42, 22)] →
    u = (({ s.begun 0x0607#16 r with
      supply.savedProf :=
        if r.bit 20 3 then some (capSetApply r (s.supply.savedProf.getD State.reset.supply.prof)) else s.supply.savedProf
      supply.prof := capSetApply r s.supply.prof
      supply.capReached := if r.bit 20 0 then false else s.supply.capReached
      supply.capShortUs := if r.bit 20 0 then none else s.supply.capShortUs } : State).recap.charge) →
    s.Finishes (.exposedCapSet r) 0x0607#16 r 0
      (fld 20 4 u.supply.capEffKib + fld 24 4 (u.eReqMj u.supply.prof.capKib) + fld 28 1 (if r.bit 20 3 then 1 else 0)) u) ∧
  (∀ (s : State) (r : MbxReq), s.Takes r → r.target = 0#32 → r.p 16 1 ≤ 1 → r.p 17 1 ≤ 1 → r.p 18 1 < 4 →
    s.aon.straps.mgrSel = 2#2 → (s.host.joined = true → r.p 16 1 = 0) →
    (r.bit 18 0 = true → portOf (r.p 16 1) = s.mbx.manager) → s.hem.actStep = 0 → (r.bit 18 1 = true → s.MayStore r) →
    r.Zero [(19, 45)] →
    s.Finishes (.managerPolicy r) 0x0806#16 r 0 (fld 20 1 (portNo s.mbx.manager) + fld 21 1 (r.bit 18 1).toNat)
      { s.begun 0x0806#16 r with
        mbx.preferred := portOf (r.p 16 1)
        mbx.failover := decide (r.p 17 1 = 1)
        mbx.storedPolicy := if r.bit 18 1 then some (portOf (r.p 16 1), decide (r.p 17 1 = 1)) else s.mbx.storedPolicy })

/-- What the firmware commands do (R389-R392, R396, R403-R406). The digest is the model's free value (log 11). -/
def Obligations.FirmwareCommands : Prop :=
  (∀ (s : State) (r : MbxReq) (xs : List Nat), s.Takes r → r.target = 0#32 → s.MayStore r → s.bme = true → r.Buffer 16 24 1 →
    s.hem.actStep = 0 → r.p 28 4 = 0 → headerBad r.env.buf = false → r.p 24 4 ≤ bufNum r.env.buf 8 4 → r.p 24 4 ≤ 8388608 →
    (r.p 24 4 % 4096 = 0 ∨ r.p 24 4 = bufNum r.env.buf 8 4) → (s.twin s.otherTwin).st ≠ 6 → r.Zero [(32, 32)] →
    xs = ((List.range ((r.p 24 4 + 4095) / 4096)).map (0 + ·)).foldl addOnce [] →
    s.Does (.fwStage r) 0x0801#16 r 0 (fld 20 4 (bufNum r.env.buf 8 4) + fld 24 4 xs.length)
      (({ s with
        hem.session := some (bufNum r.env.buf 8 4, xs)
        hem.sessionHdr := headerTwin r.env.buf } : State).setTwin s.otherTwin { headerTwin r.env.buf with
          whole := (List.range ((bufNum r.env.buf 8 4 + 4095) / 4096)).all xs.contains })) ∧
  (∀ (s : State) (r : MbxReq) (want : Nat) (ys xs : List Nat), s.Takes r → r.target = 0#32 → s.MayStore r → s.bme = true →
    r.Buffer 16 24 1 →
    s.hem.actStep = 0 → 0 < r.p 28 4 → r.p 28 4 % 4096 = 0 → s.hem.session = some (want, ys) → r.p 28 4 + r.p 24 4 ≤ want →
    r.p 28 4 + r.p 24 4 ≤ 8388608 → (r.p 24 4 % 4096 = 0 ∨ r.p 28 4 + r.p 24 4 = want) → (s.twin s.otherTwin).st ≠ 6 →
    r.Zero [(32, 32)] →
    xs = ((List.range ((r.p 24 4 + 4095) / 4096)).map (r.p 28 4 / 4096 + ·)).foldl addOnce ys →
    s.Does (.fwStage r) 0x0801#16 r 0 (fld 20 4 want + fld 24 4 xs.length)
      (({ s with hem.session := some (want, xs) } : State).setTwin s.otherTwin { s.twin s.otherTwin with
        st := 1
        digest := 0
        whole := (List.range ((want + 4095) / 4096)).all xs.contains })) ∧
  (∀ (s u : State) (r : MbxReq) (x : Twin), s.Takes r → r.target = 0#32 → s.supply.ewLatched = false → s.hem.actStep = 0 →
    s.sessionFull = true → x = s.twin s.otherTwin → x.magic = true → x.headerOk = true → x.revision = 0x21 →
    x.parts.testBit s.board.part.no = true → s.hem.minSvn ≤ x.svn → x.keyIndex ≤ 1 → x.whole = true →
    (r.env.verdict < 7 ∨ 9 < r.env.verdict) → r.Zero [(16, 48)] →
    u = ({ s with fresh := s.fresh + 1, hem.session := none } : State).setTwin s.otherTwin { x with
      verdict := 0
      st := 3
      digest := Config.freeNat s.fresh } →
    s.Does (.fwVerify r) 0x0802#16 r 0 (fld 20 1 0 + fld 21 1 (if u.resetFree then 1 else 0) + fld 22 2 x.svn +
      fld 24 8 x.fwRev.toNat) u) ∧
  (∀ (s : State) (r : MbxReq), s.Takes r → r.target = 0#32 → s.MayStore r → s.hem.actStep = 0 →
    ((s.twin s.otherTwin).st = 3 ∨ (s.twin s.otherTwin).st = 6) → s.hem.minSvn ≤ (s.twin s.otherTwin).svn → r.p 16 1 = 1 →
    r.Zero [(17, 47)] →
    s.Does (.fwActivateNextPowerOn r) 0x0803#16 r 0 (activateResult 1 0 0 (s.selectNext s.otherTwin).selectSeq)
      (s.selectNext s.otherTwin)) ∧
  (∀ (s : State) (r : MbxReq), s.Takes r → r.target = 0#32 → s.MayStore r → s.hem.actStep = 0 →
    ((s.twin s.otherTwin).st = 3 ∨ (s.twin s.otherTwin).st = 6) → s.hem.minSvn ≤ (s.twin s.otherTwin).svn → r.p 16 1 = 0 →
    s.resetFree = true → s.standby.isSome = true → r.Zero [(17, 47)] →
    exec (.fwActivateNow r) s =
      .next (((s.begun 0x0803#16 r).startActivation (some (s.queuedCmd 0x0803#16 r)) none r.env.verdict).after)) ∧
  (∀ (s : State) (r : MbxReq), s.Takes r → r.target = 0#32 → s.MayStore r → s.hem.actStep = 0 →
    (s.twin s.otherTwin).st = 6 → r.Zero [(16, 48)] →
    s.Does (.fwRollback r) 0x0804#16 r 0 (activateResult 1 0 0 (s.writeSelect s.hem.running 4 0 true).selectSeq)
      ((s.writeSelect s.hem.running 4 0 true).setTwin s.otherTwin { s.twin s.otherTwin with st := 3 })) ∧
  (∀ (s : State) (r : MbxReq), s.Takes r → r.target = 0#32 → s.MayStore r → s.hem.actStep = 0 →
    (s.twin s.otherTwin).st = 3 → s.hem.minSvn ≤ (s.twin s.otherTwin).svn →
    s.resetFree = true → s.standby.isSome = true → r.Zero [(16, 48)] →
    exec (.fwRollback r) s =
      .next (((s.begun 0x0804#16 r).startActivation (some (s.queuedCmd 0x0804#16 r)) none r.env.verdict).after))

/-- What the commands on records do (R499, R501, R502, R505, R507, R509, R513, R533). The RESULT of YARDAGE_SET_EPOCH on all
tenants is the model's free value (log 11). -/
def Obligations.RecordCommands : Prop :=
  (∀ (s : State) (r : MbxReq), s.Takes r → r.target = 0#32 → r.p 16 2 ≤ 1000 → s.pbFrozen = false → s.pb.deferred = false →
    r.Zero [(18, 46)] →
    s.Does (.pbFreeze r) 0x0701#16 r 0 (fld 20 8 s.now) { s with
      pb.frozen := some (s.now + 1000 * (if r.p 16 2 = 0 then 100 else r.p 16 2))
      pb.freezeUs := s.now }) ∧
  (∀ (s : State) (r : MbxReq), s.Takes r → r.target = 0#32 → s.pbFrozen = true → r.Zero [(16, 48)] →
    s.Does (.pbThaw r) 0x0702#16 r 0 (fld 20 8 s.pb.missed)
      { s with pb.frozen := none, pb.deletedRecs := [], pb.deferred := s.ckptDue }) ∧
  (∀ (s : State) (r : MbxReq) (k : Nat) (t : Tenant), s.Takes r → r.target ≠ 0#32 → s.Names 1 r k k t → t.frozen = false →
    (r.bit 20 2 = true → s.MayStore r) → 60 ≤ r.p 16 4 → r.p 16 4 ≤ 86400 → r.p 20 1 < 8 → r.bit 20 1 = false → r.Zero [(21, 43)] →
    s.Does (.yardageSetEpoch r) 0x0704#16 r r.target.toNat (fld 20 4 t.epochNo + fld 24 8 t.epochEndUs)
      (s.setTenant k { t with
        nextLenS := r.p 16 4
        nextAlign := r.bit 20 0
        savedEpoch := if r.bit 20 2 then some (r.p 16 4, r.bit 20 0) else t.savedEpoch })) ∧
  (∀ (s u : State) (r : MbxReq) (k : Nat) (t : Tenant), s.Takes r → r.target ≠ 0#32 → s.Names 1 r k k t → t.frozen = false →
    (r.bit 20 2 = true → s.MayStore r) → 60 ≤ r.p 16 4 → r.p 16 4 ≤ 86400 → r.p 20 1 < 8 → r.bit 20 1 = true → r.Zero [(21, 43)] →
    u = ((s.begun 0x0704#16 r).setTenant k { t with
        nextLenS := r.p 16 4
        nextAlign := r.bit 20 0
        savedEpoch := if r.bit 20 2 then some (r.p 16 4, r.bit 20 0) else t.savedEpoch }).closeEpoch k 2 →
    s.Finishes (.yardageSetEpoch r) 0x0704#16 r r.target.toNat (fld 20 4 (u.tenantD k).epochNo + fld 24 8 (u.tenantD k).epochEndUs) u) ∧
  (∀ (s u : State) (r : MbxReq), s.Takes r → r.target = 0#32 → (r.bit 20 2 = true → s.MayStore r) →
    60 ≤ r.p 16 4 → r.p 16 4 ≤ 86400 → r.p 20 1 < 8 → r.Zero [(21, 43)] →
    u = ((s.host.tenants.filter (fun p => !p.2.frozen)).map (·.1)).foldl
      (fun s k => s.setEpoch k (r.p 16 4) (r.bit 20 0) (r.bit 20 1) (r.bit 20 2)) (s.begun 0x0704#16 r) →
    s.Finishes (.yardageSetEpoch r) 0x0704#16 r (s.host.tenants.filter (fun p => p.2.frozen)).length
      (fld 20 12 (Config.freeNat u.fresh)) { u with
        yard.lenS := r.p 16 4
        yard.align := r.bit 20 0
        yard.savedLenS := if r.bit 20 2 then r.p 16 4 else u.yard.savedLenS
        yard.savedAlign := if r.bit 20 2 then r.bit 20 0 else u.yard.savedAlign
        fresh := u.fresh + 1 }) ∧
  (∀ (s u : State) (r : MbxReq), s.Takes r → r.target = 0#32 → r.env.hemOk = true → s.supply.ewLatched = false → r.p 16 8 ≠ 0 →
    r.Zero [(24, 40)] →
    u = { s.begun 0x0706#16 r with yard.offset := (r.p 16 8 : Int) - (s.now / 1000 : Nat), yard.stale := false } →
    s.Finishes (.hostTimeSet r) 0x0706#16 r 0 (fld 20 8 s.hostTime)
      (s.host.tenants.foldl (fun v p => v.updTenant p.1 (v.restep (decide
        (s.hostMs s.yard.offset + 1000 < (r.p 16 8 : Int) ∨ (r.p 16 8 : Int) + 1000 < s.hostMs s.yard.offset)))) u)) ∧
  (∀ (s : State) (r : MbxReq) (k : Nat) (t : Tenant), s.Takes r → r.target ≠ 0#32 → s.Names 1 r k k t → t.frozen = false →
    s.MayStore r → s.overThreshold k { t with threshold := r.p 16 2 } = false → r.p 18 1 = 0 → r.Zero [(19, 45)] →
    s.Does (.selvedgeSetThreshold r) 0x0A05#16 r r.target.toNat (fld 20 2 (r.p 16 2) + fld 24 4 t.violations)
      (s.setTenant k { t with threshold := r.p 16 2 })) ∧
  (∀ (s : State) (r : MbxReq) (k : Nat) (t : Tenant), s.Takes r → r.target ≠ 0#32 → s.Names 1 r k k t → t.frozen = false →
    s.MayStore r → s.overThreshold k { t with threshold := r.p 16 2 } = true → t.quarantined = false → r.p 18 1 = 0 →
    r.Zero [(19, 45)] →
    s.DoesApart (.selvedgeSetThreshold r) 0x0A05#16 r r.target.toNat (fld 20 2 (r.p 16 2) + fld 24 4 t.violations)
      (s.setTenant k { t with threshold := r.p 16 2, quarantined := true })) ∧
  (∀ (s u : State) (r : MbxReq), s.Takes r → r.target = 0#32 → s.MayStore r → r.p 18 1 < 2 → r.Zero [(19, 45)] →
    u = { s.begun 0x0A05#16 r with selv.threshold := r.p 16 2 } →
    s.Ends (.selvedgeSetThreshold r) 0x0A05#16 r 0 (fld 20 2 (r.p 16 2)) (if r.bit 18 0 then
        s.host.tenants.foldl (fun v p => if p.2.frozen then v else v.setThreshold p.1 (r.p 16 2)) u
      else u))

/-- When a sanitise or format starts, and the next state (R432, R438, R444, R446). -/
def Obligations.SanitiseCommands : Prop :=
  (∀ (s : State) (r q : MbxReq), q = withAction r 1 → s.Takes q → q.target = 0#32 → s.supply.ewLatched = false →
    s.hem.actStep = 0 → (∀ p ∈ s.host.tenants, p.2.formatting ≠ 1) → ¬ (s.san.s.failMode = true ∧ s.san.s.failRestricted = true ∧ q.bit 17 0 = true) → q.p 17 1 < 2 →
    q.Zero [(18, 46)] →
    exec (.sanitiseStartBlockErase r) s = .next ((((s.begun 0x0901#16 q).sanitiseStart 2 (q.bit 17 0)
      (BitVec.ofNat 32 (2 + (if q.bit 17 0 then 8 else 0))) (some (s.queuedCmd 0x0901#16 q)) none r.env.hemOk).sanitiseGo).after)) ∧
  (∀ (s : State) (r q : MbxReq), q = withAction r 2 → s.Takes q → q.target = 0#32 → s.cipher = true → s.supply.ewLatched = false →
    s.hem.actStep = 0 → (∀ p ∈ s.host.tenants, p.2.formatting ≠ 1) → ¬ (s.san.s.failMode = true ∧ s.san.s.failRestricted = true ∧ q.bit 17 0 = true) → q.p 17 1 < 2 →
    q.Zero [(18, 46)] →
    exec (.sanitiseStartCryptoErase r) s = .next ((((s.begun 0x0901#16 q).sanitiseStart 4 (q.bit 17 0)
      (BitVec.ofNat 32 (4 + (if q.bit 17 0 then 8 else 0))) (some (s.queuedCmd 0x0901#16 q)) none r.env.hemOk).sanitiseGo).after)) ∧
  (∀ (s : State) (r q : MbxReq), q = withAction r 3 → s.Takes q → q.target = 0#32 → s.supply.ewLatched = false →
    s.hem.actStep = 0 → (∀ p ∈ s.host.tenants, p.2.formatting ≠ 1) → s.san.s.failMode = true → s.san.s.failRestricted = false → q.p 17 1 < 2 → q.Zero [(18, 46)] →
    s.Does (.sanitiseStartExitFailure r) 0x0901#16 q 0 0 { s with san.s.failMode := false }) ∧
  (∀ (s : State) (r : MbxReq) (k : Nat) (t : Tenant), s.Takes r → s.Names 1 r k k t → t.frozen = false → s.supply.ewLatched = false →
    1 ≤ r.p 16 1 → r.p 16 1 ≤ 3 → r.p 17 1 ≤ 2 → (r.p 17 1 = 2 → s.cipher = true) → r.p 18 1 ≤ 1 →
    (nsHas (r.p 16 1) 1 = true → s.nsze t 1 ≠ 0) → (nsHas (r.p 16 1) 2 = true → s.nsze t 2 ≠ 0) → r.Zero [(19, 45)] →
    exec (.formatStart r) s = .next ((((s.begun 0x0903#16 r).formatStart k (r.p 16 1) (r.p 17 1) (r.p 18 1) r.env.hemOk
      (some (s.queuedCmd 0x0903#16 r)) none).formatGo k).after))

/-- What the debug and Fray commands do under conditions on the state and the operands (R517, R521, R528-R531). -/
def Obligations.DebugCommands : Prop :=
  (∀ (s u : State) (r : MbxReq), s.Takes r → r.target = 0#32 → s.bme = true → s.supply.ewLatched = false → r.p 16 1 = 0 →
    r.Buffer 24 32 80 → r.Zero [(17, 7), (36, 28)] →
    u = r.output { s.begun 0x0A01#16 r with fresh := s.fresh + 1, dbg.nonce := some (s.fresh, s.now), dbg.nonces := s.dbg.nonces + 1 }
        24 32 (bytesLE 32 (Config.freeNat s.fresh) ++ bytesLE 48 Config.deviceId) →
    exec (.debugAuthoriseChallenge r) s = .next (u.mbxFinish (s.queuedCmd 0x0A01#16 r) stOk 0xFFFF 0
      (fld 20 4 s.authLeft + fld 24 1 s.dbg.perms.toNat))) ∧
  (∀ (s u : State) (r : MbxReq) (n : Nat), s.Takes r → r.target = 0#32 → s.bme = true → s.supply.ewLatched = false → r.p 16 1 = 1 →
    r.p 24 8 % 64 = 0 → r.p 32 4 = 256 → r.env.bufOk = true → tokenMalformed (r.input 256) = false → s.liveNonce = some n →
    r.env.sigOk = true → bufNum (r.input 256) 16 32 = Config.freeNat n % 2 ^ 256 →
    bufNum (r.input 256) 48 48 = Config.deviceId % 2 ^ 384 → r.Zero [(17, 7), (36, 28)] →
    u = ({ s.begun 0x0A01#16 r with
      dbg.nonce := none
      dbg.authUntil := some (s.now + 1000000 * bufNum (r.input 256) 12 4)
      dbg.perms := BitVec.ofNat 8 (bufNum (r.input 256) 9 1) } : State).authNote 0 →
    exec (.debugAuthoriseToken r) s = .next (u.mbxFinish (s.queuedCmd 0x0A01#16 r) stOk 0xFFFF 0
      (fld 20 4 u.authLeft + fld 24 1 u.dbg.perms.toNat))) ∧
  (∀ (s u : State) (r : MbxReq), s.Takes r → r.target = 0#32 → s.supply.ewLatched = false → r.p 16 1 = 2 → r.p 32 4 = 0 →
    r.Zero [(17, 7), (36, 28)] → u = (s.begun 0x0A01#16 r).endAuth 2 →
    exec (.debugAuthoriseRevoke r) s = .next (u.mbxFinish (s.queuedCmd 0x0A01#16 r) stOk 0xFFFF 0
      (fld 20 4 u.authLeft + fld 24 1 u.dbg.perms.toNat))) ∧
  (∀ (s u : State) (r : MbxReq) (bs : List (List Byte)), s.Takes r → r.target = 0#32 → s.bme = true → s.supply.ewLatched = false →
    1 ≤ r.p 16 1 → r.p 16 1 ≤ 16 → r.p 17 1 < 2 → r.p 24 8 % 64 = 0 → r.p 32 4 = 32 * r.p 16 1 → r.env.bufOk = true →
    bs = (List.range (r.p 16 1)).map (fun i => ((r.input (32 * r.p 16 1)).drop (32 * i)).take 32) →
    (∀ b ∈ bs, s.frayRuleOk b = true) → s.authorised = true → s.dbg.perms.getLsbD 0 = true → r.Zero [(18, 6), (36, 28)] →
    u = ({ s.begun 0x0A02#16 r with dbg.armed := true, dbg.trigOut := r.bit 17 0, dbg.rules := bs.map frayRuleOf } : State).selvedge
        { source := 5, code := 0x62, detail := 1, answer := 5 } →
    exec (.frayArm r) s = .next (u.mbxFinish (s.queuedCmd 0x0A02#16 r) stOk 0xFFFF 0 (fld 20 1 (r.p 16 1)))) ∧
  (∀ (s : State) (r : MbxReq), ({ s with dbg.armed := false } : State).Takes r → r.target = 0#32 → s.supply.ewLatched = false →
    r.Zero [(16, 48)] →
    exec (.frayDisarm r) s = .next (((s.begun 0x0A03#16 r).disarm).mbxFinish (s.queuedCmd 0x0A03#16 r) stOk 0xFFFF 0
      (fld 20 8 (if s.dbg.armed then s.totalHits else 0))))

/-- WARM_RESET (R524, R534), and the start of a queued command in SEQ order (R52). -/
def Obligations.QueuedStartAndWarmReset : Prop :=
  (∀ (s : State) (r : MbxReq), s.Takes r → r.target = 0#32 → s.supply.ewLatched = false → r.Zero [(16, 48)] →
    exec (.warmReset r) s = .next (State.tryWarm { (s.begun 0x0A06#16 r).updMbxPort r.port (fun x => { x with ready := false, readyAt := none })
      with aon.warmCmd := some (s.queuedCmd 0x0A06#16 r) })) ∧
  (∀ (s : State) (c : MbxCmd), c ∈ s.mbx.accepted → s.mbxMayStart c = true →
    (∀ d ∈ s.mbx.accepted, s.mbxMayStart d = true → d = c ∨ c.seq < d.seq) →
    exec .mbxQueuedStart s = .next (s.mbxRun (mbxHandler c.opcode.toNat) c).after)

/-- Where the I/O commands complete or start (R96, R105, R107, R117, R118, R120, R139, R140). -/
def Obligations.IoCommands : Prop :=
  (∀ (s u : State) (c : NvmeCmd) (e : Sqe) (io : IoArgs) (slot n : Nat) (t : Tenant) (o : Outst), s.Granted c e 0x02#8 u →
    ioInEntry io e = true → u.tenantOf c.fn = some slot → t = u.tenantD slot → u.outstAt c.fn c.sqid c.cid = some o → n = io.nlb + 1 →
    io.slba + n ≤ u.nsze t c.nsid.toNat → dataFaults c io.mptr t.lbaf = [] →
    exec (.read c io) s = .next ((u.startHostRead c.fn c.sqid c.cid slot c.nsid.toNat io.slba n
      (if n ≤ 8 ∧ o.cls ≤ 2 then .latency else .bulk) (match c.dptr with | .prp off _ => off | _ => 0)).after)) ∧
  (∀ (s u : State) (c : NvmeCmd) (e : Sqe) (io : IoArgs) (slot n : Nat) (t : Tenant), s.Granted c e 0x01#8 u →
    ioInEntry io e = true → u.tenantOf c.fn = some slot → t = u.tenantD slot → n = io.nlb + 1 →
    (if c.nsid.toNat = 1 then io.slba + 1 else io.slba + n) ≤ u.nsze t c.nsid.toNat →
    exec (.write c io) s = .next ((u.startWrite { (default : Wr) with
      fn := c.fn, sqid := c.sqid, cid := c.cid, tenant := slot, nsid := c.nsid.toNat, kind := .write, lba := io.slba, len := n,
      dtype := io.dtype, dspec := io.dspec, dataErr := dataFaults c io.mptr t.lbaf }).after)) ∧
  (∀ (s u : State) (c : NvmeCmd) (e : Sqe) (io : IoArgs) (slot n : Nat) (t : Tenant), s.Granted c e 0x7D#8 u →
    ioInEntry io e = true → u.tenantOf c.fn = some slot → t = u.tenantD slot → n = io.nlb + 1 → c.nsid = 1#32 →
    io.slba + 1 ≤ u.nsze t 1 →
    exec (.zoneAppend c io) s = .next ((u.startWrite { (default : Wr) with
      fn := c.fn, sqid := c.sqid, cid := c.cid, tenant := slot, nsid := 1, kind := .append, lba := io.slba, len := n,
      dtype := io.dtype, dspec := io.dspec, dataErr := dataFaults c io.mptr t.lbaf }).after)) ∧
  (∀ (s u : State) (c : NvmeCmd) (e : Sqe) (io : IoArgs) (slot n : Nat) (t : Tenant), s.Granted c e 0x08#8 u →
    ioInEntry io e = true → u.tenantOf c.fn = some slot → t = u.tenantD slot → n = io.nlb + 1 →
    (if c.nsid.toNat = 1 then io.slba + 1 else io.slba + n) ≤ u.nsze t c.nsid.toNat →
    exec (.writeZeroes c io) s = .next ((u.startWrite { (default : Wr) with
      fn := c.fn, sqid := c.sqid, cid := c.cid, tenant := slot, nsid := c.nsid.toNat, kind := .zeroes, lba := io.slba, len := n,
      dtype := io.dtype, dspec := io.dspec, dataErr := [] }).after)) ∧
  (∀ (s u : State) (c : NvmeCmd) (e : Sqe), s.Granted c e 0x00#8 u → exec (.flush c) s = .next (u.okCmd c).after) ∧
  (∀ (s u : State) (c : NvmeCmd) (e : Sqe) (slot slba action : Nat) (all : Bool), s.Granted c e 0x79#8 u →
    isSend action slba all e = true → u.tenantOf c.fn = some slot →
    (all = true ∨ slba < u.nsze (u.tenantD slot) 1 ∧ slba % max 1 u.zsize = 0) →
    (action = 3 → exec (.zoneOpen c slba all) s =
      .next ((u.startSend ⟨0, c.fn, c.sqid, c.cid, slot, 3, slba, all, false, false⟩).tidy.after)) ∧
    (action = 1 → exec (.zoneClose c slba all) s =
      .next ((u.startSend ⟨0, c.fn, c.sqid, c.cid, slot, 1, slba, all, false, false⟩).tidy.after)) ∧
    (action = 2 → exec (.zoneFinish c slba all) s =
      .next ((u.startSend ⟨0, c.fn, c.sqid, c.cid, slot, 2, slba, all, false, false⟩).tidy.after)) ∧
    (action = 4 → exec (.zoneReset c slba all) s =
      .next ((u.startSend ⟨0, c.fn, c.sqid, c.cid, slot, 4, slba, all, false, false⟩).tidy.after))) ∧
  (∀ (s u : State) (c : NvmeCmd) (e : Sqe) (slot slba zrasf z0 maxDesc addr : Nat) (t : Tenant) (part : Bool) (zs : List Nat),
    s.Granted c e 0x7A#8 u → slba = e.dw10.toNat + e.dw11.toNat * 2 ^ 32 → u.tenantOf c.fn = some slot → t = u.tenantD slot →
    zrasf < 8 → slba < u.nsze t 1 → dataFaults c 0 0 = [] → z0 = slba / max 1 u.zsize →
    zs = ((List.range (t.quota - z0)).map (fun j => z0 + j)).filter (fun z => zrasfTakes zrasf (t.zone z).st) →
    exec (.reportZones c slba 0 zrasf part maxDesc addr) s = .next (((u.emit (.mem c.fn.port addr
      (bytesLE 8 (if part then (zs.take maxDesc).length else zs.length) ++ bytesLE 56 0 ++
        (zs.take maxDesc).flatMap (fun z => u.zoneDesc z (t.zone z))))).okCmd c).after))

/-- Where the admin commands on firmware and media complete or start (R402, R431, R432, R438). -/
def Obligations.AdminMediaCommands : Prop :=
  (∀ (s u : State) (c : NvmeCmd) (e : Sqe) (ofst : Nat) (data : List Byte), s.Granted c e 0x11#8 u → e.dw11.toNat * 4 = ofst →
    (e.dw10.toNat + 1) * 4 = data.length → ofst % 4096 = 0 → data.length % 4096 = 0 → ofst + data.length ≤ 8388608 →
    (∀ p ∈ u.hem.download, ofst + data.length ≤ p.1 * 4096 ∨ (p.1 + p.2) * 4096 ≤ ofst) → dataFaults c 0 0 = [] →
    exec (.firmwareImageDownload c ofst data) s = .next (({ u with
      hem.download := u.hem.download ++ [(ofst / 4096, data.length / 4096)]
      hem.downloadHdr := if ofst = 0 then headerTwin data else u.hem.downloadHdr } : State).okCmd c)) ∧
  (∀ (s u v : State) (c : NvmeCmd) (e : Sqe) (ca : BitVec 3) (fs slot verdict : Nat), s.Granted c e 0x10#8 u → s.hem.actStep = 0 →
    e.dw10.toNat % 8 = fs → e.dw10.extractLsb' 3 3 = ca → fs ≤ 2 → slot = (if fs = 0 then u.otherTwin else fs) →
    v = { u with hem.download := [], hem.downloadHdr := (default : Twin) } → u.supply.ewLatched = false → slot ≠ u.hem.running →
    ca = 2#3 → ((u.twin slot).st = 3 ∨ (u.twin slot).st = 6) → u.hem.minSvn ≤ (u.twin slot).svn →
    exec (.firmwareCommit c ca fs verdict true) s = .next (((v.selectNext slot).okCmd c).after)) ∧
  (∀ (s u v : State) (c : NvmeCmd) (e : Sqe) (ca : BitVec 3) (fs slot verdict : Nat), s.Granted c e 0x10#8 u → s.hem.actStep = 0 →
    e.dw10.toNat % 8 = fs → e.dw10.extractLsb' 3 3 = ca → fs ≤ 2 → slot = (if fs = 0 then u.otherTwin else fs) →
    v = { u with hem.download := [], hem.downloadHdr := (default : Twin) } → u.supply.ewLatched = false → slot ≠ u.hem.running →
    ca = 3#3 → ((u.twin slot).st = 3 ∨ (u.twin slot).st = 6) → u.hem.minSvn ≤ (u.twin slot).svn → v.resetFree = true → v.standby.isSome = true →
    exec (.firmwareCommit c ca fs verdict true) s = .next ((v.startActivation none (some (c.fn, c.cid)) verdict).after)) ∧
  (∀ (s u v w : State) (c : NvmeCmd) (e : Sqe) (ca : BitVec 3) (fs slot verdict : Nat), s.Granted c e 0x10#8 u → s.hem.actStep = 0 →
    e.dw10.toNat % 8 = fs → e.dw10.extractLsb' 3 3 = ca → fs ≤ 2 → slot = (if fs = 0 then u.otherTwin else fs) →
    v = { u with hem.download := [], hem.downloadHdr := (default : Twin), hem.session := none } → u.supply.ewLatched = false →
    slot ≠ u.hem.running → ca.toNat ≤ 1 →
    (v.setTwin slot { u.hem.downloadHdr with st := 1, whole := u.downloadFull }).verifyTwin slot u.downloadFull verdict = (0, w) →
    exec (.firmwareCommit c ca fs verdict true) s = .next (((if ca = 1#3 then w.selectNext slot else w).okCmd c).after)) ∧
  (∀ (s u : State) (c : NvmeCmd) (e : Sqe) (lbaf ses slot ns : Nat) (hemOk : Bool), s.Granted c e 0x80#8 u →
    e.dw10.toNat % 16 = lbaf → e.dw10.toNat / 512 % 8 = ses →
    e.dw10.getLsbD 4 = false → e.dw10.toNat / 32 % 8 = 0 → e.dw10.getLsbD 8 = false → lbaf ≤ 1 → ses ≤ 2 → (ses = 2 → u.cipher = true) → u.tenantOf c.fn = some slot →
    ns = (if c.nsid = 0xFFFFFFFF#32 then (if u.nsze (u.tenantD slot) 1 = 0 then 0 else 1) +
      (if u.nsze (u.tenantD slot) 2 = 0 then 0 else 2) else c.nsid.toNat) →
    (u.tenantD slot).formatting ≠ 1 → u.supply.ewLatched = false →
    exec (.formatNvm c lbaf ses false 0 false hemOk) s =
      .next (((u.formatStart slot ns ses lbaf hemOk none (some (c.fn, c.cid))).formatGo slot).after)) ∧
  (∀ (s u : State) (c : NvmeCmd) (e : Sqe) (ause hemOk : Bool), s.Granted c e 0x84#8 u → isSanitize 2 ause false e = true →
    u.san.s.running = false → (u.san.s.failMode && u.san.s.failRestricted && ause) = false → u.hem.actStep = 0 →
    (∀ p ∈ u.host.tenants, p.2.formatting ≠ 1) → u.supply.ewLatched = false →
    exec (.sanitizeBlockErase c ause false hemOk) s = .next (((u.sanitiseStart 2 ause (BitVec.ofNat 32 (2 + if ause then 8 else 0))
      none (some (c.fn, c.cid)) hemOk).sanitiseGo).after)) ∧
  (∀ (s u : State) (c : NvmeCmd) (e : Sqe) (ause hemOk : Bool), s.Granted c e 0x84#8 u → isSanitize 4 ause false e = true →
    u.cipher = true → u.san.s.running = false → (u.san.s.failMode && u.san.s.failRestricted && ause) = false → u.hem.actStep = 0 →
    (∀ p ∈ u.host.tenants, p.2.formatting ≠ 1) → u.supply.ewLatched = false →
    exec (.sanitizeCryptoErase c ause false hemOk) s = .next (((u.sanitiseStart 4 ause (BitVec.ofNat 32 (4 + if ause then 8 else 0))
      none (some (c.fn, c.cid)) hemOk).sanitiseGo).after)) ∧
  (∀ (s u : State) (c : NvmeCmd) (e : Sqe), s.Granted c e 0x84#8 u → e.dw10.toNat % 8 = 1 → u.san.s.running = false →
    (u.san.s.failMode && u.san.s.failRestricted) = false →
    exec (.sanitizeExitFailureMode c) s = .next ((u.exitFailure.okCmd c).after))

/-- Where queue creation and deletion complete (R239, R254). -/
def Obligations.QueueCreation : Prop :=
  (∀ (s u : State) (c : NvmeCmd) (e : Sqe) (qid qsize prp1 cqid : Nat) (qprio : BitVec 2), s.Granted c e 0x01#8 u →
    e.dw10.toNat = qid + qsize * 65536 → e.dw11.getLsbD 0 = true → e.dw11.extractLsb' 1 2 = qprio → e.dw11.toNat / 65536 = cqid →
    1 ≤ qid → qid ≤ (u.tenantD ((u.tenantOf c.fn).getD 1024)).pairsInForce → ((u.fn c.fn).sq qid).isSome = false →
    1 ≤ qsize → qsize ≤ 4095 → prp1 % 4096 = 0 → cqid ≠ 0 → ((u.fn c.fn).cq cqid).isSome = true →
    exec (.createIoSq c qid qsize true prp1 cqid qprio) s = .next ((u.updFn c.fn (fun x => { x with
      sqs := x.sqs ++ [{ (default : Sq) with
        qid := qid, base := prp1, size := qsize + 1, cqid := cqid, prio := qprio.toNat, st := .active }] })).okCmd c).after) ∧
  (∀ (s u : State) (c : NvmeCmd) (e : Sqe) (qid qsize prp1 iv : Nat) (ien : Bool), s.Granted c e 0x05#8 u →
    e.dw10.toNat = qid + qsize * 65536 → e.dw11.getLsbD 0 = true → e.dw11.getLsbD 1 = ien → e.dw11.toNat / 65536 = iv →
    1 ≤ qid → qid ≤ (u.tenantD ((u.tenantOf c.fn).getD 1024)).pairsInForce → ((u.fn c.fn).cq qid).isSome = false →
    1 ≤ qsize → qsize ≤ 4095 → prp1 % 4096 = 0 → (ien = false ∨ (u.blockOf c.fn iv).isSome = true) →
    exec (.createIoCq c qid qsize true prp1 ien iv) s = .next ((u.updFn c.fn (fun x => { x with
      cqs := x.cqs ++ [{ (default : Cq) with
        qid := qid, base := prp1, size := qsize + 1, ien := ien, iv := iv, phase := true }] })).okCmd c).after) ∧
  (∀ (s u : State) (c : NvmeCmd) (e : Sqe) (qid : Nat) (q : Sq), s.Granted c e 0x00#8 u → e.dw10.toNat % 65536 = qid → qid ≠ 0 →
    (u.fn c.fn).sq qid = some q → q.st = .active →
    exec (.deleteIoSq c qid) s = .next ((((State.abortUnreads ((q.tail + q.size - q.fetchPtr % q.size) % q.size)
      (q.pre.foldl (fun w x => w.completeFetched c.fn qid x.sqe.cmd nvSqDeleted)
        (u.updFn c.fn (fun x => x.updSq qid (fun q => { q with st := .deleting, pre := [] })))) c.fn qid).updFn
      c.fn (fun x => x.updSq qid (fun p => { p with fetchPtr := p.tail, landings := [] }))).updFn c.fn
        (fun x => { x with deleting := x.deleting ++ [(qid, c.cid)] })).settleDeletes c.fn).after) ∧
  (∀ (s u : State) (c : NvmeCmd) (e : Sqe) (qid : Nat), s.Granted c e 0x04#8 u → e.dw10.toNat % 65536 = qid → qid ≠ 0 →
    ((u.fn c.fn).cq qid).isSome = true → (u.fn c.fn).sqs.any (fun q => decide (q.cqid = qid)) = false →
    exec (.deleteIoCq c qid) s = .next ((u.updFn c.fn (fun x => { x with
      cqs := x.cqs.filter (fun q => decide (q.qid ≠ qid)) })).okCmd c).after)

/-- Where GET FEATURES and SET FEATURES complete (R154, R195, R229, R249, R258, R459, R460, R488). -/
def Obligations.FeatureCommands : Prop :=
  (∀ (s u : State) (c : NvmeCmd) (e : Sqe) (dw11 dw12 : BitVec 32) (data : List Byte) (fid : Nat) (g : Fn → Fn),
    s.Granted c e 0x09#8 u → setInEntry fid dw11 e = true → e.dw12 = dw12 → svOf e = false →
    (c.nsid = 0#32 ∨ c.nsid = 0xFFFFFFFF#32) →
    (fid = 0x05 ∧ dw11.toNat < 65536 ∧ (g = fun x => { x with tler := dw11.extractLsb' 0 16 }) ∨
      fid = 0x0B ∧ dw11 &&& ~~~0x080003FF#32 = 0#32 ∧ (g = fun x => { x with aec := dw11 }) ∨
      fid = 0x16 ∧ dw11 = 0#32 ∧ (data.headD 0#8).toNat ≤ 1 ∧ dataFaults c 0 0 = [] ∧
        (g = fun x => { x with acre := decide (data.headD 0#8 = 1#8) }) ∨
      fid = 0x1D ∧ dw12 = 1#32 ∧ g = id) →
    exec (.setFeatures c fid false dw11 dw12 data) s = .next (((u.updFn c.fn g).okCmd c).after)) ∧
  (∀ (s u : State) (c : NvmeCmd) (e : Sqe) (fid sel addr : Nat) (dw11 : BitVec 32), s.Granted c e 0x0A#8 u →
    setInEntry fid dw11 e = true → e.dw10.toNat / 256 % 8 = sel → featureIds.contains fid = true → sel ≤ 2 →
    (fid = 0x04 → fieldLE dw11 2 1 % 16 ≤ 2 ∧ fieldLE dw11 2 1 / 16 % 4 ≤ 1) → fid ≠ 0x0C → fid ≠ 0x0E → fid ≠ 0x16 →
    exec (.getFeatures c fid sel dw11 addr) s = .next ((u.okCmd c
      (if sel = 0 then u.featureNow c.fn fid dw11 else if sel = 1 then featureDefault fid dw11 else u.featureSaved fid dw11)
      (u.featureSecond fid sel)).after)) ∧
  (∀ (s u : State) (c : NvmeCmd) (e : Sqe) (sel addr : Nat) (dw11 : BitVec 32), s.Granted c e 0x0A#8 u →
    setInEntry 0x0C dw11 e = true → e.dw10.toNat / 256 % 8 = sel → sel ≤ 2 → dataFaults c 0 0 = [] →
    exec (.getFeatures c 0x0C sel dw11 addr) s = .next (((u.emit (.mem c.fn.port addr (apstBytes
        (if sel = 0 then u.pow.apst else if sel = 2 then (match u.hem.savedApst with | none => [] | some p => p.2) else [])))).okCmd c
      (if sel = 0 then u.featureNow c.fn 0x0C dw11 else if sel = 1 then featureDefault 0x0C dw11
        else u.featureSaved 0x0C dw11)).after)) ∧
  (∀ (s u : State) (c : NvmeCmd) (e : Sqe) (fid addr : Nat) (dw11 : BitVec 32), s.Granted c e 0x0A#8 u →
    setInEntry fid dw11 e = true → e.dw10.toNat / 256 % 8 = 3 → featureIds.contains fid = true →
    (fid = 0x04 → fieldLE dw11 2 1 % 16 ≤ 2 ∧ fieldLE dw11 2 1 / 16 % 4 ≤ 1) →
    exec (.getFeatures c fid 3 dw11 addr) s = .next (u.okCmd c (featureCaps fid)).after) ∧
  (∀ (s u : State) (c : NvmeCmd) (e : Sqe) (dw11 : BitVec 32), s.Granted c e 0x09#8 u → setInEntry 0x01 dw11 e = true →
    svOf e = false → (c.nsid = 0#32 ∨ c.nsid = 0xFFFFFFFF#32) → dw11.toNat / 8 % 32 = 0 →
    exec (.setArbitration c dw11) s = .next (((u.updFn c.fn (fun x => { x with arb := dw11 })).okCmd c).after)) ∧
  (∀ (s u : State) (c : NvmeCmd) (e : Sqe) (dw11 : BitVec 32), s.Granted c e 0x09#8 u → setInEntry 0x02 dw11 e = true →
    svOf e = false → (c.nsid = 0#32 ∨ c.nsid = 0xFFFFFFFF#32) → u.isManager c.fn = true → s.pow.step = .none → dw11.toNat ≤ 2 →
    ({ u with pow.opPs := dw11.toNat, pow.target := none, pow.attempts := 0, pow.held := none, pow.step := .none } : State).opState
      = s.pow.ps →
    exec (.setPowerManagement c dw11) s = .next ((({ u with
      pow.opPs := dw11.toNat
      pow.target := none
      pow.attempts := 0
      pow.held := none } : State).okCmd c).after)) ∧
  (∀ (s u v : State) (c : NvmeCmd) (e : Sqe) (dw11 : BitVec 32), s.Granted c e 0x09#8 u → setInEntry 0x02 dw11 e = true →
    svOf e = false → (c.nsid = 0#32 ∨ c.nsid = 0xFFFFFFFF#32) → u.isManager c.fn = true → s.pow.step = .none → dw11.toNat ≤ 2 →
    v = { u with
      pow.opPs := dw11.toNat
      pow.target := none
      pow.attempts := 0
      pow.held := none
      pow.step := .none } → v.opState ≠ s.pow.ps →
    exec (.setPowerManagement c dw11) s =
      .next ((({ v with pow.psCmd := some (c.fn, c.cid) } : State).moveTo v.opState).after)) ∧
  (∀ (s u : State) (c : NvmeCmd) (e : Sqe) (dw11 : BitVec 32), s.Granted c e 0x09#8 u → setInEntry 0x02 dw11 e = true →
    svOf e = false → (c.nsid = 0#32 ∨ c.nsid = 0xFFFFFFFF#32) → u.isManager c.fn = true → s.pow.step = .none →
    (dw11.toNat = 3 ∧ u.pow.polFlags % 2 = 1 ∨ dw11.toNat = 4 ∧ u.pow.polFlags / 2 % 2 = 1) →
    exec (.setPowerManagement c dw11) s = .next (((u.okCmd c).requestNonOp dw11.toNat).after)) ∧
  (∀ (s u : State) (c : NvmeCmd) (e : Sqe) (sel k : Nat) (dw11 : BitVec 32), s.Granted c e 0x09#8 u → setInEntry 0x04 dw11 e = true →
    svOf e = false → (c.nsid = 0#32 ∨ c.nsid = 0xFFFFFFFF#32) → u.isManager c.fn = true → dw11.toNat < 2 ^ 22 →
    sel = fieldLE dw11 2 1 % 16 → sel ≤ 2 → fieldLE dw11 2 1 / 16 % 4 = 0 → k = fieldLE dw11 0 2 →
    exec (.setTemperatureThreshold c dw11) s =
      .next (((({ u with therm.overK := u.therm.overK.set sel k } : State).okCmd c).watchFeature).after)) ∧
  (∀ (s u : State) (c : NvmeCmd) (e : Sqe) (sel k : Nat) (dw11 : BitVec 32), s.Granted c e 0x09#8 u → setInEntry 0x04 dw11 e = true →
    svOf e = false → (c.nsid = 0#32 ∨ c.nsid = 0xFFFFFFFF#32) → u.isManager c.fn = true → dw11.toNat < 2 ^ 22 →
    sel = fieldLE dw11 2 1 % 16 → sel ≤ 2 → fieldLE dw11 2 1 / 16 % 4 = 1 → k = fieldLE dw11 0 2 →
    exec (.setTemperatureThreshold c dw11) s =
      .next (((({ u with therm.underK := u.therm.underK.set sel k } : State).okCmd c).watchFeature).after)) ∧
  (∀ (s u : State) (c : NvmeCmd) (e : Sqe) (dw11 : BitVec 32), s.Granted c e 0x09#8 u → setInEntry 0x07 dw11 e = true →
    svOf e = false → (c.nsid = 0#32 ∨ c.nsid = 0xFFFFFFFF#32) → (∀ q ∈ (u.fn c.fn).sqs, q.qid = 0) →
    (∀ q ∈ (u.fn c.fn).cqs, q.qid = 0) →
    exec (.setNumberOfQueues c dw11) s = .next (u.okCmd c (u.queueCounts c.fn)).after) ∧
  (∀ (s u : State) (c : NvmeCmd) (e : Sqe) (dw11 : BitVec 32), s.Granted c e 0x09#8 u → setInEntry 0x08 dw11 e = true →
    svOf e = false → (c.nsid = 0#32 ∨ c.nsid = 0xFFFFFFFF#32) → dw11.toNat < 2 ^ 16 →
    exec (.setInterruptCoalescing c false dw11) s =
      .next (((u.updFn c.fn (fun x => { x with coal := dw11.extractLsb' 0 16 })).okCmd c).after)) ∧
  (∀ (s u : State) (c : NvmeCmd) (e : Sqe) (v : Nat) (dw11 : BitVec 32), s.Granted c e 0x09#8 u → setInEntry 0x09 dw11 e = true →
    svOf e = false → (c.nsid = 0#32 ∨ c.nsid = 0xFFFFFFFF#32) → dw11.toNat < 2 ^ 17 → v = dw11.toNat % 65536 →
    (u.blockOf c.fn v).isSome = true →
    exec (.setInterruptCoalescing c true dw11) s = .next (((u.updFn c.fn (fun x => { x with
      cds := if dw11.getLsbD 16 then addOnce x.cds v else x.cds.erase v })).okCmd c).after)) ∧
  (∀ (s u : State) (c : NvmeCmd) (e : Sqe) (sv hemOk : Bool) (dw11 : BitVec 32) (table : List (BitVec 64)), s.Granted c e 0x09#8 u →
    setInEntry 0x0C dw11 e = true → svOf e = sv → (c.nsid = 0#32 ∨ c.nsid = 0xFFFFFFFF#32) → u.isManager c.fn = true →
    dw11.toNat < 2 → (table.take 32).zipIdx.all (apstEntryOk u.pow.polFlags) = true → dataFaults c 0 0 = [] →
    (sv = true → u.supply.ewLatched = false ∧ hemOk = true) →
    exec (.setApst c sv dw11 table hemOk) s = .next ((({ u with
      pow.apste := dw11.getLsbD 0
      pow.apst := table.take 32
      hem.savedApst := if sv then some (dw11.getLsbD 0, table.take 32) else u.hem.savedApst } : State).okCmd c).after)) ∧
  (∀ (s u : State) (c : NvmeCmd) (e : Sqe) (timestamp : BitVec 48), s.Granted c e 0x09#8 u → e.dw10.toNat % 256 = 0x0E →
    svOf e = false → (c.nsid = 0#32 ∨ c.nsid = 0xFFFFFFFF#32) → dataFaults c 0 0 = [] →
    exec (.setTimestamp c timestamp) s =
      .next (((u.updFn c.fn (fun x => { x with tsSet := some (timestamp.toNat, u.now) })).okCmd c).after)) ∧
  (∀ (s u : State) (c : NvmeCmd) (e : Sqe) (sv hemOk : Bool) (dw11 dw12 : BitVec 32), s.Granted c e 0x09#8 u →
    setInEntry 0xC2 dw11 e = true → e.dw12 = dw12 → svOf e = sv → (c.nsid = 0#32 ∨ c.nsid = 0xFFFFFFFF#32) →
    u.isManager c.fn = true → (sv = true → u.supply.ewLatched = false ∧ hemOk = true) →
    50 ≤ fieldLE dw11 0 2 → fieldLE dw11 0 2 ≤ 2000 → 1 ≤ dw11.toNat / 65536 % 32 → dw11.toNat / 65536 % 32 ≤ 25 →
    dw11.toNat < 2 ^ 21 → 240 ≤ fieldLE dw12 0 2 → fieldLE dw12 0 2 ≤ 7680 → dw12.toNat < 2 ^ 16 →
    exec (.setDarningControl c sv dw11 dw12 hemOk) s = .next (((({ u with
      hem.savedC2 := if sv then some (dw11, dw12) else u.hem.savedC2 } : State).applyC2 dw11 dw12).okCmd c).after)) ∧
  (∀ (s u : State) (c : NvmeCmd) (e : Sqe) (sv hemOk : Bool) (dw11 dw12 : BitVec 32), s.Granted c e 0x09#8 u →
    setInEntry 0xC3 dw11 e = true → e.dw12 = dw12 → svOf e = sv → (c.nsid = 0#32 ∨ c.nsid = 0xFFFFFFFF#32) →
    u.isManager c.fn = true → (sv = true → u.supply.ewLatched = false ∧ hemOk = true) →
    8 ≤ fieldLE dw11 0 1 → fieldLE dw11 0 1 ≤ 64 → fieldLE dw11 0 1 + 8 ≤ fieldLE dw11 1 1 → fieldLE dw11 1 1 ≤ 128 →
    1 ≤ fieldLE dw11 2 1 → fieldLE dw11 2 1 ≤ 32 → fieldLE dw11 2 1 + 1 ≤ fieldLE dw11 3 1 → fieldLE dw11 3 1 ≤ 64 →
    40 ≤ fieldLE dw12 0 1 → fieldLE dw12 0 1 ≤ 180 → 1 ≤ fieldLE dw12 1 1 → fieldLE dw12 1 1 ≤ 100 →
    1 ≤ fieldLE dw12 2 2 → fieldLE dw12 2 2 ≤ 3600 →
    exec (.setReclamationControl c sv dw11 dw12 hemOk) s = .next ((((({ u with
      hem.savedC3 := if sv then some (dw11, dw12) else u.hem.savedC3 } : State).applyC3 dw11 dw12).okCmd c).tidy).after)) ∧
  (∀ (s u : State) (c : NvmeCmd) (e : Sqe) (sv hemOk : Bool) (dw11 : BitVec 32), s.Granted c e 0x09#8 u →
    setInEntry 0xC4 dw11 e = true → svOf e = sv → (c.nsid = 0#32 ∨ c.nsid = 0xFFFFFFFF#32) → u.isManager c.fn = true →
    (sv = true → u.supply.ewLatched = false ∧ hemOk = true) →
    32 ≤ fieldLE dw11 0 1 → fieldLE dw11 0 1 ≤ 60 → 12 ≤ fieldLE dw11 1 1 → fieldLE dw11 1 1 ≤ 64 → dw11.toNat < 2 ^ 16 →
    exec (.setChannelArbiterControl c sv dw11 hemOk) s = .next (((({ u with
      hem.savedC4 := if sv then some dw11 else u.hem.savedC4 } : State).applyC4 dw11).okCmd c).after)) ∧
  (∀ (s u : State) (c : NvmeCmd) (e : Sqe) (sv hemOk : Bool) (dw11 : BitVec 32), s.Granted c e 0x09#8 u →
    setInEntry 0xC5 dw11 e = true → svOf e = sv → (c.nsid = 0#32 ∨ c.nsid = 0xFFFFFFFF#32) → u.isManager c.fn = true →
    (sv = true → u.supply.ewLatched = false ∧ hemOk = true) →
    8 ≤ fieldLE dw11 0 1 → fieldLE dw11 0 1 ≤ 255 → fieldLE dw11 1 1 = 0 → 1 ≤ fieldLE dw11 2 2 → fieldLE dw11 2 2 ≤ 1000 →
    exec (.setIntakeArbitrationControl c sv dw11 hemOk) s = .next (((({ u with
      hem.savedC5 := if sv then some dw11 else u.hem.savedC5 } : State).applyC5 dw11).okCmd c).after)) ∧
  (∀ (s u : State) (c : NvmeCmd) (e : Sqe) (dw11 : BitVec 32), s.Granted c e 0x09#8 u → setInEntry 0xC6 dw11 e = true →
    svOf e = false → (c.nsid = 0#32 ∨ c.nsid = 0xFFFFFFFF#32) → dw11.toNat < 8 →
    (dw11.getLsbD 0 = true → u.isManager c.fn = true) →
    exec (.setVendorEventConfiguration c dw11) s =
      .next (((u.updFn c.fn (fun x => { x with vec := dw11.extractLsb' 0 3 })).okCmd c).after))

/-- Where these admin commands complete (R253, R256, R257, R259, R262). -/
def Obligations.LogCommands : Prop :=
  (∀ (s u : State) (c : NvmeCmd) (e : Sqe) (lid lsi addr off : Nat) (rae : Bool) (page : List Byte), s.Granted c e 0x02#8 u →
    logInEntry lid lsi rae e = true → (lid = 0x02 → u.composite ≠ none) → u.logData c.fn lid lsi 0 = .inr page →
    off = e.dw12.toNat + e.dw13.toNat * 2 ^ 32 → off % 4 = 0 → off ≤ page.length → dataFaults c 0 0 = [] →
    exec (.getLogPage c lid lsi rae addr) s =
      .next ((((u.emit (.mem c.fn.port addr ((page.drop off).take e.xfer))).logRead c.fn lid rae).okCmd c).after)) ∧
  (∀ (s u : State) (c : NvmeCmd) (e : Sqe) (lsi addr off : Nat) (rae : Bool) (page : List Byte), s.Granted c e 0x02#8 u →
    logInEntry 0xC7 lsi rae e = true → u.logData c.fn 0xC7 lsi 0 = .inr page →
    off = e.dw12.toNat + e.dw13.toNat * 2 ^ 32 → off % 4 = 0 → off ≤ page.length → dataFaults c 0 0 = [] →
    exec (.getLogVendorEvents c lsi rae addr) s =
      .next ((((u.emit (.mem c.fn.port addr ((page.drop off).take e.xfer))).logRead c.fn 0xC7 rae).okCmd c).after)) ∧
  (∀ (s u : State) (c : NvmeCmd) (e : Sqe) (cns csi addr : Nat) (page : List Byte), s.Granted c e 0x06#8 u →
    e.dw10.toNat % 256 = cns → e.dw11.toNat / 2 ^ 24 = csi → u.identifyData c.fn cns csi c.nsid.toNat = .inr page →
    dataFaults c 0 0 = [] →
    exec (.identify c cns csi addr) s = .next (((u.emit (.mem c.fn.port addr page)).okCmd c).after)) ∧
  (∀ (s u : State) (c : NvmeCmd) (e : Sqe) (sqid acid : Nat), s.Granted c e 0x08#8 u → e.dw10.toNat = sqid + acid * 65536 →
    u.host.granted = [] →
    (sqid = 0 ∨ ∀ q, (u.fn c.fn).sq sqid = some q → q.pre.find? (fun x => decide (x.sqe.cmd.cid = acid)) = none) →
    exec (.abort c sqid acid) s = .next (u.okCmd c 1#32).after) ∧
  (∀ (s u : State) (c : NvmeCmd) (e : Sqe) (sqid acid : Nat) (q : Sq) (x : Fetched), s.Granted c e 0x08#8 u →
    e.dw10.toNat = sqid + acid * 65536 → u.host.granted = [] → sqid ≠ 0 → (u.fn c.fn).sq sqid = some q →
    q.pre.find? (fun x => decide (x.sqe.cmd.cid = acid)) = some x →
    exec (.abort c sqid acid) s = .next (((((u.updFn c.fn (fun f => f.updSq sqid (fun q => { q with pre := q.pre.erase x }))).completeFetched
      c.fn sqid x.sqe.cmd nvAborted).okCmd c).tryFetch c.fn sqid).after)) ∧
  (∀ (s u : State) (c : NvmeCmd) (e : Sqe) (x : Nat × Nat × Nat) (r : List (Nat × Nat × Nat)), s.Granted c e 0x0C#8 u →
    (u.fn c.fn).aers.length < 4 → (u.fn c.fn).held = x :: r →
    exec (.asynchronousEventRequest c) s =
      .next (((u.setFn c.fn { u.fn c.fn with held := r }).okCmd c (aenDw0 x.1 x.2.1 x.2.2)).after)) ∧
  (∀ (s u : State) (c : NvmeCmd) (e : Sqe), s.Granted c e 0x0C#8 u → (u.fn c.fn).aers.length < 4 → (u.fn c.fn).held = [] →
    exec (.asynchronousEventRequest c) s = .next ((u.setFn c.fn { u.fn c.fn with
      aers := (u.fn c.fn).aers ++ [c.cid]
      granted := (u.fn c.fn).granted.filter (fun o => !decide (o.sqid = 0 ∧ o.cid = c.cid)) }).after))

/-- What the events of command intake do (R233-R236, R241, R244-R246, R269-R271). -/
def Obligations.IntakeEvents : Prop :=
  (∀ (s u : State) (f : FnId) (qid slot t n : Nat) (v : BitVec 32) (q : Sq), (s.atTime t).fnExists f = true →
    (s.atTime t).tenantOf f = some slot → u = (s.atTime t).wakeUp 1 slot → (u.fn f).sq qid = some q → q.st ≠ .deleting →
    v.toNat < q.size → v.toNat ≠ q.tail → n = (v.toNat + q.size - q.tail) % q.size →
    exec (.sqTailDoorbell f qid 32 v t) s = .next (((({ u with host.captures := u.host.captures + 1 } : State).updFn f
      (fun x => x.updSq qid (fun (p : Sq) => { p with
        tail := v.toNat
        landings := p.landings ++ [(n, u.now)]
        capture := if q.fetchPtr = q.tail then u.host.captures else q.capture }))).fetchAllFns).after)) ∧
  (∀ (s u : State) (f : FnId) (qid slot t : Nat) (v : BitVec 32) (q : Sq), (s.atTime t).fnExists f = true →
    (s.atTime t).tenantOf f = some slot → u = (s.atTime t).wakeUp 1 slot → (u.fn f).sq qid = some q → q.st ≠ .deleting →
    q.size ≤ v.toNat → exec (.sqTailDoorbell f qid 32 v t) s = .next ((u.doorbellError f qid 0x02 1 v.toNat).after)) ∧
  (∀ (s u w : State) (f : FnId) (qid slot : Nat) (v : BitVec 32) (q : Cq), s.fnExists f = true → s.tenantOf f = some slot →
    u = s.wakeUp 1 slot → (u.fn f).cq qid = some q → v.toNat < q.size → (v.toNat + q.size - q.head) % q.size ≤ q.used →
    w = ((u.updFn f (fun x => x.updCq qid (fun (q : Cq) => { q with head := v.toNat }))).drainCq q.waiting.length f qid).settleDeletes f →
    exec (.cqHeadDoorbell f qid 32 v) s = .next ((if qid = 0 then w.tryFetch f 0 else w).after)) ∧
  (∀ (s u : State) (f : FnId) (qid slot : Nat) (v : BitVec 32), s.fnExists f = true → s.tenantOf f = some slot →
    u = s.wakeUp 1 slot → (u.fn f).cq qid = none →
    exec (.cqHeadDoorbell f qid 32 v) s = .next ((u.doorbellError f qid 0x01 0 v.toNat).after)) ∧
  (∀ (s u : State) (f : FnId) (qid : Nat) (es : List Sqe) (q : Sq), (s.fn f).sq qid = some q → q.tags ≠ 0 → q.stale = 0 → es ≠ [] →
    es.length + (q.tags - 1) ≤ q.fetching → (q.tags = 1 → es.length = q.fetching) →
    (∀ e ∈ es, e.cmd.fn = f ∧ e.cmd.sqid = qid) →
    u = (s.setTags f.port (s.fetchTags f.port - 1)).updFn f (fun x => x.updSq qid (fun (q : Sq) =>
      { q with tags := q.tags - 1, asked := q.asked.drop 1, stale := q.stale - 1 })) →
    exec (.sqeArrival f qid es) s = .next ((((es.foldl (fun v e => v.receive f qid (q.asked.headD s.now) e) u).settleDeletes f).fetchAllFns).after)) ∧
  (∀ (s u : State) (t : Nat) (left : Option (List Nat)) (h : Head), u = s.atTime t → u.longestNext = false → u.mayGrant = true →
    u.pickGrant = some (h, left) → exec (.arbiterGrant t) s = .next (((u.turnTaken h left).grant h).after)) ∧
  (∀ (s u : State) (t : Nat) (h : Head), u = s.atTime t → u.longestNext = true → u.mayGrant = true → u.pickOldest = some h →
    exec (.longestWaiterGrant t) s = .next ((u.grant h).after)) ∧
  (∀ (s u : State) (f : FnId) (sqid cid slot t : Nat) (q : Sq) (isIt : Fetched → Bool), u = s.atTime t → u.tenantOf f = some slot →
    (u.fn f).sq sqid = some q → sqid ≠ 0 → (isIt = fun (e : Fetched) => decide (e.sqe.cmd.cid = cid) && !e.urgent &&
      decide (e.landedUs + u.ageUs ≤ u.now)) → q.pre.any isIt = true → queueClass (ccAms (u.fn f).cc) q.prio ≠ 0 →
    exec (.agePromotion f sqid cid t) s = .next ((u.updFn f (fun x => x.updSq sqid (fun (q : Sq) => { q with
      pre := q.pre.map (fun (e : Fetched) => if isIt e then { e with urgent := true, lst := u.now } else e) }))).pbTenant slot 1 1)) ∧
  (∀ (s u : State) (f : FnId) (v t : Nat), u = s.atTime t → ((u.fn f).entry v).gap = true → u.gapOver f v = true →
    exec (.coalescingTimer f v t) s = .next (u.issueMsix f v)) ∧
  (∀ (s u : State) (f : FnId) (v t : Nat), u = s.atTime t → ((u.fn f).entry v).gap = false → ((u.fn f).entry v).unsig ≠ 0 →
    ((u.fn f).entry v).firstUs + u.aggTime f v ≤ u.now →
    exec (.coalescingTimer f v t) s = .next (u.dueMsix f v)) ∧
  (∀ (s : State) (f : FnId) (entry dword : Nat) (v : BitVec 32), s.fnExists f = true → dword < 4 →
    (s.blockOf f entry).isSome = true →
    exec (.msixTableWrite f entry dword v) s = .next ((s.updFn f (fun x => { x with
      msix := Tab.set x.msix entry ((x.entry entry).put dword v) })).unpend f entry)) ∧
  (∀ (s : State) (f : FnId) (entry dword : Nat) (v : BitVec 32), s.blockOf f entry = none →
    exec (.msixTableWrite f entry dword v) s = .next s)

/-- What the reset rows do (R263, R276, R522, R523, R554, R562). -/
def Obligations.ResetEvents : Prop :=
  (∀ (s : State) (f : FnId) (v : BitVec 32), s.fnExists f = true → ccEn v = true → ccEn (s.fn f).cc = false →
    exec (.ccEnable f v) s = .next ((s.writeCc f v).after)) ∧
  (∀ (s : State) (f : FnId), s.fnExists f = true → ccEn (s.fn f).cc = true →
    exec (.controllerReset f) s = .next ((s.controllerReset f).after)) ∧
  (∀ (s : State) (f : FnId) (shn : BitVec 2), s.fnExists f = true → (shn = 1#2 ∨ shn = 2#2) →
    exec (.shutdownNotification f shn) s = .next ((s.shutdown f shn.toNat).after)) ∧
  (∀ (s : State) (f : FnId), s.fnExists f = true → (s.wakeUp 3 65535).supply.ewLatched = false →
    exec (.flr f) s = .next (((s.wakeUp 3 65535).resetFn f true).after)) ∧
  (∀ (s : State) (f : FnId), s.fnExists f = true → (s.wakeUp 3 65535).supply.ewLatched = true →
    exec (.flr f) s = .next (({ s.wakeUp 3 65535 with aon.superseded := true } : State).after)) ∧
  (∀ (s u : State) (p : Port) (w : Nat), 2100 ≤ w → (s.portSt p).perst = false →
    u = (s.updPort p (fun x => { x with perst := true, domainOn := false })).linkLost p → u.supply.ewLatched = false →
    exec (.perstNAssert p w) s = .next ((u.perstReset p).after)) ∧
  (∀ (s : State) (p : Port) (w : Nat), w < 1900 → exec (.perstNAssert p w) s = .next s.after) ∧
  (∀ (s u : State) (p : Port) (t : Nat), (s.portSt p).perst = true → u = s.atTime t →
    exec (.perstNDeassert p t) s = .next ((u.updPort p (fun x => { x with
      perst := false
      domainOn := true
      deassertUs := some u.now })).wakeUp 4 65535)) ∧
  (∀ (s u v : State) (f : FnId) (bme mse me fm : Bool) (t : Nat), (s.atTime t).portThere f.port = true →
    ((s.atTime t).portSt f.port).perst = false → u = (s.atTime t).wakeUp 3 65535 → u.fnExists f = true →
    u.configServed f.port = true → v = u.updFn f (fun x => { x with bme := bme, mse := mse, msixEn := me, fmask := fm }) →
    exec (.configRequest f bme mse me fm true t) s = .next ((v.fn f).msix.foldl (fun s e => s.unpend f e.1) v)) ∧
  (∀ (s : State) (f : FnId) (bme mse me fm : Bool) (t : Nat), (s.atTime t).portThere f.port = true →
    ((s.atTime t).portSt f.port).perst = false →
    exec (.configRequest f bme mse me fm false t) s = .next ((s.atTime t).wakeUp 3 65535)) ∧
  (∀ (s u : State) (p : Port) (n : Nat), s.portThere p = true → s.configServed p = true → n ≤ 1023 → u = s.wakeUp 3 65535 →
    u.supply.ewLatched = false → exec (.numvfsWrite p n) s = .next ((u.setNumVfs p n).after)) ∧
  (∀ (s : State) (p : Port) (n : Nat), s.configServed p = false → exec (.numvfsWrite p n) s = .next s)

/-- What the events of the host ports do (R36, R37, R251, R373, R450, R464, R470). -/
def Obligations.LinkEvents : Prop :=
  (∀ (s u : State) (p : Port) (t : Nat), (s.portSt p).perst = false → (s.portSt p).refclk = true → (s.portSt p).linkUp = false →
    s.portThere p = true → s.supply.portsStopped = false → u = s.atTime t → p = u.mbx.manager →
    exec (.linkUp p t) s = .next { u.updPort p (fun x => { x with linkUp := true, l12 := false, width := u.lanes }) with
      mbx.downSince := none }) ∧
  (∀ (s u : State) (p : Port) (t : Nat), (s.portSt p).perst = false → (s.portSt p).refclk = true → (s.portSt p).linkUp = false →
    s.portThere p = true → s.supply.portsStopped = false →
    u = (s.atTime t).updPort p (fun x => { x with linkUp := true, l12 := false, width := (s.atTime t).lanes }) → p ≠ u.mbx.manager → exec (.linkUp p t) s = .next (if u.managerLost then u.moveManager p else u)) ∧
  (∀ (s u : State) (p : Port) (t : Nat), (s.portSt p).linkUp = true →
    u = (s.atTime t).updPort p (fun x => { x with linkUp := false, l12 := false }) → p = u.mbx.manager → u.mbx.downSince = none →
    u.mbxReady p = true → exec (.linkDown p t) s = .next { u with mbx.downSince := some u.now }) ∧
  (∀ (s u : State) (p : Port) (t : Nat), (s.portSt p).linkUp = true →
    u = (s.atTime t).updPort p (fun x => { x with linkUp := false, l12 := false }) → p ≠ u.mbx.manager →
    exec (.linkDown p t) s = .next u) ∧
  (∀ (s : State) (p : Port) (w : Nat), (s.portSt p).linkUp = true → (w = 1 ∨ w = 2 ∨ w = 4) → w < (s.portSt p).width →
    exec (.laneFailure p w) s = .next (s.updPort p (fun x => { x with width := w }))) ∧
  (∀ (s : State) (p : Port), exec (.malformedTlp p none) s = .next ((s.emit (.aer p none)).hostNote ⟨p, 0⟩ 0x0B 0 0 0)) ∧
  (∀ (s u : State) (f : FnId), s.fnExists f = true → u = s.emit (.aer f.port (some f)) → (u.tenantOf f).isSome = true →
    exec (.malformedTlp f.port (some f)) s = .next ((u.hostViolation f 0x0B 0 0 0).after)) ∧
  (∀ (s : State) (c bursts : Nat) (host : List Byte) (a : HostAnswer),
    exec (.hostErrorCompletion (.shuttle c bursts host) a) s = .next (s.hostBurstFails c bursts host)) ∧
  (∀ (s : State) (f : FnId) (sqid cid : Nat) (a : HostAnswer) (w : Wr), s.writeOf f sqid cid = some w → w.stage = .data →
    w.kind ≠ .zeroes → w.arrived.length < w.len →
    exec (.hostErrorCompletion (.data f sqid cid) a) s =
      .next (((((s.hostWaited w).hostViolation f 0x0A sqid cid 1).dataFail w.id nvTransferError).pump).after)) ∧
  (∀ (s : State) (c bursts : Nat) (host : List Byte),
    exec (.completionTimeout c bursts host) s = .next (s.hostBurstFails c bursts host)) ∧
  (∀ (s u : State) (p : Port) (t : Nat), (s.portSt p).refclk = true → (s.portSt p).linkUp = true →
    u = (s.atTime t).updPort p (fun x => { x with refclk := false }) →
    exec (.refclkLoss p t) s = .next (u.linkLost p)) ∧
  (∀ (s u : State) (p : Port) (t : Nat), (s.portSt p).refclk = true → (s.portSt p).linkUp = false →
    u = (s.atTime t).updPort p (fun x => { x with refclk := false }) → exec (.refclkLoss p t) s = .next u) ∧
  (∀ (s : State) (p : Port) (t : Nat), (s.portSt p).refclk = false →
    exec (.refclkRelock p t) s = .next ((s.atTime t).updPort p (fun x => { x with refclk := true }))) ∧
  (∀ (s : State) (p : Port), exec (.linkL12Entry p) s =
    .next (s.updPort p (fun x => if x.linkUp ∧ !x.perst then { x with l12 := true } else x))) ∧
  (∀ (s u : State) (t : Nat), u = s.atTime t → u.therm.latch = false →
    exec (.nvmeMiMessage true t) s = .next (u.wakeUp 5 0xFFFF)) ∧
  (∀ (s : State) (t : Nat), exec (.nvmeMiMessage false t) s = .next (s.atTime t))

/-- What the rows of power-up do (R418, R419, R468, R469, R522, R552). That a start is one step is the model's choice (log
5). -/
def Obligations.BootEvents : Prop :=
  (∀ (s : State) (b : BootEnv), exec (.powerOn b) s = .next (({ s with therm.latch := false } : State).start b 1)) ∧
  (∀ (s : State) (us : Nat), 0 < us → exec (.supplyReset us) s = .next s.crash) ∧
  (∀ (s : State) (n : Nat), s.clk.src = .rcQualify → (n < 994 ∨ 1054 < n) →
    exec (.crystalQualifyWindow n) s = .next { s with clk.run := 0 }) ∧
  (∀ (s : State) (n : Nat), s.clk.src = .rcQualify → 994 ≤ n → n ≤ 1054 → s.clk.run < 7 →
    exec (.crystalQualifyWindow n) s = .next { s with clk.run := s.clk.run + 1 }) ∧
  (∀ (s : State) (n : Nat), s.clk.src = .rcQualify → 994 ≤ n → n ≤ 1054 → s.clk.run = 7 →
    exec (.crystalQualifyWindow n) s = .next { s with clk.run := 8, clk.bad := 0, clk.src := .crystal }) ∧
  (∀ (s : State) (n : Nat), s.clk.src = .crystal → (n < 994 ∨ 1054 < n) → s.clk.bad = 1 →
    exec (.crystalQualifyWindow n) s = .next (({ s with clk.src := .rcFallback, clk.fault := true, clk.bad := 0 } : State).selvedge
      { source := 4, code := 0x4D, answer := 5 })) ∧
  (∀ (s : State), s.clk.src = .rcQualify →
    exec .rcFallback s = .next (({ s with clk.src := .rcFallback, clk.fault := true, clk.bad := 0 } : State).selvedge
      { source := 4, code := 0x4D, answer := 5 })) ∧
  (∀ (s : State), s.aon.coreReset = true → s.aon.lastReset ≠ 0 → s.aon.testHold = false → s.clk.src ≠ .rcQualify →
    exec (.coreResetRelease true true) s = .next s.coreUp) ∧
  (∀ (s : State) (vcore vsram : Bool), (s.aon.testHold = true ∨ s.clk.src = .rcQualify ∨ vcore = false ∨ vsram = false) →
    exec (.coreResetRelease vcore vsram) s = .next s) ∧
  (∀ (s u : State) (b : BootEnv) (t : Nat), u = s.atTime t → u.supply.ewLatched = true → u.therm.latch = false →
    u.supply.flushing = false → u.supply.prof.minMv ≤ u.supply.bankMv → u.supply.prof.ewMv + 200 ≤ u.supply.vinMv →
    exec (.brownOutRecovery b t) s = .next { u.start b 2 with supply.vinMv := u.supply.vinMv, supply.bankMv := u.supply.bankMv }) ∧
  (∀ (s u : State) (b : BootEnv) (t : Nat), u = s.atTime t → (u.therm.latch = true ∨ u.supply.ewLatched = false) →
    exec (.brownOutRecovery b t) s = .next u)

/-- What the rows of the supply do (R408-R412, R418-R425, R558). -/
def Obligations.SupplyEvents : Prop :=
  (∀ (s u : State) (t : Nat), u = s.atTime t → u.supply.armed = true → u.supply.ewLatched = false →
    exec (.earlyWarning t) s = .next (u.abortTest.warn.driveCharger 0)) ∧
  (∀ (s u : State) (t : Nat), u = s.atTime t → (u.supply.armed = false ∨ u.supply.ewLatched = true) →
    exec (.earlyWarning t) s = .next u) ∧
  (∀ (s u : State) (t vinMv : Nat), u = s.atTime t → u.supply.ewLatched = true → vinMv < u.supply.prof.hardMv →
    u.supply.flushSealed = false → u.supply.holdEn = true →
    exec (.hardThreshold t vinMv) s = .next ({ u with supply.hardHit := true } : State).hardStops) ∧
  (∀ (s u : State) (t vinMv : Nat), u = s.atTime t → u.supply.ewLatched = true → vinMv < u.supply.prof.hardMv →
    u.supply.flushSealed = false → u.supply.holdEn = false →
    exec (.hardThreshold t vinMv) s = .next ({ u with
      supply.hardHit := true
      supply.holdEn := true
      out := .pin 1 1 :: u.out } : State).hardStops) ∧
  (∀ (s u : State) (e : FlushEnd), u = s.atTime e.us → u.supply.flushing = true → u.therm.shutDue = false →
    exec (.flushSeal e) s = .next (u.sealFlush e.fails).charge) ∧
  (∀ (s u : State) (e : FlushEnd), u = s.atTime e.us → u.supply.flushing = true → u.therm.shutDue = true →
    exec (.flushSeal e) s = .next (u.sealFlush e.fails).tripShutdown.charge) ∧
  (∀ (s : State) (vinMv : Nat), s.Calm → s.supply.holdEn = true → s.supply.prof.ewMv + 200 ≤ vinMv →
    exec (.inputReturn vinMv) s = .next { s with supply.holdEn := false, out := .pin 1 0 :: s.out }) ∧
  (∀ (s u : State) (t bankMv vinMv : Nat), u = s.atTime t → u.supply.flushing = true → u.supply.onInput = false →
    bankMv < u.supply.prof.minMv → u.supply.prof.ewMv + 200 ≤ vinMv →
    exec (.bankBelowMin t bankMv vinMv) s = .next { u with
      supply.bankMv := bankMv
      supply.vinMv := vinMv
      supply.onInput := true }) ∧
  (∀ (s u v : State) (t bankMv vinMv : Nat), u = s.atTime t → u.supply.flushing = true → u.supply.onInput = false →
    bankMv < u.supply.prof.minMv → vinMv < u.supply.prof.ewMv + 200 →
    v = { u with supply.bankMv := bankMv, supply.vinMv := vinMv } →
    exec (.bankBelowMin t bankMv vinMv) s = .next { v.crash with
      supply.ewLatched := true
      supply.vinMv := vinMv
      supply.bankMv := bankMv }) ∧
  (∀ (s : State) (vinMv : Nat), s.supply.armed = false → s.supply.prof.ewMv + 200 ≤ vinMv →
    exec (.comparatorArm vinMv) s = .next ({ s with supply.armed := true, supply.vinMv := vinMv } : State).charge) ∧
  (∀ (s : State) (vinMv bankMv : Nat) (measMa : Int),
    exec (.vinSample vinMv bankMv measMa) s = .next ((({ s with
      supply.vinMv := vinMv
      supply.vinMinMv := min s.supply.vinMinMv vinMv
      supply.bankMv := bankMv
      supply.measMa := measMa } : State).pbExtreme 3 vinMv).pbExtreme 4 vinMv).charge) ∧
  (∀ (s u : State) (t bankMv : Nat) (dq : Int),
    u = ({ s.atTime t with supply.bankMv := bankMv, supply.qUc := s.supply.qUc + dq } : State).gaugeTick →
    exec (.gaugeUpdate t bankMv dq) s = .next (u.pbExtreme 5 ((u.eUsed / 2000000000 : Nat) : Int))) ∧
  (∀ (s : State) (t : Nat), exec (.capRecompute t) s = .next (s.atTime t).recap.tryTest) ∧
  (∀ (s u : State) (t y v : Nat), u = s.atTime t → u.supply.capNext = some (y, v) → v + 100000 ≤ u.now →
    exec (.capRaiseDelay t) s = .next ({ u with supply.capEffKib := y, supply.capNext := none } : State).noteCap) ∧
  (∀ (s u : State) (t : Nat), u = s.atTime t → u.testFree = true → u.pow.ps < 3 → u.supply.testRetry = none →
    u.supply.lastTestUs + u.supply.prof.testPeriodH * 3600000000 ≤ u.now →
    exec (.capacitanceTestPeriod t) s = .next (u.startTest none)) ∧
  (∀ (s u : State) (t v : Nat), u = s.atTime t → u.testFree = true → u.supply.testRetry = some v → v + 60000000 ≤ u.now →
    exec (.capacitanceTestRetry t) s = .next (u.startTest none)) ∧
  (∀ (s u : State) (t v : Nat), u = s.atTime t → u.supply.testWait = some v → v + 1000000 ≤ u.now → u.supply.testCmd = none →
    exec (.capacitanceTestWaitLimit t) s = .next ({ u.stopTest with supply.testRetry := some u.now } : State).releaseHeld) ∧
  (∀ (s u : State) (t v : Nat) (c : MbxCmd), u = s.atTime t → u.supply.testWait = some v → v + 1000000 ≤ u.now →
    u.supply.testCmd = some c →
    exec (.capacitanceTestWaitLimit t) s = .next ((u.stopTest.mbxFinish c stBusyRetry 0xFFFF 0 0).releaseHeld)) ∧
  (∀ (s u v : State) (t dq dv c res : Nat) (timedOut : Bool), u = s.atTime t → u.supply.testRun ≠ none →
    c = (if dv = 0 then 0 else dq * 1000 / dv) →
    res = (if timedOut = true ∨ 2 * c < u.supply.prof.cRatedUf then 3 else if 10 * c < 8 * u.supply.prof.cRatedUf then 2 else 1) →
    v = ({ u with
      supply.cMeasUf := c
      supply.cTested := true
      supply.lastTest := res
      supply.lastTestUs := u.now
      supply.backupFailed := decide (res = 3) || (u.supply.backupFailed && decide (res ≠ 1))
      supply.noSealWarn := u.supply.noSealWarn && decide (res ≠ 1) } : State).pbExtreme 16 c →
    exec (.capacitanceTestEnd t dq dv timedOut) s = .next (match u.supply.testCmd with
      | none => (if res = 1 then v.anchor else v).stopTest
      | some m => (if res = 1 then v.anchor else v).stopTest.mbxFinish m stOk 0xFFFF 0 (testResult c res u.testMs)).releaseHeld.after)

/-- What the rows of the power states do (R449, R454-R466). -/
def Obligations.PowerEvents : Prop :=
  (∀ (s u : State) (t itps itpt : Nat), u = s.atTime t → u.apstOf u.pow.ps = (itps, itpt) → u.pow.apste = true → u.idle = true →
    3 ≤ itps → itps ≤ 4 → u.pow.ps < itps → u.psPermitted itps = true → u.pow.step = .none → u.lastCall = false →
    u.pow.idleUs + itpt * 1000 ≤ u.now →
    exec (.idleTimerExpiry t) s = .next (u.enterNonOp itps true)) ∧
  (∀ (s u : State) (t : Nat), u = s.atTime t → u.pow.apste = false → exec (.idleTimerExpiry t) s = .next u) ∧
  (∀ (s u : State) (t : Nat), u = s.atTime t → u.pow.step = .drain → u.drained = true →
    exec (.powerDrainEnd t) s = .next (({ u with pb.ckptDue := u.pb.ckptDue || u.pb.dirty } : State).beginStops).after) ∧
  (∀ (s u : State) (t : Nat), u = s.atTime t → u.pow.step = .drain → u.drained = false →
    exec (.powerDrainEnd t) s = .next u.spillAll.after) ∧
  (∀ (s u : State) (d t : Nat), u = s.atTime t → u.asked = some d → u.stopCond d = true →
    exec (.domainStopAnswer d true t) s = .next ((u.stopped d).finishVcore).after) ∧
  (∀ (s u : State) (d t : Nat) (a : Bool), u = s.atTime t → u.asked = some d → (a = false ∨ u.stopCond d = false) →
    exec (.domainStopAnswer d a t) s = .next (u.refuseStop d).after) ∧
  (∀ (s u : State) (d t : Nat), u = s.atTime t → u.asked = some d →
    exec (.domainStopTimeout d t) s = .next (u.refuseStop d).after) ∧
  (∀ (s u : State) (t n : Nat), u = s.atTime t → u.pow.step = .retryWait → u.pow.target = some n →
    exec (.entryRetry t) s = .next (u.enterNonOp n u.pow.auto)) ∧
  (∀ (s u : State) (t n : Nat), u = s.atTime t → u.pow.step = .retryWait → u.pow.target = none → u.pow.pendPs = some n →
    exec (.entryRetry t) s = .next (u.moveTo n)) ∧
  (∀ (s u v : State) (d t : Nat), u = s.atTime t → u.pow.toStart.head? = some d → u.pow.settling = false →
    v = { u.startDomain d with pow.toStart := (u.startDomain d).pow.toStart.tail } → v.pow.toStart ≠ [] →
    exec (.domainStartDone d t) s = .next v.after) ∧
  (∀ (s u v : State) (d t : Nat), u = s.atTime t → u.pow.toStart.head? = some d → u.pow.settling = false →
    v = { u.startDomain d with pow.toStart := (u.startDomain d).pow.toStart.tail } → v.pow.toStart = [] → v.pow.step = .starts →
    exec (.domainStartDone d t) s = .next v.exitDone.after) ∧
  (∀ (s u v : State) (d t : Nat), u = s.atTime t → u.pow.toStart.head? = some d → u.pow.settling = false →
    v = { u.startDomain d with pow.toStart := (u.startDomain d).pow.toStart.tail } → v.pow.toStart = [] → v.pow.step = .rollback →
    exec (.domainStartDone d t) s = .next v.rollbackDone.after) ∧
  (∀ (s u : State) (source t : Nat) (k : Option Nat), u = s.atTime t → 1 ≤ source → source ≤ 7 → u.therm.latch = false →
    exec (.wake source t k) s = .next (u.wakeUp source (k.getD 0xFFFF)).after) ∧
  (∀ (s u : State) (source t : Nat) (k : Option Nat), u = s.atTime t → u.therm.latch = true →
    exec (.wake source t k) s = .next u.after) ∧
  (∀ (s u v : State) (p : Port) (t : Nat), u = s.atTime t → v = u.updPort p (fun x => { x with l12 := false }) →
    (u.portSt p).l12 = true → v.pow.stopped.contains (2 + portNo p) = true → v.therm.latch = false →
    exec (.l12Exit p t) s = .next (v.wakeUp 3 0xFFFF).after) ∧
  (∀ (s u v : State) (p : Port) (t : Nat), u = s.atTime t → v = u.updPort p (fun x => { x with l12 := false }) →
    v.pow.stopped.contains (2 + portNo p) = false → exec (.l12Exit p t) s = .next v.after) ∧
  (∀ (s u v : State) (t : Nat), u = s.atTime t → u.pow.settling = true →
    v = { u with pow.settling := false, pow.vcore := u.pow.vid, pow.settledUs := u.now } →
    (v.pow.step = .vcoreDown → exec (.vcoreSettled t) s = .next v.entered.after) ∧
    (v.pow.step = .vcoreUp → exec (.vcoreSettled t) s = .next v.beginStarts.after) ∧
    (v.pow.step = .moving → v.supply.ewLatched = false → exec (.vcoreSettled t) s = .next v.moveNext.finishVcore.after) ∧
    (v.pow.step = .none → exec (.vcoreSettled t) s = .next v.after)) ∧
  (∀ (s u : State) (t : Nat), u = s.atTime t → 3 ≤ u.pow.ps → u.pow.psUs + u.pow.maintH * 3600000000 ≤ u.now →
    u.therm.latch = false → exec (.maintenanceWake t) s = .next (u.wakeUp 7 0xFFFF)) ∧
  (∀ (s u : State) (t : Nat), u = s.atTime t → u.pow.ps < 3 → exec (.maintenanceWake t) s = .next u)

/-- What the thermal rows do (R222, R475-R478, R482-R484). -/
def Obligations.ThermalEvents : Prop :=
  (∀ (s u : State) (reading t : Nat), u = (s.atTime t).gaugeHold → 1 ≤ reading → reading ≤ 2500 →
    exec (.gaugeWindowEnd reading t) s = .next ((u.gaugeReading reading).gaugeFloor reading)) ∧
  (∀ (s u : State) (reading t : Nat), u = (s.atTime t).gaugeHold → (reading = 0 ∨ 2500 < reading) →
    exec (.gaugeWindowEnd reading t) s = .next u.gaugeDiscard) ∧
  (∀ (s u : State) (i t : Nat), u = s.atTime t → i < 16 → (u.remote i).enabled = true → (u.remote i).converting = false →
    u.mayConvert true i (u.remote i).startUs = true →
    exec (.sensorConversionStart true i t) s = .next { u with
      therm.remotes := Tab.set u.therm.remotes i { u.remote i with converting := true, startUs := some u.now } }) ∧
  (∀ (s u : State) (i t : Nat), u = s.atTime t → i < 24 → (u.sensor i).failed = false → (u.sensor i).converting = false →
    u.mayConvert false i (u.sensor i).startUs = true →
    exec (.sensorConversionStart false i t) s = .next { u with
      therm.sensors := Tab.set u.therm.sensors i { u.sensor i with converting := true, startUs := some u.now } }) ∧
  (∀ (s u : State) (i t : Nat) (x : Int) (broken : Bool), u = (s.atTime t).accrueHeat → (u.remote i).converting = true →
    exec (.sensorConversionDone true i x broken t) s = .next (if broken then u.remoteBroken i else u.remoteConversion i x)) ∧
  (∀ (s u : State) (i t : Nat) (x : Int) (broken : Bool), u = (s.atTime t).accrueHeat → (u.sensor i).converting = true →
    exec (.sensorConversionDone false i x broken t) s = .next (u.dieConversion i x)) ∧
  (∀ (s u : State) (t l : Nat) (lower : Option Nat), u = (s.atTime t).accrueHeat →
    fallOf u.therm.ld u.dieTarget u.therm.ldLower u.now = (l, lower) →
    exec (.commaLevelDescent t) s = .next { u with
      therm.ld := l
      therm.ldLower := lower
      therm.l15Us := if l < 15 then none else u.therm.l15Us
      therm.remotes := u.therm.remotes.map (fun p => (p.1, { p.2 with
        level := (fallOf p.2.level (u.remoteTarget p.1) p.2.lower u.now).1
        lower := (fallOf p.2.level (u.remoteTarget p.1) p.2.lower u.now).2 })) }) ∧
  (∀ (s u : State) (t v : Nat), u = (s.atTime t).accrueHeat → u.therm.l15Us = some v → v + 100000 ≤ u.now → u.therm.hold = false →
    exec (.thermalHold t) s = .next ((({ u with therm.hold := true } : State).pbCount 5 1).vendorEventAll 2 0x84 0xFFFF 0)) ∧
  (∀ (s u : State) (t v : Nat), u = (s.atTime t).accrueHeat → u.therm.l15Us = some v → (u.now < v + 100000 ∨ u.therm.hold = true) →
    exec (.thermalHold t) s = .next s)

/-- What the rows of the records do (R388, R491-R503, R511). -/
def Obligations.RecordEvents : Prop :=
  (∀ (s u : State) (t : Nat), u = s.atTime t → u.pb.msUs + 1000 ≤ u.now → u.now < u.pb.secUs + 1000000 → u.gauge.now ≠ 0 →
    u.gauge.fault = false →
    exec (.histogramSample t) s = .next (({ u with pb.msUs := u.now } : State).pbSample none 192 (bucketC 40 u.gauge.now))) ∧
  (∀ (s u : State) (t : Nat), u = s.atTime t → u.now < u.pb.msUs + 1000 → u.pb.secUs + 1000000 ≤ u.now →
    exec (.histogramSample t) s = .next (({ u with pb.secUs := u.now, rd.darnSec := [] } : State).pbSamples u.secondSamples)) ∧
  (∀ (s u : State) (t : Nat), u = s.atTime t → u.ckptDue = true → u.supply.ewLatched = false → u.pbFrozen = false →
    exec (.pbCheckpoint t true) s = .next { u with
      pb.savedHist := u.pb.hist
      pb.savedExtremes := u.pb.extremes
      pb.savedCounters := u.pb.counters
      pb.savedUs := u.now
      pb.copy := 1 - u.pb.copy
      pb.dirty := false
      pb.ckptDue := false
      pb.deferred := false }) ∧
  (∀ (s u : State) (t : Nat) (ok : Bool), u = s.atTime t → u.ckptDue = true → u.supply.ewLatched = false → u.pbFrozen = true →
    exec (.pbCheckpoint t ok) s = .next { u with pb.deferred := true }) ∧
  (∀ (s u : State) (t e : Nat), u = s.atTime t → u.pb.frozen = some e → e ≤ u.now →
    exec (.pbFreezeExpiry t) s = .next u.pbRelease) ∧
  (∀ (s u : State) (t e : Nat), u = s.atTime t → u.pb.frozen = some e → u.now < e → exec (.pbFreezeExpiry t) s = .next s) ∧
  (∀ (s u : State) (k t : Nat) (x : Tenant), u = s.atTime t → u.tenant k = some x → x.epochEndUs ≤ u.now →
    exec (.epochClose k t) s = .next (u.closeEpoch k 0)) ∧
  (∀ (s u : State) (k t : Nat) (x : Tenant), u = s.atTime t → u.tenant k = some x → u.now < x.epochEndUs →
    exec (.epochClose k t) s = .next u) ∧
  (∀ (s u : State) (t : Nat), u = s.atTime t → u.supply.ewLatched = false →
    exec (.epochSave t) s = .next (u.host.tenants.foldl (fun s p => s.updTenant p.1 (fun t =>
      { t.accrue s.now with savedMeters := (t.accrue s.now).meters })) u)) ∧
  (∀ (s : State) (e : SelvEntry) (q : List SelvEntry), s.selv.queue = e :: q → s.drains = true →
    exec .selvedgeDrain s = .next { s with
      selv.queue := q
      selv.ring := newest 4096 (s.selv.ring ++ [e])
      selv.unflushed := min 4096 (s.selv.unflushed + 1) }) ∧
  (∀ (s u : State) (t : Nat), u = s.atTime t → u.supply.ewLatched = false → u.selv.unflushed ≠ 0 → u.selv.lastFlushUs + 100000 ≤ u.now →
    exec (.selvedgeHemFlush t true) s = .next { u with
      selv.lastFlushUs := u.now
      selv.hem := newest 256 (u.selv.hem ++ newest u.selv.unflushed u.selv.ring)
      selv.unflushed := 0 }) ∧
  (∀ (s u : State) (t : Nat) (ok : Bool), u = s.atTime t → (u.supply.ewLatched = true ∨ u.selv.unflushed = 0 ∨ u.now < u.selv.lastFlushUs + 100000) →
    exec (.selvedgeHemFlush t ok) s = .next s)

/-- What these rows do (R16, R37, R42, R48, R51, R357, R398, R467, R529). -/
def Obligations.ManagerEvents : Prop :=
  (∀ (s u : State) (t : Nat), u = s.atTime t → u.hem.actStep ≠ 0 → u.hem.actStep ≠ 9 → u.hem.actUs + 1000000 ≤ u.now →
    exec (.activationTimeout t) s = .next (u.revert 5).after) ∧
  (∀ (s u : State) (t d : Nat), u = s.atTime t → u.mbx.failover = true → u.mbx.downSince = some d → d + 2000000 ≤ u.now →
    (u.portSt u.mbx.manager).linkUp = false → (u.portSt (otherPort u.mbx.manager)).linkUp = true →
    u.pow.policyDue = false → ∃ w, exec (.managerFailover t) s = .next w ∧ w.mbx.manager = otherPort u.mbx.manager ∧ w.mbx.movePending = none ∧
      w.mbx.downSince = none ∧ w.mbxPort (otherPort u.mbx.manager) = (u.mbxPort (otherPort u.mbx.manager)).takesRole ∧
      (w.mbxPort u.mbx.manager).waiting = [] ∧ (∀ c ∈ w.mbx.accepted, c.posted = false)) ∧
  (∀ (s u : State) (t e : Nat), u = s.atTime t → u.dbg.authUntil = some e → e ≤ u.now →
    exec (.debugAuthExpiry t) s =
      .next ((({ u with dbg.authUntil := none, dbg.perms := 0#8 } : State).disarm).authNote 3)) ∧
  (∀ (s u : State) (t n e : Nat), u = s.atTime t → u.dbg.nonce = some (n, e) → e + 600000000 ≤ u.now →
    exec (.debugNonceExpiry t) s = .next { u with dbg.nonce := none }) ∧
  (∀ (s : State), s.aon.ledHold = true → s.aon.ledActive = false →
    exec .ledActHoldEnd s = .next { s with aon.ledHold := false, out := .pin 3 1 :: s.out }) ∧
  (∀ (s : State) (p : Port) (value : BitVec 32) (h : BitVec 6), s.portThere p = true → s.mbx.manager = p →
    h = value.extractLsb' 0 6 → (h - (s.mbxPort p).head).toNat ≤ (s.mbxPort p).posted →
    exec (.mbxCqHeadWrite p value) s = .next (((s.setMbxPort p { s.mbxPort p with
      head := h
      posted := (s.mbxPort p).posted - (h - (s.mbxPort p).head).toNat }).mbxDrain (s.mbxPort p).waiting.length p).policySettle)) ∧
  (∀ (s : State) (p : Port) (value : BitVec 32), s.portThere p = true →
    (s.mbx.manager ≠ p ∨ (s.mbxPort p).posted < (value.extractLsb' 0 6 - (s.mbxPort p).head).toNat) →
    exec (.mbxCqHeadWrite p value) s = .next (s.mbxReject p value.toNat)) ∧
  (∀ (s : State) (value : BitVec 64), s.mem.lock = false →
    exec (.registerWrite .dmCfg 0 32 value) s = .next { s with
      mem.mapOrder := BitVec.ofNat 2 (value.toNat % 2 ^ 32)
      mem.lock := (value.toNat % 2 ^ 32).testBit 2 }) ∧
  (∀ (s : State) (value : BitVec 64), s.mem.lock = true →
    exec (.registerWrite .dmCfg 0 32 value) s =
      .next (s.selvedge { source := 1, code := 0x0E, detail := value.toNat % 2 ^ 32 })) ∧
  (∀ (s : State) (p : Port) (env : MbxEnv) (value : BitVec 64), s.portThere p = true → s.therm.latch = false →
    exec (.registerWrite (.bar2 p env) 0x2008 32 value) s =
      .next (s.updMbxPort p (fun x => { x with
        irqEn := (value.toNat % 2 ^ 32).testBit 0
        vector := BitVec.ofNat 11 (value.toNat % 2 ^ 32 / 65536) })).after) ∧
  (∀ (s : State) (p : Port) (env : MbxEnv) (value : BitVec 64), s.portThere p = true → s.therm.latch = false →
    (value.toNat % 2 ^ 32).testBit 4 = true →
    exec (.registerWrite (.bar2 p env) 0x2004 32 value) s = .next (s.updMbxPort p (fun x => { x with dbErr := false })).after) ∧
  (∀ (s : State) (p : Port) (env : MbxEnv) (value : BitVec 64), s.portThere p = true → s.therm.latch = false →
    exec (.registerWrite (.bar2 p env) 0x2000 32 value) s = .next (s.mbxDoorbell p (value.toNat % 2 ^ 32) env).after) ∧
  (∀ (s : State) (off width : Nat) (env : MbxEnv) (value : BitVec 64), s.portThere .a = true → s.therm.latch = false →
    0x1000 ≤ off → off < 0x2000 → 8 ≤ width →
    exec (.registerWrite (.bar2 .a env) off width value) s = .next s.after) ∧
  (∀ (s : State) (f : FnId) (x : Fn) (value : BitVec 64), s.fnExists f = true → (s.tenantOf f).isSome = true → x = s.fn f →
    exec (.registerWrite (.bar0 f) 0x30 64 value) s =
      .next (s.setFn f { x with acq := value }).after) ∧
  (∀ (s : State) (value : BitVec 64), s.pow.vid = 3 → value.toNat % 2 = 0 →
    exec (.registerWrite .flashRate 0 8 value) s = .next (s.selvedge { source := 4, code := 0x48, detail := value.toNat % 2 ^ 8 })) ∧
  (∀ (s : State) (value : BitVec 64), s.pow.vid ≠ 3 → s.pow.settling = false →
    exec (.registerWrite .flashRate 0 8 value) s = .next { s with pow.flashSlow := decide (value.toNat % 2 = 1) }) ∧
  (∀ (s : State) (value : BitVec 64), value.toNat % 4 = 3 → s.flashFast = true →
    exec (.registerWrite .vcoreVid 0 8 value) s = .next (s.selvedge { source := 4, code := 0x48, detail := value.toNat % 2 ^ 8 })) ∧
  (∀ (s : State) (value : BitVec 64), (value.toNat % 4 ≠ 3 ∨ s.flashFast = false) →
    exec (.registerWrite .vcoreVid 0 8 value) s = .next (s.setVid (value.toNat % 4)))

/-- What the rows of the memories and of Shuttle DMA do (R352, R369-R374). Details of Shuttle the manual leaves open are in
log 43. -/
def Obligations.MemoryEvents : Prop :=
  (∀ (s u : State) (c t : Nat), u = s.atTime t → u.dramRuns c = true →
    exec (.dramCalibration c t) s = .next { u with mem.calUs := u.now, mem.calibrations := u.mem.calibrations + 1 }) ∧
  (∀ (s : State) (c bank : Nat), s.dramRuns c = true → bank < 16 →
    exec (.dramRefresh c bank) s = .next { s with mem.refreshes := Tab.bump s.mem.refreshes (c * 16 + bank) 1 }) ∧
  (∀ (s : State) (c bank : Nat), (s.dramRuns c = false ∨ 16 ≤ bank) → exec (.dramRefresh c bank) s = .next s) ∧
  (∀ (s u : State) (c t : Nat) (region : EccRegion) (result : EccResult) (passEnd : Bool),
    u = (s.atTime t).scrubResult false region (frayRead result []) →
    exec (.scrubRead false c region result passEnd t) s = .next ((if passEnd then u.passEnd false else u).after)) ∧
  (∀ (s u v : State) (c t : Nat) (region : EccRegion) (result : EccResult) (passEnd : Bool), u = (s.atTime t).scrubWait c region →
    (s.atTime t).dramRuns c = true → v = (u.frayScrub c).2.scrubResult true region (frayRead result (u.frayScrub c).1) →
    exec (.scrubRead true c region result passEnd t) s = .next ((if passEnd then v.passEnd true else v).after)) ∧
  (∀ (s : State) (c : Nat) (v : BitVec 32), c < 64 →
    exec (.shtPtrWrite c v) s = .next ((s.setShtCh c { s.shtCh c with tail := v.toNat % 64 }).shtStart c)) ∧
  (∀ (s : State) (c : Nat) (v : BitVec 32), c < 64 →
    exec (.shtCtrlWrite c v) s = .next ((s.setShtCh c { s.shtCh c with
      enable := v.getLsbD 0
      halted := (s.shtCh c).halted && !v.getLsbD 1
      retry := v.toNat / 4 % 8
      share := v.toNat / 256 % 256 }).shtStart c)) ∧
  (∀ (s : State) (c : Nat) (v : BitVec 32), c < 64 → (s.shtCh c).enable = false → 2 ≤ v.toNat / 2 ^ 20 % 128 →
    v.toNat / 2 ^ 20 % 128 ≤ 64 →
    exec (.shtRingWrite c v) s =
      .next (s.setShtCh c { s.shtCh c with base := v.toNat % 2 ^ 19, entries := v.toNat / 2 ^ 20 % 128 })) ∧
  (∀ (s : State) (c : Nat) (v : BitVec 32), c < 64 → (s.shtCh c).enable = true →
    exec (.shtRingWrite c v) s = .next (s.selvedge { source := 4, code := 0x49, loc := c, detail := v.toNat })) ∧
  (∀ (s : State) (c : Nat) (v : BitVec 32), 64 ≤ c → exec (.shtPtrWrite c v) s = .next s ∧ exec (.shtCtrlWrite c v) s = .next s ∧
    exec (.shtRingWrite c v) s = .next s) ∧
  (∀ (s : State) (c : Nat) (host : List Byte) (x : ShtCh), x = s.shtCh c → x.running = true → x.failed = false →
    s.descRefused x = false → s.descStopped x = none →
    exec (.shuttleDescriptorComplete c host none) s = .next ((s.shtMove c (x.len - x.done) host).shtDone c)) ∧
  (∀ (s : State) (c : Nat) (e : SourceError) (host : List Byte) (x : ShtCh), x = s.shtCh c → x.running = true → x.failed = false →
    s.descRefused x = false → s.descStopped x = none → spacePort x.srcSpace = none →
    exec (.shuttleDescriptorComplete c host (some e)) s =
      .next (((((s.shtMove c (64 * min e.bursts ((x.len - x.done - 1) / 64)) host).countSource x).shtEnd c 2).eccOutcome
        e.region e.bothCopies).after)) ∧
  (∀ (s : State) (c : Nat) (host : List Byte) (u : Option SourceError) (x : ShtCh), x = s.shtCh c → x.running = true → x.failed = false →
    s.descRefused x = true → exec (.shuttleDescriptorComplete c host u) s = .next (s.shtEnd c 4)) ∧
  (∀ (s u : State) (c n : Nat) (host : List Byte) (x y : ShtCh), x = s.shtCh c → x.running = true → x.failed = true →
    y = { x with failed := false, retries := min (x.retries + 1) 255, burstTries := x.burstTries + 1 } →
    u = ({ s with mem.shuttleRetries := s.mem.shuttleRetries + 1 } : State).setShtCh c y → u.descStopped y = none →
    n = min 64 (y.len - y.done) →
    exec (.shuttleBurstRetry c true host) s =
      .next (if y.len ≤ y.done + n then ((u.setShtCh c { y with burstTries := 0 }).shtMove c n host).shtDone c
        else (u.setShtCh c { y with burstTries := 0 }).shtMove c n host)) ∧
  (∀ (s u : State) (c : Nat) (host : List Byte) (x y : ShtCh), x = s.shtCh c → x.running = true → x.failed = true →
    y = { x with failed := false, retries := min (x.retries + 1) 255, burstTries := x.burstTries + 1 } →
    u = ({ s with mem.shuttleRetries := s.mem.shuttleRetries + 1 } : State).setShtCh c y → u.descStopped y = none →
    exec (.shuttleBurstRetry c false host) s = .next (u.shtFail c))

/-- What the rows of the Hem store do (R377, R380-R382, R385). -/
def Obligations.HemEvents : Prop :=
  (∀ (s : State) (k : Nat) (b : HemBank) (o : HemOp) (pass : Bool), b = s.hemBank k → b.prog = some o → (pass = true ∨ o.tried = true) →
    exec (.hemProgramComplete k pass) s =
      .next (((s.setHemBank k { b with prog := none }).hemProgrammed o.what pass).hemAfterNested k)) ∧
  (∀ (s : State) (k : Nat) (b : HemBank) (o : HemOp), b = s.hemBank k → b.prog = some o → o.tried = false →
    exec (.hemProgramComplete k false) s = .next (s.setHemBank k { b with prog := some { o with tried := true } })) ∧
  (∀ (s : State) (k : Nat) (b : HemBank) (o : HemOp) (pass : Bool), b = s.hemBank k → b.prog = none → b.op = some o →
    o.erase = false → (pass = true ∨ o.tried = true) →
    exec (.hemProgramComplete k pass) s = .next (((s.setHemBank k { b with op := none }).hemProgrammed o.what pass).hemNext k false)) ∧
  (∀ (s : State) (k : Nat) (b : HemBank) (o : HemOp), b = s.hemBank k → b.prog = none → b.op = some o → o.erase = false →
    o.tried = false → exec (.hemProgramComplete k false) s = .next (s.setHemBank k { b with op := some { o with tried := true } })) ∧
  (∀ (s : State) (k : Nat) (b : HemBank) (o : HemOp), b = s.hemBank k → b.op = some o → o.erase = true → o.suspended = false →
    o.what ≠ .gap → exec (.hemEraseComplete k true) s = .next ((s.countHemErase.setHemBank k { b with op := none }).hemNext k true)) ∧
  (∀ (s : State) (k : Nat) (b : HemBank) (o : HemOp), b = s.hemBank k → b.op = some o → o.erase = true → o.suspended = false →
    o.what = .gap → s.countHemErase.lastCall = false →
    exec (.hemEraseComplete k true) s = .next (s.countHemErase.setHemBank k { b with op := some (HemOp.of false .gap) })) ∧
  (∀ (s : State) (k : Nat) (b : HemBank) (o : HemOp), b = s.hemBank k → b.op = some o → o.erase = true → o.suspended = false →
    o.tried = false → exec (.hemEraseComplete k false) s = .next (s.setHemBank k { b with op := some { o with tried := true } })) ∧
  (∀ (s : State) (k : Nat) (b : HemBank) (o : HemOp), b = s.hemBank k → b.op = some o → o.erase = true → o.suspended = false →
    o.tried = true → exec (.hemEraseComplete k false) s = .next ((s.setHemBank k { b with op := none }).hemEraseFailed k o.what)) ∧
  (∀ (s : State) (k : Nat) (b : HemBank) (e f : HemOp), b = s.hemBank k → b.op = some e → e.erase = true → e.suspended = false →
    e.suspensions < 16 → f = { e with suspended := true, suspensions := e.suspensions + 1 } →
    exec (.hemEraseSuspend k) s = .next (match s.hemReady b with
      | none => s.setHemBank k { b with op := some f }
      | some o => s.setHemBank k { op := some { f with inWindow := 1 }, prog := some o, queue := b.queue.erase o })) ∧
  (∀ (s : State) (k : Nat) (b : HemBank) (e : HemOp), b = s.hemBank k → b.op = some e → 16 ≤ e.suspensions →
    exec (.hemEraseSuspend k) s = .next s) ∧
  (∀ (s : State) (k : Nat) (b : HemBank) (e : HemOp), b = s.hemBank k → b.op = some e → e.suspended = true → b.prog = none →
    exec (.hemSuspendWindowEnd k) s = .next (s.setHemBank k b.resume)) ∧
  (∀ (s : State) (k : Nat) (b : HemBank) (e o : HemOp), b = s.hemBank k → b.op = some e → e.suspended = true → b.prog = some o →
    exec (.hemSuspendWindowEnd k) s = .next (s.setHemBank k { b with op := some { e with inWindow := 3 } })) ∧
  (∀ (s u : State) (b : HemBank), s.hem.moveDue = true → s.lastCall = false →
    u = { s with hem.moveDue := false, hem.recordErases := s.hem.recordErases - 64 } → b = u.hemBank s.gapBank →
    exec .hemWindowMove s = .next (u.setHemBank s.gapBank (if b.idle then { b with op := some (HemOp.of true .gap) }
      else { b with queue := b.queue ++ [HemOp.of true .gap] }))) ∧
  (∀ (s u : State) (t : Nat) (a b : MarginRead), u = s.atTime t → u.hem.marginUs + 2592000000000 ≤ u.now →
    exec (.hemMarginCheck t a b) s = .next { u with
      hem.marginUs := u.now
      hem.corrected := u.hem.corrected + (a.corrected + b.corrected)
      hem.twinA := u.hem.twinA.margin a.ok
      hem.twinB := u.hem.twinB.margin b.ok }) ∧
  (∀ (s u : State) (t : Nat) (a b : MarginRead), u = s.atTime t → u.now < u.hem.marginUs + 2592000000000 →
    exec (.hemMarginCheck t a b) s = .next u)

/-- What the rows of the Tailor pairs and the channel buses do (R214-R218, R223-R228). -/
def Obligations.EngineEvents : Prop :=
  (∀ (s : State) (p t : Nat) (c : TrapCause), exec (.tailorTrap p t c) s = .next (((s.atTime t).trapPair p).after)) ∧
  (∀ (s u : State) (p t : Nat), u = s.atTime t → u.pairSt p = 0 → exec (.heartbeatMiss p t) s = .next ((u.trapPair p).after)) ∧
  (∀ (s u : State) (p t : Nat), u = s.atTime t → u.pairSt p ≠ 0 → exec (.heartbeatMiss p t) s = .next u.after) ∧
  (∀ (s : State) (p : Nat) (pass third : Bool), s.pairSt p = 2 →
    third = decide (3 ≤ (s.eng.trapTimes.filter (fun x => decide (x.1 = p ∧ s.now < x.2 + 86400000000))).length) →
    exec (.selfTestDone p pass) s = .next ((if pass = false ∨ third = true then s.retirePair p
      else if s.eng.dead = true then ({ s with eng.dead := false, eng.retiredPairs := s.eng.retiredPairs.filter (· ≠ p) } : State).pairBack p
      else if s.hem.actStep ≠ 0 ∧ s.hem.actStep ≠ 9 then s.switchNext p else s.pairBack p).after)) ∧
  (∀ (s : State) (p : Nat), s.pairSt p = 4 → exec (.selfTestDone p true) s = .next ((s.switchNext p).after)) ∧
  (∀ (s : State) (p : Nat), s.pairSt p = 4 → exec (.selfTestDone p false) s = .next (((s.setPair p 2).revert 2).after)) ∧
  (∀ (s : State) (c : Nat) (x y z : Chan) (r : BusReq), (s.channel c).decided = none → y = (s.channel c).window1 s.chan.hpQuota →
    z = { y with reqs := y.reqs.filter (fun q => !s.commaHolds q) } → z.pick = some r → y.masked = true → x = y.take r →
    (s.channel c).granted = none → exec (.busArbiterDecision c) s = .next ((s.setChan c x).startGrant c r)) ∧
  (∀ (s : State) (c : Nat) (y z : Chan) (r : BusReq), (s.channel c).decided = none → y = (s.channel c).window1 s.chan.hpQuota →
    z = { y with reqs := y.reqs.filter (fun q => !s.commaHolds q) } → z.pick = some r →
    (y.maskedNow && z.reqs.any (fun q => decide (q.level = .high)) && !y.masked) = false → (s.channel c).granted.isSome = true →
    exec (.busArbiterDecision c) s = .next (s.setChan c { y.take r with decided := some r })) ∧
  (∀ (s : State) (c : Nat) (x y z : Chan) (r : BusReq), (s.channel c).decided = none →
    y = (s.channel c).window1 s.chan.hpQuota → z = { y with reqs := y.reqs.filter (fun q => !s.commaHolds q) } → z.pick = some r →
    y.maskedNow = true → z.reqs.any (fun q => decide (q.level = .high)) = true → y.masked = false →
    (s.channel c).granted.isSome = true → x = ({ y with masked := true } : Chan).take r →
    exec (.busArbiterDecision c) s = .next (({ s with chan.quotaMasks := s.chan.quotaMasks + 1 } : State).setChan c
      { x with decided := some r })) ∧
  (∀ (s : State) (c : Nat) (r : BusReq), (s.channel c).granted = some r → (s.channel c).idleNull = false →
    exec (.busTransactionEnd c) s = .next ((((s.setChan c { s.channel c with granted := none }).busDone r).nextGrant c).after)) ∧
  (∀ (s u v : State) (c t : Nat) (d : DieId) (r : BusReq), u = s.atTime t → (u.channel c).granted = some r →
    (u.channel c).idleNull = false → d = dieOfKey r.die → (r.who = 4 ∨ r.bobbin = u.holder (roleOf d)) → 4 ≤ r.who →
    v = ({ u with chan.cutoffs := u.chan.cutoffs + 1 } : State).setChan c { u.channel c with
      granted := none
      reqs := r :: (u.channel c).reqs } →
    exec (.holdCutoff c t) s = .next (((v.selvedge
      { source := 2, code := 0x23, loc := dieLoc d, detail := r.bobbin * 256 + busOpNo r.what, answer := 3 }).nextGrant c).after)) ∧
  (∀ (s u v : State) (c t b : Nat) (d : DieId) (r : BusReq) (cuts : List Nat), u = s.atTime t → (u.channel c).granted = some r →
    (u.channel c).idleNull = false → d = dieOfKey r.die → b = r.bobbin → b = u.holder (roleOf d) → r.who < 4 →
    v = ({ u with chan.cutoffs := u.chan.cutoffs + 1 } : State).setChan c { u.channel c with
      granted := none
      reqs := r :: (u.channel c).reqs } →
    cuts = u.now :: (v.bobbin b).cutoffs.filter (fun y => decide (u.now < y + 1000000)) → 3 ≤ cuts.length →
    exec (.holdCutoff c t) s = .next (((((v.selvedge
      { source := 2, code := 0x23, loc := dieLoc d, detail := b * 256 + busOpNo r.what, answer := 4 }).setBobbin b { v.bobbin b with cutoffs := cuts }).bobbinFailed b 5).nextGrant c).after)) ∧
  (∀ (s u v : State) (c t b : Nat) (d : DieId) (r : BusReq) (cuts : List Nat), u = s.atTime t → (u.channel c).granted = some r →
    (u.channel c).idleNull = false → d = dieOfKey r.die → b = r.bobbin → b ≠ u.holder (roleOf d) → r.who < 4 →
    v = ({ u with chan.cutoffs := u.chan.cutoffs + 1 } : State).setChan c { u.channel c with granted := none } →
    cuts = u.now :: (v.bobbin b).cutoffs.filter (fun y => decide (u.now < y + 1000000)) → cuts.length < 3 →
    exec (.holdCutoff c t) s = .next ((((v.selvedge
      { source := 2, code := 0x23, loc := dieLoc d, detail := b * 256 + busOpNo r.what, answer := 3 }).setBobbin b { v.bobbin b with cutoffs := cuts }).nextGrant c).after))

/-- What the request messages do (R199-R213). The numbers of message fields are the model's (log 22). -/
def Obligations.BobbinRequests : Prop :=
  (∀ (s u : State) (x : BobbinMsg) (m : BMsg) (bulk : Bool), m = bmsgOf x vRead → s.Accepted m u →
    exec (.bobbinRead x bulk) s = .next (((u.newOp.2.setReqOp m u.newOp.1).submitRead m.die
      ((u.newOp.2.setReqOp m u.newOp.1).readOf m u.newOp.1 (if bulk then .bulk else .latency))).tidy)) ∧
  (∀ (s u : State) (x : BobbinMsg) (m : BMsg), m = bmsgOf x vComponent → s.Accepted m u →
    exec (.readComponent x) s = .next (((u.newOp.2.setReqOp m u.newOp.1).submitRead m.die
      ((u.newOp.2.setReqOp m u.newOp.1).readOf m u.newOp.1 .component)).tidy)) ∧
  (∀ (s u : State) (x : BobbinMsg) (m : BMsg), m = bmsgOf x vProgram → s.Accepted m u →
    exec (.program x) s = .next (((u.newOp.2.setReqOp m u.newOp.1).submitProg m.die
      ((u.newOp.2.setReqOp m u.newOp.1).progOf m u.newOp.1)).tidy)) ∧
  (∀ (s u : State) (x : BobbinMsg) (m : BMsg), m = bmsgOf x vErase → s.Accepted m u →
    exec (.erase x) s = .next (((u.newOp.2.setReqOp m u.newOp.1).submitErase m.die
      { EraseRun.fresh (2 ^ 18) (u.colOf m.die) (objField m.object 111 13) m.src u.newOp.1 with
        slc := m.object.getLsbD 124 }).tidy)) ∧
  (∀ (s u : State) (x : BobbinMsg) (m : BMsg) (q : Req) (hit : List DieId), m = bmsgOf x vCancel → s.Accepted m u →
    u.reqOf m.src (objField m.object 0 16) = some q → q.op ≠ 0 → q.role = m.role →
    hit = (u.diesOf m.role).filter (fun d =>
      (u.die d).reads.any (fun r => decide (r.id = q.op)) || (u.die d).progs.any (fun p => decide (p.opId = q.op ∧ p.kind = .raw)) ||
        (u.die d).eraseQ.any (fun e => decide (e.opId = q.op))) → hit ≠ [] →
    exec (.cancel x) s = .next (((hit.foldl (fun s d => s.updDie d (fun x => { x with
      reads := x.reads.filter (fun r => decide (r.id ≠ q.op))
      progs := x.progs.filter (fun p => !decide (p.opId = q.op ∧ p.kind = .raw))
      eraseQ := x.eraseQ.filter (fun e => decide (e.opId ≠ q.op)) })) u).respond q.op false 0).answer m 0x20 0#128)) ∧
  (∀ (s u : State) (x : BobbinMsg) (m : BMsg), m = bmsgOf x vCancel → s.Accepted m u →
    u.reqOf m.src (objField m.object 0 16) = none → exec (.cancel x) s = .next (u.answer m 0x20 0#128)) ∧
  (∀ (s u v : State) (x : BobbinMsg) (m : BMsg), m = bmsgOf x vToken → s.Accepted m u → v = u.answer m 0x20 0#128 →
    ((List.range 16).filter (fun c => (u.die (u.dieOf (u.groupOf m.die) (16 * (u.colOf m.die / 16) + c))).token)).length <
      v.tokenCount (u.groupOf m.die) (u.colOf m.die / 16) →
    v.darnUnissued (u.groupOf m.die) (u.colOf m.die / 16) = false → (u.die m.die).token = false →
    (u.die m.die).failed = false → (u.die m.die).progs.any ProgOp.takesToken = true →
    exec (.tokenGrant x) s = .next ((v.setDie m.die { u.die m.die with
      token := true
      tokenForced := false }).settle m.die)) ∧
  (∀ (s u v : State) (x : BobbinMsg) (m : BMsg), m = bmsgOf x vReset → s.Accepted m u → v = u.answer m 0x20 0#128 →
    v.dieFailed m.die = false →
    exec (.dieReset x) s = .next (((v.settleAborted m.die true).busRaise m.die .recovery .reset).after)) ∧
  (∀ (s u v : State) (x : BobbinMsg) (m : BMsg) (d : DieId) (r : List DieId), m = bmsgOf x vAdopt → s.fray 2 m.dest 0 = ([], v) →
    u = v.takeReq m → u.isBobbin m.dest = true → u.pow.stopped.contains (u.bobbinDomain m.dest) = false →
    (u.bobbin m.dest).fenced = false → (u.role m.role).st = .adopting → (u.role m.role).owner = m.dest →
    (u.role m.role).epoch = m.epoch → (u.bobbin m.dest).st = .spare → u.diesOf m.role = d :: r →
    exec (.adopt x) s = .next ((((u.setBobbin m.dest { u.bobbin m.dest with
      st := .owns
      role := some m.role
      epoch := m.epoch
      gave := none }).answer m 0x20 0#128).busRaise d .recovery .sweep).after)) ∧
  (∀ (s u v w : State) (x : BobbinMsg) (m : BMsg), m = bmsgOf x vHandover → s.fray 2 m.dest 0 = ([], v) →
    u = v.takeReq m → u.isBobbin m.dest = true → u.pow.stopped.contains (u.bobbinDomain m.dest) = false →
    (u.bobbin m.dest).fenced = false → (u.bobbin m.dest).st = .owns →
    (u.bobbin m.dest).role = some m.role → (u.bobbin m.dest).epoch = m.epoch → (u.role m.role).st = .active →
    w = ((u.dropQueued m.role).answer m 0x20 0#128).setBobbin m.dest { u.bobbin m.dest with
      st := .reloading
      role := none
      gave := some m.role } →
    exec (.handover x) s = .next (w.sendAdopt m.role (w.readySpare.getD m.dest))) ∧
  (∀ (s u : State) (x : BobbinMsg) (m : BMsg), (u.isBobbin m.dest = true → u.pow.stopped.contains (u.bobbinDomain m.dest) = false) →
    (u.isBobbin m.dest = false ∨ (u.bobbin m.dest).fenced = true) →
    (∀ v, m = bmsgOf x vHandover → s.fray 2 m.dest 0 = ([], v) → u = v.takeReq m → exec (.handover x) s = .next (u.bounceReq m)) ∧
    (∀ v, m = bmsgOf x vAdopt → s.fray 2 m.dest 0 = ([], v) → u = v.takeReq m → exec (.adopt x) s = .next ((u.bounceReq m).after)))

/-- What the reply messages and the faults of bobbins do (R199-R213). The numbers of message fields are the model's (log 22).
-/
def Obligations.BobbinReplies : Prop :=
  (∀ (s : State) (x : BobbinMsg), exec (.done x) s =
    .next (((s.takeRsp (bmsgOf x 0x20)).dropReq x.dest.toNat x.opId.toNat).after)) ∧
  (∀ (s u : State) (x : BobbinMsg) (m : BMsg), m = bmsgOf x 0x21 → u = s.takeRsp m →
    exec (.dataReady x) s = .next { u with eng.reqs := u.eng.reqs.map (fun (q : Req) =>
      if q.src = m.dest ∧ q.opId = m.opId then (if q.verb = vRead ∨ q.verb = vComponent then { q with ready := true } else q) else q) }) ∧
  (∀ (s u : State) (x : BobbinMsg) (m : BMsg) (q : Req), m = bmsgOf x 0x22 → u = s.takeRsp m → u.reqOf m.dest m.opId = some q →
    q.op = 0 → q.answered = false → q.epoch = m.epoch → q.dest = m.src → u.isBobbin q.dest = true → q.role < u.roles →
    exec (.bounce x) s = .next (match (u.role q.role).st with
      | .active => u.resend q
      | .adopting => { u with eng.reqs := u.eng.reqs.map (fun (y : Req) =>
          if y.src = q.src ∧ y.opId = q.opId then { y with held := true } else y) }
      | .none => u.settleNone q)) ∧
  (∀ (s u : State) (x : BobbinMsg) (m : BMsg) (q : Req), m = bmsgOf x 0x22 → u = s.takeRsp m → u.reqOf m.dest m.opId = some q →
    q.op = 0 → q.answered = false → q.epoch = m.epoch → q.dest = m.src → (u.isBobbin q.dest = false ∨ u.roles ≤ q.role) →
    exec (.bounce x) s = .next (u.settleNone q)) ∧
  (∀ (s u : State) (x : BobbinMsg) (m : BMsg) (q : Req), m = bmsgOf x 0x22 → u = s.takeRsp m → u.reqOf m.dest m.opId = some q →
    q.epoch ≠ m.epoch → exec (.bounce x) s = .next u) ∧
  (∀ (s u : State) (x : BobbinMsg) (m : BMsg), m = bmsgOf x 0x23 → u = s.takeRsp m → (u.die m.die).token = true →
    (u.die m.die).prog = none →
    exec (.tokenReturn x) s = .next (((u.setDie m.die { u.die m.die with token := false, tokenForced := false }).grantTokens
      (u.groupOf m.die) (u.colOf m.die / 16)).settle m.die)) ∧
  (∀ (s : State) (x : BobbinMsg), exec (.fault x) s =
    .next (((s.takeRsp (bmsgOf x 0x24)).dropReq x.dest.toNat x.opId.toNat).after)) ∧
  (∀ (s u : State) (x : BobbinMsg) (m : BMsg), m = bmsgOf x 0x30 → u = { s with eng.ctrl := s.eng.ctrl.erase m } →
    (u.role m.role).st = .active → (u.role m.role).epoch = m.epoch →
    exec (.epochAdvance x) s = .next (((u.eng.reqs.filter (fun q =>
      decide (q.role = m.role ∧ (q.epoch ≠ m.epoch ∨ q.held)) && !q.answered)).foldl State.resend u).after)) ∧
  (∀ (s : State) (t : Nat), exec (.livenessProbe t) s = .next { s.atTime t with eng.probed := true }) ∧
  (∀ (s u : State) (b t : Nat), u = s.atTime t → u.eng.probed = true →
    exec (.probeTimeout b t) s = .next ((u.bobbinFailed b 1).after)) ∧
  (∀ (s u : State) (b t : Nat), u = s.atTime t → u.eng.probed = false → exec (.probeTimeout b t) s = .next u.after) ∧
  (∀ (s : State) (b t : Nat), exec (.heldInputTimeout b t) s = .next (((s.atTime t).bobbinFailed b 2).after)) ∧
  (∀ (s u : State) (b t : Nat) (cause : BobbinFault), u = s.atTime t → (cause ≠ .spareCheck ∨ (u.bobbin b).st = .spare) →
    (cause ≠ .microcode ∨ u.hem.actBobbins.contains b = false) →
    exec (.bobbinSelfFault b cause t) s = .next ((u.bobbinFailed b (faultCause cause)).after)) ∧
  (∀ (s u : State) (b t : Nat), u = s.atTime t → (u.hem.actStep = 6 ∨ u.hem.actStep = 7) → u.hem.actBobbins.contains b = true →
    exec (.bobbinSelfFault b .microcode t) s = .next (((u.bobbinFailed b 4).revert 4).after))

/-- What the rows of the read path do (R141-R161, R516). A status byte that is impossible is a free value (log 11). -/
def Obligations.ReadPathEvents : Prop :=
  (∀ (s : State) (d : DieId), (s.die d).reading ≠ [] → (s.die d).dataOut = false → s.busPending d .readCmd = false →
    exec (.arrayReadDone d) s = .next (s.arrayDone d).after) ∧
  (∀ (s : State) (d : DieId) (r : DieRead) (rs : List DieRead), (s.die d).reading = r :: rs → (s.die d).dataOut = true →
    s.busPending d .dataOut = false →
    exec (.dataOutDone d) s =
      .next ((((s.fray 1 d.ch (if s.servesHost r then 1 else 0)).2.dataOutEnd d).pumpInbox.tidy).after)) ∧
  (∀ (s : State) (opId : Nat) (corrected : Option Nat) (soft : Bool), (s.laneOf opId soft).isSome = true →
    exec (.ldpcDecodeDone opId corrected soft) s =
      .next (((s.decodeDone opId corrected soft).retryDarns.pumpInbox.tidy).after)) ∧
  (∀ (s u : State) (group t : Nat), u = s.atTime t → ((u.bucket group).exhausted = true ∨ (u.bucket group).inOver = true) →
    ((u.rd.depth * 10 ^ 9 : Nat) : Int) ≤ 2 * (u.bucket group).level →
    exec (.darnExhaustionEnd group t) s =
      .next ((u.setBucket group { u.bucket group with exhausted := false, inOver := false }).retryDarns.after)) ∧
  (∀ (s u : State) (t : Nat), u = s.atTime t → u.rd.windowUs + 10000 ≤ u.now →
    exec (.darnWindowBoundary t) s = .next ({ u with
      rd.windowUs := u.now - u.now % 10000
      rd.buckets := u.rd.buckets.map (fun (p : Nat × Bucket) => (p.1, { p.2 with charges := [] })) } : State).after) ∧
  (∀ (s : State) (d : DieId) (e : EraseRun), (s.die d).erase = some e → e.suspended = false → s.busPending d .eraseConfirm = false →
    s.busPending d .resume = false →
    exec (.eraseMinSegmentEnd d) s =
      .next ((s.setDie d { s.die d with erase := some { e with segmentDone := true } }).settle d)) ∧
  (∀ (s : State) (d : DieId) (e : EraseRun), (s.die d).erase = some e → e.suspending = true → s.busPending d .suspend = false →
    exec (.eraseSuspendLatencyEnd d) s = .next ((s.setDie d { s.die d with erase := some { e with
      suspending := false
      suspended := true
      segmentDone := false
      progsInWindow := 0
      ranUs := e.ranUs + (s.now - e.resumedUs)
      resumedUs := s.now } }).settle d)) ∧
  (∀ (s : State) (d : DieId) (opId : Nat), (∃ r ∈ (s.die d).reads, r.id = opId ∧ r.serves = .bulk) →
    exec (.bulkReadAge d opId) s = .next ((s.setDie d { s.die d with
      reads := (s.die d).reads.map (fun (r : DieRead) =>
        if r.id = opId ∧ r.serves = .bulk then { r with waited2ms := true } else r) }).settle d)) ∧
  (∀ (s : State) (d : DieId), (s.die d).token = true → (s.die d).prog = none →
    exec (.tokenDeferralLimit d) s = .next ((s.setDie d { s.die d with tokenForced := true }).settle d)) ∧
  (∀ (s u : State) (d : DieId) (impossible recovers : Bool) (t : Nat), u = s.atTime t → u.geo.media = true → d.ch < u.channels →
    d.pos < u.geo.n → (u.die d).failed = false → impossible = false → (u.die d).operating = true →
    exec (.dieStatusTimeout d impossible recovers t) s = .next (((u.selvedge
      { source := 2, code := 0x21, loc := dieLoc d, detail := 0, answer := 3 }).recoverDie d recovers).after)) ∧
  (∀ (s u : State) (d : DieId) (recovers : Bool) (t : Nat), u = s.atTime t → u.geo.media = true → d.ch < u.channels →
    d.pos < u.geo.n → (u.die d).failed = false →
    exec (.dieStatusTimeout d true recovers t) s = .next (((u.draw.2.selvedge
      { source := 2, code := 0x22, loc := dieLoc d, detail := u.draw.1 % 256, answer := 3 }).recoverDie d recovers).after))

/-- What the rows of reclamation do (R168-R190). -/
def Obligations.ReclaimEvents : Prop :=
  (∀ (s : State) (bolt : Nat) (hemOk : Bool), s.eraseHead (boltGroup bolt) = some bolt → s.intentRoom = true → s.lastCall = false →
    s.blockErasing = false →
    exec (.boltEraseStart bolt hemOk) s = .next (s.startErasing bolt hemOk).tidy) ∧
  (∀ (s : State) (d : DieId) (e : EraseRun) (found : StatusRead) (hemOk : Bool) (us : Nat), (s.die d).erase = some e → e.suspended = false →
    e.suspending = false → s.adopting d = false → s.busPending d .eraseConfirm = false → s.busPending d .resume = false →
    exec (.eraseStatusRead d found us hemOk) s =
      .next ((if found.again = true ∧ (s.die d).adopted = true then s.eraseAgain d else if wipeMark ≤ e.bolt then s.wipeStatus d e found.pass hemOk us else s.eraseStatus d found.pass hemOk us).pump.after)) ∧
  (∀ (s : State) (item : Nat) (it : Item), item < 2 ^ 32 → s.item item = some it → it.urg ≠ .urgent →
    (ageLimit s.recl.mergeAgeS it.kind).isSome = true →
    exec (.itemAgePromotion item) s = .next ((((s.setItem { it with urg := .urgent }).urgeReads it.id).countPromotion).tidy)) ∧
  (∀ (s : State) (bolt : Nat), ((s.bolt bolt).st = .released ∨ (s.bolt bolt).st = .erasing) → (s.bolt bolt).urgent = false →
    exec (.itemAgePromotion (2 ^ 32 + bolt)) s = .next (s.setBolt bolt { s.bolt bolt with urgent := true }).countPromotion) ∧
  (∀ (s : State) (group : Nat) (it : Item) (r : List Item), s.waitingMerges group = it :: r → s.groupIdle group = true →
    exec (.mergeIdleTimer group) s = .next (s.startMerge it).tidy) ∧
  (∀ (s : State) (tenant region : Nat) (it : Item), s.recl.items.find? (fun i => match i.kind with
      | .merge t x _ => decide (t = tenant ∧ x = region ∧ !i.running)
      | _ => false) = some it → it.urg ≠ .background →
    exec (.mergeStart tenant region) s = .next (s.startMerge it).tidy) ∧
  (∀ (s : State) (bolt : Nat) (kind : MoveKind) (it : Item),
    s.recl.items.find? (fun i => decide (i.bolt = bolt) && moveNames kind i.kind && !i.running) = some it →
    exec (.relocationStart bolt kind) s = .next (s.startRelocation it).tidy) ∧
  (∀ (s u v : State) (bolt pick : Nat), (s.bolt bolt).st = .bound → (s.bolt bolt).patrolDue s.now = true →
    u = (s.setBolt bolt { s.bolt bolt with patrolUs := some s.now }).queueItem .patrol bolt →
    v = { u with recl.items := u.recl.items.map (fun (i : Item) =>
      if i.id = s.recl.nextItem then { i with running := true, cur := s.patrolSectors bolt pick } else i) } →
    s.patrolSectors bolt pick ≠ [] →
    exec (.mediaPatrolSample bolt pick) s =
      .next ((v.groupPages ((s.patrolSectors bolt pick).map (fun p => (p.2 / 2 ^ 20, p.2 % 2 ^ 20)))).foldl (fun (w : State) g =>
        w.subRead .internal s.recl.nextItem (((s.bolt bolt).use.tenant).getD 1024) w.now false g.1 g.2.1 g.2.2) v)) ∧
  (∀ (s : State) (bolt pick : Nat), ((s.bolt bolt).st ≠ .bound ∨ (s.bolt bolt).patrolDue s.now = false) →
    exec (.mediaPatrolSample bolt pick) s = .next s)

/-- What the rows of the write path do (R107-R136). -/
def Obligations.WritePathEvents : Prop :=
  (∀ (s u : State) (f : FnId) (sqid cid sector : Nat) (data : SectorData) (md : BitVec 64) (w : Wr), s.writeOf f sqid cid = some w →
    w.stage = .data → w.kind ≠ .zeroes → sector < w.len → w.arrived.contains sector = false → w.dataErr = [] →
    u = (if w.arrived.length + 1 = w.len then s.hostWaited w else s) →
    exec (.hostDataArrival f sqid cid sector data md) s =
      .next (((u.sealSector w sector data (if (u.tenantD w.tenant).lbaf = 1 then md else 0#64)).markReady).after)) ∧
  (∀ (s u : State) (lane : Nat) (tagOk : Bool) (j : SeamJob), Tab.find s.rd.lanes lane = some j →
    u = ({ s with rd.lanes := Tab.del s.rd.lanes lane } : State).seamAssign → j.isRead = true →
    exec (.seamLaneComplete lane tagOk) s = .next ((u.laneRead j tagOk).tidy.after)) ∧
  (∀ (s u : State) (lane : Nat) (tagOk : Bool) (j : SeamJob) (w : Wr), Tab.find s.rd.lanes lane = some j →
    u = ({ s with rd.lanes := Tab.del s.rd.lanes lane } : State).seamAssign → j.isRead = false → u.write j.cmd = some w →
    exec (.seamLaneComplete lane tagOk) s = .next ((if u.keyReadable w.keySlot w.keyGen then u.sectorSealed w.id j.sector
      else (u.dataFail w.id nvAccessDenied).pump).after)) ∧
  (∀ (s u : State) (channel : Nat) (d : Drain) (r q : List Drain), Tab.get [] s.mem.drains channel = d :: r →
    q = (if d.left - 1 = 0 then r else { d with left := d.left - 1 } :: r) →
    u = { s with mem.drains := if q = [] then Tab.del s.mem.drains channel else Tab.set s.mem.drains channel q } →
    exec (.dramWriteDrain channel) s =
      .next (if u.draining d.wr d.sector then u.after else ((u.sectorProtected d.wr d.sector).markReady).after)) ∧
  (∀ (s u : State) (f : FnId) (sqid cid t : Nat) (w : Wr), u = s.atTime t → u.writeOf f sqid cid = some w → u.ready123 w = true →
    u.lastCall = false → u.supply.armed = true → u.exposed + w.len ≤ u.capSectors → u.noneBlocked w = true →
    exec (.commitPoint f sqid cid t) s = .next (((u.commit w).pump.tidy).after)) ∧
  (∀ (s u : State) (f : FnId) (sqid cid t : Nat) (w : Wr), u = s.atTime t → u.writeOf f sqid cid = some w → u.ready123 w = true →
    u.lastCall = false → u.supply.armed = true → u.capSectors < u.exposed + w.len →
    exec (.commitPoint f sqid cid t) s = .next ((u.updWrite w.id (fun x => { x with capWait := true })).spillOldest.after)) ∧
  (∀ (s u : State) (f : FnId) (sqid cid t : Nat) (w : Wr), u = s.atTime t → u.writeOf f sqid cid = some w →
    (u.ready123 w = false ∨ u.lastCall = true ∨ u.supply.armed = false) →
    exec (.commitPoint f sqid cid t) s = .next u.after) ∧
  (∀ (s : State) (tenant nsid index : Nat) (p : Partial),
    s.wr.partials.find? (fun p => decide (p.tenant = tenant ∧ p.nsid = nsid ∧ p.index = index)) = some p →
    exec (.spillTimerExpiry tenant nsid index) s = .next ((s.spillPartial p).after)) ∧
  (∀ (s : State) (die : DieId) (found : StatusRead) (us : Nat), s.busPending die .progConfirm = false → s.adopting die = false →
    (found.again = false ∨ (s.die die).adopted = false) →
    exec (.programStatusRead die found us) s = .next (((s.progStatus die found.pass true us).pump).after)) ∧
  (∀ (s : State) (die : DieId) (found : StatusRead) (us : Nat), s.busPending die .progConfirm = false → s.adopting die = false →
    found.again = true → (s.die die).adopted = true →
    exec (.programStatusRead die found us) s = .next ((s.progAgain die).pump.after))

/-- What the SPDM rows answer (R338, R339). The codes, order and errors are PRESUMED (log 42), digests symbolic (log 7). -/
def Obligations.SpdmRequests : Prop :=
  ∀ s u : State, s.aon.booted = true → s.aon.coreReset = false → u = s.wakeUp 5 0xFFFF →
    exec .getVersion s = .next (({ u with aon.spdmVersion := true, aon.spdmAlg := false } : State).emit (.spdm 0x04 [0x11, 0x12])) ∧
    (u.aon.spdmVersion = true → exec .getCapabilities s = .next (u.emit (.spdm 0x61 [0x16]))) ∧
    (u.aon.spdmVersion = false → exec .getCapabilities s = .next (u.spdmError 4)) ∧
    (u.aon.spdmVersion = true → ∀ e h : Bool, (e = true ∨ h = true) → exec (.negotiateAlgorithms e h) s =
      .next (({ u with aon.spdmAlg := e && h } : State).emit (.spdm 0x63 [e.toNat, h.toNat]))) ∧
    (u.aon.spdmVersion = true → exec (.negotiateAlgorithms false false) s = .next (u.spdmError 7)) ∧
    (u.aon.spdmAlg = true → exec .getDigests s = .next (u.emit (.spdm 0x01 [0, Config.digest 7 0]))) ∧
    (u.aon.spdmAlg = true → ∀ o l, exec (.getCertificate 0 o l) s = .next (u.emit (.spdm 0x02 [0, o, l, Config.digest 8 o]))) ∧
    (u.aon.spdmAlg = true → ∀ n : BitVec 256, exec (.challenge 0 n) s =
      .next (u.emit (.spdm 0x03 [0, Config.digest 7 0, n.toNat, Config.digest 9 n.toNat]))) ∧
    (u.aon.spdmAlg = true → ∀ n : BitVec 256, exec (.getMeasurements 0 n) s =
      .next (u.emit (.spdm 0x60 [u.measurements.length, n.toNat, Config.digest 9 n.toNat]))) ∧
    (u.aon.spdmAlg = true → ∀ (i : Nat) (n : BitVec 256), i ≠ 0 → i ≠ 0xFF → (∃ p ∈ u.measurements, p.1 = i) →
      exec (.getMeasurements i n) s = .next (u.emit (.spdm 0x60
        (((u.measurements.filter (fun p => decide (p.1 = i))).flatMap (fun p => [p.1, p.2])) ++ [n.toNat, Config.digest 9 n.toNat])))) ∧
    (u.aon.spdmAlg = false → ∀ (i l o : Nat) (n : BitVec 256), exec .getDigests s = .next (u.spdmError 4) ∧
      exec (.getCertificate i o l) s = .next (u.spdmError 4) ∧ exec (.challenge i n) s = .next (u.spdmError 4) ∧
      exec (.getMeasurements i n) s = .next (u.spdmError 4))

/-- The word of a bobbin message (R200) drops no bit of its fields. -/
def Obligations.BobbinMessageWord : Prop :=
  (∀ (m : BobbinMsg) (v : BitVec 6), BobbinMsg.ofWord (m.word v) = (m, v)) ∧
  (∀ (m : BobbinMsg) (v : BitVec 6), (m.word v).extractLsb' 168 2 = 0#2 ∧ (m.word v).extractLsb' 128 1 = 0#1) ∧
  (∀ w : BitVec 192, w.extractLsb' 168 2 = 0#2 → w.extractLsb' 128 1 = 0#1 →
    (BobbinMsg.ofWord w).1.word (BobbinMsg.ofWord w).2 = w)

/-- The XOR of a darn gives back what was stored (R74, R149). -/
def Obligations.DarningRebuildsStored : Prop :=
  (∀ (s : State) (b half row d x : Nat), d < 15 → s.darned b half row d x = s.stored b (dataOff (s.unitSectors b) half row d x)) ∧
  (∀ (s : State) (b half row x : Nat) (e : Sealed), Tab.find s.dies.nand (nandKey b (dataOff (s.unitSectors b) half row 0 x)) = some e →
    s.darned b half row 0 x = s.payload e)

/-- The placement of DRAM addresses under the three orders is one to one (R354, R356). -/
def Obligations.DramAddressMap : Prop :=
  (∀ gib ranks order a : Nat, dramAddr order (dramPlace gib ranks order a) = a / 64 * 64 ∧ (dramPlace gib ranks order a).ch = a / 256 % 4 ∧
    (dramPlace gib ranks order a).bank < 16 ∧ (dramPlace gib ranks order a).col < 56 ∧
    (a < gib * 939524096 → (dramPlace gib ranks order a).row < dramRows gib ∧ (dramPlace gib ranks order a).rank < 2)) ∧
  (∀ (gib ranks order : Nat) (p : DramPlace), p.ch < 4 → p.bank < 16 → p.col < 56 →
    dramPlace gib ranks order (dramAddr order p) = { p with rank := rankOf gib ranks p.row }) ∧
  (∀ (s : State) (p : DramPlace), s.rowBurst p 63 = 0#512)

/-- The Hem store's ring words (R383, R386, R391, R393, R434). The CRC's byte order is the model's (log 100). -/
def Obligations.HemWordsReadBack : Prop :=
  (∀ x : Select, x.seq < 2 ^ 16 → x.twin < 2 ^ 8 → x.fallback < 2 ^ 8 → x.mode < 2 ^ 8 → selectOf x.word = some x) ∧
  (∀ start gap seq : Nat, start < 2 ^ 14 → gap < 2 ^ 14 → seq < 2 ^ 16 →
    pointerOf (pointerWord start gap seq) = some (start, (gap, seq))) ∧
  (∀ svn : Nat, svn < 2 ^ 16 → ratchetOf (ratchetWord svn) = some svn) ∧
  (∀ kind action arg aux : Nat, kind < 16 → action < 16 → arg < 2 ^ 32 → aux < 256 →
    progressOf (progressWord kind action arg aux) = some (kind, (action, (arg, aux)))) ∧
  (∀ (mark : Nat) (w : BitVec 64), crcGood mark w = true ↔
    w.toNat / 2 ^ 56 = mark ∧ w.toNat % 256 = crc8 0 (bytesBE 7 (w.toNat / 256)))
end

