-- ==== Sys2Proof/Laws/Calm.lean ====
section
/-! SUPPORT. In a calm state nothing goes on after a row: `after` leaves the state as it is. -/

namespace Sys2Proof.Machine

theorem State.tryWarm_calm {s : State} (h : s.Calm) : s.tryWarm = s := by
  obtain ⟨h1, h2, -⟩ := h
  simp [State.tryWarm, h1, h2]

theorem State.sanitiseGo_calm {s : State} (h : s.Calm) : s.sanitiseGo = s := by
  obtain ⟨-, -, h3, -⟩ := h
  simp [State.sanitiseGo, h3]

theorem State.releaseHeld_calm {s : State} (h : s.Calm) : s.releaseHeld = s := by
  obtain ⟨-, -, -, h4, -⟩ := h
  simp [State.releaseHeld, h4]

theorem State.actMove_calm {s : State} (h : s.hem.actStep = 0) : s.actMove = s := by
  simp [State.actMove, h]

theorem State.formatGo_calm {s : State} {k : Nat} (h : (s.tenantD k).formatting ≠ 1) : s.formatGo k = s := by
  simp [State.formatGo, h]

theorem State.convGo_calm {s : State} {k : Nat} (h : (s.tenantD k).convCmd = none) : s.convGo k = s := by
  simp [State.convGo, h]

/-- What a row lets go on in a calm state: nothing. -/
theorem State.after_calm {s : State} (h : s.Calm) : s.after = s := by
  have hf : ∀ l : List (Nat × Tenant), (∀ p ∈ l, (s.tenantD p.1).formatting ≠ 1 ∧ (s.tenantD p.1).convCmd = none) →
      l.foldl (fun s p => (s.formatGo p.1).convGo p.1) s = s := by
    intro l
    induction l with
    | nil => intro _; rfl
    | cons p r ih =>
      intro hl
      have hp := hl p (by simp)
      rw [List.foldl_cons, State.formatGo_calm hp.1, State.convGo_calm hp.2]
      exact ih (fun q hq => hl q (by simp [hq]))
  unfold State.after
  rw [State.tryWarm_calm h, State.sanitiseGo_calm h]
  simp only [hf s.host.tenants h.2.2.2.2.2]
  rw [State.releaseHeld_calm h, State.actMove_calm h.2.2.2.2.1]

/-- A row's outcome is what it is where the state it leaves is calm. -/
theorem settled_calm {s : State} (h : s.Calm) : settled (.next s) = .next s := by
  simp [settled, State.after_calm h]

end Sys2Proof.Machine
end

