-- ==== Sys2Proof/Laws/Tab.lean ====
section
/-! SUPPORT. Sparse tables: an entry read after a table was changed. -/

namespace Sys2Proof.Machine

variable {α : Type}

@[simp] theorem Tab.find_set_self (t : List (Nat × α)) (k : Nat) (v : α) : Tab.find (Tab.set t k v) k = some v := by
  induction t with
  | nil => simp [Tab.set, Tab.find]
  | cons p r ih =>
    obtain ⟨j, w⟩ := p
    simp only [Tab.set]
    split
    · simp [Tab.find]
    · split
      · simp [Tab.find]
      · rename_i h1 h2
        simp [Tab.find, h2, ih]

theorem Tab.find_set_ne (t : List (Nat × α)) {k i : Nat} (v : α) (h : i ≠ k) : Tab.find (Tab.set t k v) i = Tab.find t i := by
  induction t with
  | nil => simp [Tab.set, Tab.find, h.symm]
  | cons p r ih =>
    obtain ⟨j, w⟩ := p
    simp only [Tab.set]
    split
    · simp [Tab.find, h.symm]
    · split
      · rename_i h1 h2
        subst h2
        simp [Tab.find, h.symm]
      · simp only [Tab.find, ih]

@[simp] theorem Tab.get_set_self (d : α) (t : List (Nat × α)) (k : Nat) (v : α) : Tab.get d (Tab.set t k v) k = v := by
  induction t with
  | nil => simp [Tab.set, Tab.get]
  | cons p r ih =>
    obtain ⟨j, w⟩ := p
    simp only [Tab.set]
    split
    · simp [Tab.get]
    · split
      · simp [Tab.get]
      · rename_i h1 h2
        simp [Tab.get, h2, ih]

theorem Tab.get_set_ne (d : α) (t : List (Nat × α)) {k i : Nat} (v : α) (h : i ≠ k) :
    Tab.get d (Tab.set t k v) i = Tab.get d t i := by
  induction t with
  | nil => simp [Tab.set, Tab.get, h.symm]
  | cons p r ih =>
    obtain ⟨j, w⟩ := p
    simp only [Tab.set]
    split
    · simp [Tab.get, h.symm]
    · split
      · rename_i h1 h2
        subst h2
        simp [Tab.get, h.symm]
      · simp only [Tab.get, ih]

/-- An entry read after another or the same was set. -/
theorem Tab.get_set (d : α) (t : List (Nat × α)) (k i : Nat) (v : α) :
    Tab.get d (Tab.set t k v) i = if i = k then v else Tab.get d t i := by
  by_cases h : i = k
  · subst h; simp
  · simp [h, Tab.get_set_ne]

theorem Tab.find_set (t : List (Nat × α)) (k i : Nat) (v : α) :
    Tab.find (Tab.set t k v) i = if i = k then some v else Tab.find t i := by
  by_cases h : i = k
  · subst h; simp
  · simp [h, Tab.find_set_ne]

@[simp] theorem Tab.find_del_self (t : List (Nat × α)) (k : Nat) : Tab.find (Tab.del t k) k = none := by
  induction t with
  | nil => rfl
  | cons p r ih =>
    obtain ⟨j, w⟩ := p
    by_cases h : j = k
    · simpa [Tab.del, h] using ih
    · simpa [Tab.del, Tab.find, h] using ih

/-- An entry with a value is the one that a read with a default gives. -/
theorem Tab.get_of_find (d : α) {t : List (Nat × α)} {k : Nat} {v : α} (h : Tab.find t k = some v) : Tab.get d t k = v := by
  induction t with
  | nil => simp [Tab.find] at h
  | cons p r ih =>
    obtain ⟨j, w⟩ := p
    simp only [Tab.find] at h
    simp only [Tab.get]
    split at h
    · simp_all
    · rename_i h1; simp [h1, ih h]

/-- Of two values set at one entry the second stays. -/
@[simp] theorem Tab.set_set (t : List (Nat × α)) (k : Nat) (v w : α) : Tab.set (Tab.set t k v) k w = Tab.set t k w := by
  induction t with
  | nil => simp [Tab.set]
  | cons p r ih =>
    obtain ⟨j, x⟩ := p
    simp only [Tab.set]
    split
    · simp [Tab.set]
    · split
      · rename_i h1 h2
        simp [Tab.set]
      · rename_i h1 h2
        simp [Tab.set, h1, h2, ih]

/-- Putting an element into a list makes it one longer. -/
theorem insertOn_length {α : Type} (le : α → α → Bool) (a : α) (xs : List α) : (insertOn le a xs).length = xs.length + 1 := by
  induction xs with
  | nil => rfl
  | cons b r ih => unfold insertOn; split <;> simp [ih]

/-- Sorting keeps the length of a list. -/
@[simp] theorem sortOn_length {α : Type} (le : α → α → Bool) (xs : List α) : (sortOn le xs).length = xs.length := by
  induction xs with
  | nil => rfl
  | cons b r ih => unfold sortOn; rw [insertOn_length, ih]; rfl

end Sys2Proof.Machine
end

