-- ==== Sys2Proof/Laws/Complete.lean ====
section
/-! SUPPORT. What the completion of a command can change, and that it posts the completion. -/

namespace Sys2Proof.Machine

theorem foldl_kept {α : Type} (g : State → α → State) (h : ∀ s a, (g s a).kept = s.kept) (l : List α) (s : State) :
    (l.foldl g s).kept = s.kept := by
  induction l generalizing s with
  | nil => rfl
  | cons a r ih => rw [List.foldl_cons, ih, h]

@[simp] theorem State.kept_push (s : State) (o : Out) : (s.push o).kept = s.kept := rfl
@[simp] theorem State.kept_draw (s : State) : s.draw.2.kept = s.kept := rfl

@[simp] theorem State.kept_frayRule (s : State) (i : Nat) (r : FrayRule) : (s.frayRule i r).2.kept = s.kept := by
  unfold State.frayRule State.draw
  dsimp only
  split
  · dsimp only
    split <;> rfl
  · rfl

@[simp] theorem State.kept_fray (s : State) (a b c : Nat) : (s.fray a b c).2.kept = s.kept := by
  unfold State.fray
  dsimp only
  split
  · have : ∀ (l : List (FrayRule × Nat)) (p : List Nat × State),
        (l.foldl (fun (p : List Nat × State) e =>
          if e.1.counts a b c then
            let (a, s) := p.2.frayRule e.2 e.1
            (p.1 ++ a.toList, s)
          else p) p).2.kept = p.2.kept := by
      intro l
      induction l with
      | nil => intro p; rfl
      | cons e r ih =>
        intro p
        rw [List.foldl_cons, ih]
        split
        · exact State.kept_frayRule _ _ _
        · rfl
    exact this _ _
  · rfl

theorem State.kept_ite (c : Prop) [Decidable c] (a b s : State) (ha : a.kept = s.kept) (hb : b.kept = s.kept) :
    (if c then a else b).kept = s.kept := by split <;> assumption

@[simp] theorem State.kept_emit (s : State) (o : Out) : (s.emit o).kept = s.kept := by
  unfold State.emit
  dsimp only
  split
  · rfl
  · apply State.kept_ite
    · rfl
    · apply State.kept_ite <;> simp

theorem fnKey_inj {f g : FnId} (hf : f.vf < 1024) (hg : g.vf < 1024) (h : fnKey f = fnKey g) : f = g := by
  obtain ⟨p, v⟩ := f
  obtain ⟨q, w⟩ := g
  cases p <;> cases q <;> (simp_all [fnKey]; try omega)

theorem State.fn_setFn (s : State) (f g : FnId) (x : Fn) :
    (s.setFn f x).fn g = if fnKey g = fnKey f then x else s.fn g := by
  simp [State.fn, State.setFn, Tab.get_set]

@[simp] theorem State.fn_setFn_self (s : State) (f : FnId) (x : Fn) : (s.setFn f x).fn f = x := by simp [State.fn_setFn]

theorem State.fn_congr (s : State) {f g : FnId} (h : fnKey f = fnKey g) : s.fn f = s.fn g := by simp [State.fn, h]

theorem State.kept_setFn (s : State) (f : FnId) (x : Fn) (h : x.cfg = (s.fn f).cfg) : (s.setFn f x).kept = s.kept := by
  unfold State.kept
  refine Prod.ext rfl (Prod.ext (funext fun g => ?_) rfl)
  show ((s.setFn f x).fn g).cfg = (s.fn g).cfg
  rw [State.fn_setFn]
  split
  · rename_i e; rw [h, State.fn_congr s e]
  · rfl

theorem State.kept_updFn (s : State) (f : FnId) (g : Fn → Fn) (h : (g (s.fn f)).cfg = (s.fn f).cfg) :
    (s.updFn f g).kept = s.kept := State.kept_setFn s f _ h

theorem State.tenant_setTenant (s : State) (k i : Nat) (t : Tenant) :
    (s.setTenant k t).tenant i = if i = k then some t else s.tenant i := by
  simp [State.tenant, State.setTenant, Tab.find_set]

theorem State.kept_setTenant (s : State) (k : Nat) (t u : Tenant) (hu : s.tenant k = some u) (h : t.cfg = u.cfg) :
    (s.setTenant k t).kept = s.kept := by
  unfold State.kept
  refine Prod.ext rfl (Prod.ext rfl (funext fun i => ?_))
  show ((s.setTenant k t).tenant i).map Tenant.cfg = (s.tenant i).map Tenant.cfg
  rw [State.tenant_setTenant]
  split
  · rename_i e; rw [e, hu]; simp [h]
  · rfl

theorem State.kept_updTenant (s : State) (k : Nat) (g : Tenant → Tenant) (h : ∀ t, (g t).cfg = t.cfg) :
    (s.updTenant k g).kept = s.kept := by
  unfold State.updTenant
  split
  · rfl
  · rename_i t ht; exact State.kept_setTenant s k _ t ht (h t)

theorem Fn.cfg_updSq (x : Fn) (q : Nat) (g : Sq → Sq) : (x.updSq q g).cfg = x.cfg := rfl
theorem Fn.cfg_updCq (x : Fn) (q : Nat) (g : Cq → Cq) : (x.updCq q g).cfg = x.cfg := rfl

theorem Tenant.cfg_accrue (t : Tenant) (n : Nat) : (t.accrue n).cfg = t.cfg := by
  unfold Tenant.accrue; split <;> rfl

theorem Tenant.cfg_accrueEnd (t : Tenant) (n : Nat) (c : Prop) [Decidable c] :
    (if c then { t.accrue n with activeFrom := none } else t.accrue n).cfg = t.cfg := by
  split
  · unfold Tenant.accrue; split <;> rfl
  · exact Tenant.cfg_accrue t n

@[simp] theorem State.kept_issueMsix (s : State) (f : FnId) (v : Nat) : (s.issueMsix f v).kept = s.kept := by
  unfold State.issueMsix
  dsimp only
  split
  · split
    · exact State.kept_setFn _ _ _ rfl
    · rw [State.kept_emit]; exact State.kept_setFn _ _ _ rfl
  · rfl

@[simp] theorem State.kept_dueMsix (s : State) (f : FnId) (v : Nat) : (s.dueMsix f v).kept = s.kept := by
  unfold State.dueMsix
  split
  · simp
  · exact State.kept_setFn _ _ _ rfl

@[simp] theorem State.kept_signal (s : State) (f : FnId) (v : Nat) : (s.signal f v).kept = s.kept := by
  unfold State.signal
  dsimp only
  apply State.kept_ite
  · rw [State.kept_dueMsix]; exact State.kept_setFn _ _ _ rfl
  · exact State.kept_setFn _ _ _ rfl

@[simp] theorem State.kept_writeCqe (s : State) (f : FnId) (q : Nat) (e : Cqe) : (s.writeCqe f q e).kept = s.kept := by
  unfold State.writeCqe
  dsimp only
  split
  · rfl
  · split
    · rw [State.kept_signal, State.kept_emit]; exact State.kept_setFn _ _ _ rfl
    · rw [State.kept_emit]; exact State.kept_setFn _ _ _ rfl

@[simp] theorem State.kept_postCqe (s : State) (f : FnId) (q : Nat) (e : Cqe) : (s.postCqe f q e).kept = s.kept := by
  unfold State.postCqe
  split
  · rfl
  · split
    · simp
    · exact State.kept_updFn _ _ _ rfl

@[simp] theorem State.kept_errorLog (s : State) (f : FnId) (a b c : Nat) (d : BitVec 32) (e : Nat) :
    (s.errorLog f a b c d e).kept = s.kept := by
  unfold State.errorLog
  dsimp only
  split
  · exact State.kept_updFn _ _ _ rfl
  · rw [State.kept_updTenant]
    · exact State.kept_updFn _ _ _ rfl
    · intro t; rfl

@[simp] theorem State.kept_pbCount (s : State) (i n : Nat) : (s.pbCount i n).kept = s.kept := by
  unfold State.pbCount
  repeat' split
  all_goals rfl

@[simp] theorem State.kept_pbExtreme (s : State) (i : Nat) (v : Int) : (s.pbExtreme i v).kept = s.kept := by
  unfold State.pbExtreme State.pbExtremeNow
  dsimp only
  repeat' split
  all_goals rfl

theorem State.kept_tenants (s : State) (k : Nat) (t u : Tenant) (hu : Tab.find s.host.tenants k = some u) (h : t.cfg = u.cfg) :
    ({ s with host.tenants := Tab.set s.host.tenants k t } : State).kept = s.kept := State.kept_setTenant s k t u hu h

@[simp] theorem State.kept_pbTenant (s : State) (k i n : Nat) : (s.pbTenant k i n).kept = s.kept := by
  unfold State.pbTenant
  split
  · rfl
  · split
    · rfl
    · split
      · rfl
      · rename_i t ht; exact State.kept_tenants s k _ t ht rfl

@[simp] theorem State.kept_pbSample (s : State) (k : Option Nat) (h b : Nat) : (s.pbSample k h b).kept = s.kept := by
  unfold State.pbSample
  dsimp only
  split
  · split
    · rw [State.kept_pbCount]; rfl
    · rw [State.kept_pbTenant, State.kept_pbCount]; rfl
  · split
    · rfl
    · rename_i k
      split
      · rfl
      · rename_i t ht
        exact (State.kept_tenants ({ s with pb.hist := Tab.bump s.pb.hist (h * 64 + b) 1, pb.dirty := true } : State) k
          { t with pb := Tab.bump t.pb (h * 64 + b) 1 } t ht rfl)

theorem State.kept_meters (s : State) (k i n : Nat) :
    (s.updTenant k (fun t => { t with meters := bumpAt t.meters i n })).kept = s.kept := State.kept_updTenant _ _ _ (fun _ => rfl)

@[simp] theorem State.kept_sampleDone (s : State) (k : Nat) (o : Outst) (st : Nat) : (s.sampleDone k o st).kept = s.kept := by
  unfold State.sampleDone
  dsimp only
  split
  · simp
  · split <;> split <;> split <;> split <;> (try split) <;> simp [State.kept_meters]

@[simp] theorem State.kept_quiet (s : State) : s.quiet.kept = s.kept := by
  unfold State.quiet
  split <;> rfl

@[simp] theorem State.kept_idle (s : State) (n : Nat) : ({ s with pow.idleUs := n } : State).kept = s.kept := rfl

@[simp] theorem State.kept_retire (s : State) (f : FnId) (a b c : Nat) : (s.retire f a b c).kept = s.kept := by
  unfold State.retire
  dsimp only
  split
  · rfl
  · rw [State.kept_idle]
    have h : ∀ u : State, u.kept = s.kept → (if a = 0 then u else u.quiet).kept = s.kept := by
      intro u hu; split <;> simp [hu]
    apply h
    split
    · rw [State.kept_sampleDone]; exact State.kept_setFn _ _ _ rfl
    · rw [State.kept_updTenant, State.kept_sampleDone]
      · exact State.kept_setFn _ _ _ rfl
      · intro t; exact Tenant.cfg_accrueEnd t _ _

@[simp] theorem State.kept_settleDeletes (s : State) (f : FnId) : (s.settleDeletes f).kept = s.kept := by
  unfold State.settleDeletes
  apply foldl_kept
  intro s p
  rw [State.kept_retire, State.kept_postCqe]
  exact State.kept_updFn _ _ _ rfl

@[simp] theorem State.kept_setTags (s : State) (p : Port) (n : Nat) : (s.setTags p n).kept = s.kept := by cases p <;> rfl
@[simp] theorem State.kept_fetched (s : State) : s.fetched.kept = s.kept := rfl

@[simp] theorem State.kept_fetchOnce (s : State) (f : FnId) (q : Nat) : (s.fetchOnce f q).kept = s.kept := by
  unfold State.fetchOnce
  dsimp only
  split
  · rfl
  · split
    · rw [State.kept_emit, State.kept_fetched, State.kept_setTags]
      exact State.kept_setFn _ _ _ rfl
    · rfl

@[simp] theorem State.kept_tryFetch (s : State) (f : FnId) (q : Nat) : (s.tryFetch f q).kept = s.kept := by
  unfold State.tryFetch
  rw [State.kept_fetchOnce, State.kept_fetchOnce]

/-- A completion changes nothing but what `kept` leaves out. -/
@[simp] theorem State.kept_complete (s : State) (f : FnId) (c : Cpl) : (s.complete f c).kept = s.kept := by
  unfold State.complete
  dsimp only
  split
  · rfl
  · split <;> split <;> simp

@[simp] theorem State.kept_okCmd (s : State) (c : NvmeCmd) (a b : BitVec 32) : (s.okCmd c a b).kept = s.kept := by
  unfold State.okCmd
  simp

@[simp] theorem State.kept_failCmd (s : State) (f : FnId) (c : NvmeCmd) (st lba : Nat) : (s.failCmd f c st lba).kept = s.kept := by
  unfold State.failCmd
  simp

/-! What equal `kept` says. -/

theorem State.rest_of_kept {s t : State} (h : s.kept = t.kept) : s.rest = t.rest := congrArg Prod.fst h

theorem State.fnCfg_of_kept {s t : State} (h : s.kept = t.kept) (f : FnId) : (s.fn f).cfg = (t.fn f).cfg :=
  congrFun (congrArg (fun p => p.2.1) h) f

theorem State.tenantCfg_of_kept {s t : State} (h : s.kept = t.kept) (k : Nat) :
    (s.tenant k).map Tenant.cfg = (t.tenant k).map Tenant.cfg := congrFun (congrArg (fun p => p.2.2) h) k

end Sys2Proof.Machine
end

