-- ==== Sys2Proof/Laws/Sent.lean ====
section
/-! SUPPORT. What a completion sends: its entry, and nothing that was sent before is taken back. -/

namespace Sys2Proof.Machine

/-- Everything that `s` has sent, `t` has sent. -/
def State.sentIn (s t : State) : Prop := ∀ o ∈ s.out, o ∈ t.out

theorem State.sentIn_refl (s : State) : s.sentIn s := fun _ h => h

theorem State.sentIn_trans {s t u : State} (h : s.sentIn t) (k : t.sentIn u) : s.sentIn u := fun o m => k o (h o m)

theorem State.sentIn_of_eq {s t : State} (h : t.out = s.out) : s.sentIn t := fun o m => by rw [h]; exact m

theorem State.sentIn_pre {s r t : State} (k : r.sentIn t) (h : r.out = s.out) : s.sentIn t := fun o m => k o (by rw [h]; exact m)

theorem State.sentIn_post {s r t : State} (k : s.sentIn r) (h : t.out = r.out) : s.sentIn t := fun o m => by rw [h]; exact k o m

theorem State.sentIn_ite {s a b : State} (c : Prop) [Decidable c] (ha : s.sentIn a) (hb : s.sentIn b) :
    s.sentIn (if c then a else b) := by split <;> assumption

theorem foldl_sentIn {α : Type} (g : State → α → State) (h : ∀ (s : State) (a : α), s.sentIn (g s a)) (l : List α) (s : State) :
    s.sentIn (l.foldl g s) := by
  induction l generalizing s with
  | nil => exact State.sentIn_refl s
  | cons a r ih => exact State.sentIn_trans (h s a) (ih _)

theorem State.sentIn_push (s : State) (o : Out) : s.sentIn (s.push o) := fun _ h => List.mem_cons_of_mem _ h

theorem State.sentIn_frayRule (s : State) (i : Nat) (r : FrayRule) : s.sentIn (s.frayRule i r).2 := by
  unfold State.frayRule State.draw
  dsimp only
  split
  · apply State.sentIn_ite
    · exact State.sentIn_push _ _
    · exact State.sentIn_of_eq rfl
  · exact State.sentIn_of_eq rfl

theorem State.sentIn_fray (s : State) (a b c : Nat) : s.sentIn (s.fray a b c).2 := by
  unfold State.fray
  split
  · have : ∀ (l : List (FrayRule × Nat)) (p : List Nat × State),
        p.2.sentIn (l.foldl (fun (p : List Nat × State) e =>
          if e.1.counts a b c then
            let (a, s) := p.2.frayRule e.2 e.1
            (p.1 ++ a.toList, s)
          else p) p).2 := by
      intro l
      induction l with
      | nil => intro p; exact State.sentIn_refl _
      | cons e r ih =>
        intro p
        rw [List.foldl_cons]
        refine State.sentIn_trans ?_ (ih _)
        split
        · exact State.sentIn_frayRule _ _ _
        · exact State.sentIn_refl _
    exact this s.dbg.rules.zipIdx ([], s)
  · exact State.sentIn_refl _

theorem State.sentIn_emit (s : State) (o : Out) : s.sentIn (s.emit o) := by
  unfold State.emit
  dsimp only
  split
  · exact State.sentIn_push _ _
  · apply State.sentIn_ite
    · exact State.sentIn_refl _
    · apply State.sentIn_ite
      · exact State.sentIn_fray _ _ _ _
      · exact State.sentIn_trans (State.sentIn_fray _ _ _ _) (State.sentIn_push _ _)

/-- What is sent while the ports run and the Fray unit is disarmed is sent. -/
theorem State.mem_emit {s : State} (o : Out) (h : s.supply.portsStopped = false) (k : s.dbg.armed = false) : o ∈ (s.emit o).out := by
  unfold State.emit
  split
  · exact List.mem_cons_self
  · simp [h, State.fray, k, State.push]

@[simp] theorem State.out_setFn (s : State) (f : FnId) (x : Fn) : (s.setFn f x).out = s.out := rfl

theorem State.sentIn_issueMsix (s : State) (f : FnId) (v : Nat) : s.sentIn (s.issueMsix f v) := by
  unfold State.issueMsix
  dsimp only
  split
  · split
    · exact State.sentIn_of_eq rfl
    · exact State.sentIn_pre (State.sentIn_emit _ _) (State.out_setFn _ _ _)
  · exact State.sentIn_refl _

theorem State.sentIn_dueMsix (s : State) (f : FnId) (v : Nat) : s.sentIn (s.dueMsix f v) := by
  unfold State.dueMsix
  split
  · exact State.sentIn_issueMsix _ _ _
  · exact State.sentIn_of_eq rfl

theorem State.sentIn_signal (s : State) (f : FnId) (v : Nat) : s.sentIn (s.signal f v) := by
  unfold State.signal
  dsimp only
  apply State.sentIn_ite
  · exact State.sentIn_pre (State.sentIn_dueMsix _ _ _) (State.out_setFn _ _ _)
  · exact State.sentIn_of_eq rfl

theorem State.sentIn_writeCqe (s : State) (f : FnId) (q : Nat) (e : Cqe) : s.sentIn (s.writeCqe f q e) := by
  unfold State.writeCqe
  dsimp only
  split
  · exact State.sentIn_refl _
  · apply State.sentIn_ite
    · exact State.sentIn_trans (State.sentIn_pre (State.sentIn_emit _ _) (State.out_setFn _ _ _)) (State.sentIn_signal _ _ _)
    · exact State.sentIn_pre (State.sentIn_emit _ _) (State.out_setFn _ _ _)

theorem State.sentIn_postCqe (s : State) (f : FnId) (q : Nat) (e : Cqe) : s.sentIn (s.postCqe f q e) := by
  unfold State.postCqe
  split
  · exact State.sentIn_refl _
  · split
    · exact State.sentIn_writeCqe _ _ _ _
    · exact State.sentIn_of_eq rfl

theorem State.sentIn_updTenant (s : State) (k : Nat) (g : Tenant → Tenant) : s.sentIn (s.updTenant k g) := by
  unfold State.updTenant; split
  · exact State.sentIn_refl _
  · exact State.sentIn_of_eq rfl

theorem State.sentIn_errorLog (s : State) (f : FnId) (a b c : Nat) (d : BitVec 32) (e : Nat) :
    s.sentIn (s.errorLog f a b c d e) := by
  unfold State.errorLog
  dsimp only
  split
  · exact State.sentIn_of_eq rfl
  · exact State.sentIn_pre (State.sentIn_updTenant _ _ _) rfl

@[simp] theorem State.out_pbCount (s : State) (i n : Nat) : (s.pbCount i n).out = s.out := by
  unfold State.pbCount; repeat' split
  all_goals rfl

@[simp] theorem State.out_pbExtreme (s : State) (i : Nat) (v : Int) : (s.pbExtreme i v).out = s.out := by
  unfold State.pbExtreme State.pbExtremeNow; dsimp only; repeat' split
  all_goals rfl

@[simp] theorem State.out_pbTenant (s : State) (k i n : Nat) : (s.pbTenant k i n).out = s.out := by
  unfold State.pbTenant; repeat' split
  all_goals rfl

@[simp] theorem State.out_pbSample (s : State) (k : Option Nat) (h b : Nat) : (s.pbSample k h b).out = s.out := by
  unfold State.pbSample; dsimp only; repeat' split
  all_goals simp

@[simp] theorem State.out_updTenant (s : State) (k : Nat) (g : Tenant → Tenant) : (s.updTenant k g).out = s.out := by
  unfold State.updTenant; split <;> rfl

@[simp] theorem State.out_sampleDone (s : State) (k : Nat) (o : Outst) (st : Nat) : (s.sampleDone k o st).out = s.out := by
  unfold State.sampleDone
  dsimp only
  split
  · simp
  · split <;> split <;> split <;> split <;> (try split) <;> simp

@[simp] theorem State.out_quiet (s : State) : s.quiet.out = s.out := by
  unfold State.quiet; split <;> rfl

@[simp] theorem State.out_retire (s : State) (f : FnId) (a b c : Nat) : (s.retire f a b c).out = s.out := by
  unfold State.retire
  dsimp only
  split
  · rfl
  · have h : ∀ u : State, u.out = s.out → (if a = 0 then u else u.quiet).out = s.out := by
      intro u hu; split <;> simp [hu]
    apply h
    split <;> simp

theorem State.sentIn_settleDeletes (s : State) (f : FnId) : s.sentIn (s.settleDeletes f) := by
  unfold State.settleDeletes
  apply foldl_sentIn
  intro s p
  refine State.sentIn_post ?_ (State.out_retire _ _ _ _ _)
  exact State.sentIn_pre (State.sentIn_postCqe _ _ _ _) rfl

@[simp] theorem State.out_setTags (s : State) (p : Port) (n : Nat) : (s.setTags p n).out = s.out := by cases p <;> rfl

theorem State.sentIn_fetchOnce (s : State) (f : FnId) (q : Nat) : s.sentIn (s.fetchOnce f q) := by
  unfold State.fetchOnce
  dsimp only
  split
  · exact State.sentIn_refl _
  · split
    · exact State.sentIn_pre (State.sentIn_emit _ _) (State.out_setTags _ _ _)
    · exact State.sentIn_refl _

theorem State.sentIn_tryFetch (s : State) (f : FnId) (q : Nat) : s.sentIn (s.tryFetch f q) :=
  State.sentIn_trans (State.sentIn_fetchOnce _ _ _) (State.sentIn_fetchOnce _ _ _)

/-- The fetch that may follow the completion of an admin command takes back nothing that was sent. -/
theorem State.sentIn_fetches (s : State) (f : FnId) (n : Nat) : s.sentIn (if n = 0 then s.tryFetch f 0 else s) := by
  split
  · exact State.sentIn_tryFetch _ _ _
  · exact State.sentIn_refl _

theorem State.sentIn_complete (s : State) (f : FnId) (c : Cpl) : s.sentIn (s.complete f c) := by
  unfold State.complete
  dsimp only
  split
  · exact State.sentIn_refl _
  · refine State.sentIn_trans ?_ (State.sentIn_fetches _ _ _)
    refine State.sentIn_trans ?_ (State.sentIn_settleDeletes _ _)
    refine State.sentIn_post ?_ (State.out_retire _ _ _ _ _)
    split
    · exact State.sentIn_postCqe _ _ _ _
    · exact State.sentIn_trans (State.sentIn_postCqe _ _ _ _) (State.sentIn_errorLog _ _ _ _ _ _ _)

/-- A completion whose queue has room is sent. -/
theorem State.complete_sends {s : State} {f : FnId} {c : Cpl} {q : Cq} (hs : s.supply.portsStopped = false)
    (ha : s.dbg.armed = false) (h1 : c.sqid ≠ orphanId) (h2 : c.cid ≠ orphanId)
    (hq : (s.fn f).cq ((s.fn f).cqOf c.sqid) = some q) (hw : q.waiting = []) (hr : q.hasRoom = true) :
    Out.cqe f ((s.fn f).cqOf c.sqid) ⟨c.sqid, c.cid, c.status, c.dnr, c.crd, c.dw0, c.dw1⟩ q.phase q.tail (s.sqHead f c.sqid) ∈
      (s.complete f c).out := by
  unfold State.complete
  rw [if_neg (by simp [h1, h2])]
  dsimp only
  refine State.sentIn_fetches _ _ _ _ (State.sentIn_settleDeletes _ _ _ ?_)
  rw [State.out_retire]
  have hp : Out.cqe f ((s.fn f).cqOf c.sqid) ⟨c.sqid, c.cid, c.status, c.dnr, c.crd, c.dw0, c.dw1⟩ q.phase q.tail (s.sqHead f c.sqid) ∈
      (s.postCqe f ((s.fn f).cqOf c.sqid) ⟨c.sqid, c.cid, c.status, c.dnr, c.crd, c.dw0, c.dw1⟩).out := by
    unfold State.postCqe
    rw [hq]
    simp only [hw, hr, List.isEmpty_nil, Bool.and_self, if_true]
    unfold State.writeCqe
    dsimp only
    rw [hq]
    dsimp only
    split
    · refine State.sentIn_signal _ _ _ _ ?_
      exact State.mem_emit _ hs ha
    · exact State.mem_emit _ hs ha
  split
  · exact hp
  · exact State.sentIn_errorLog _ _ _ _ _ _ _ _ hp

end Sys2Proof.Machine
end

