-- ==== Sys2Proof/Laws/Admin.lean ====
section
/-! SUPPORT. What a granted NVMe command's row does: its meaning runs on the state with the command taken. -/

namespace Sys2Proof.Machine

theorem find_grant {c : NvmeCmd} {e : Sqe} {op : BitVec 8} {sel : Sqe → Bool} {l r : List (FnId × (Sqe × Nat))}
    (hl : l = (c.fn, (e, c.sqid)) :: r) (hc : e.cmd = c) (ho : e.opcode = op) (hs : sel e = true) :
    l.find? (isGrant c op sel) = some (c.fn, (e, c.sqid)) := by
  rw [hl, List.find?_cons_of_pos]
  simp [isGrant, hc, ho, hs]

/-- A granted command's row runs its meaning. -/
theorem State.onGrant_of {s u : State} {c : NvmeCmd} {e : Sqe} {op : BitVec 8} {sel : Sqe → Bool} {act : State → State}
    (h : s.Granted c e op u) (hs : sel e = true) : s.onGrant c op sel act = act u := by
  obtain ⟨hp, hc, ho, hg, hu⟩ := h
  unfold State.onGrant State.takeGrant
  rw [if_neg (by omega), find_grant hg hc ho hs]
  show act { s with host.granted := s.host.granted.erase (c.fn, (e, c.sqid)) } = act u
  rw [hg, List.erase_cons_head, ← hu]

/-- `onGrant_of`, for a row that reads its entry. -/
theorem State.onAdmin_of {s u : State} {c : NvmeCmd} {e : Sqe} {op : BitVec 8} {sel : Sqe → Bool} {act : Sqe → State → State}
    (h : s.Granted c e op u) (hs : sel e = true) : s.onAdmin c op sel act = act e u := by
  unfold State.onAdmin
  rw [find_grant h.2.2.2.1 h.2.1 h.2.2.1 hs]
  exact State.onGrant_of h hs

/-- A command whose pointers break no rule passes its data stage. -/
theorem State.dataStage_of {s : State} {c : NvmeCmd} {mptr lbaf lba : Nat} {ok : State → State} (h : dataFaults c mptr lbaf = []) :
    s.dataStage c mptr lbaf lba ok = ok s := by
  unfold State.dataStage
  rw [h]

end Sys2Proof.Machine
end

