-- ==== Sys2Proof/Laws/Mailbox.lean ====
section
/-! SUPPORT. A mailbox command on an idle mailbox: what the start of its execution and its completion change, and what is sent. -/

namespace Sys2Proof.Machine

/-! Mailbox registers. -/

@[simp] theorem State.mbxPort_setMbxPort (s : State) (p : Port) (x : MbxPort) : (s.setMbxPort p x).mbxPort p = x := by
  cases p <;> rfl

@[simp] theorem State.out_setMbxPort (s : State) (p : Port) (x : MbxPort) : (s.setMbxPort p x).out = s.out := by cases p <;> rfl

@[simp] theorem State.supply_setMbxPort (s : State) (p : Port) (x : MbxPort) : (s.setMbxPort p x).supply = s.supply := by
  cases p <;> rfl

@[simp] theorem State.dbg_setMbxPort (s : State) (p : Port) (x : MbxPort) : (s.setMbxPort p x).dbg = s.dbg := by cases p <;> rfl

theorem State.mkept_of_kept {s t : State} (h : s.kept = t.kept) : s.mkept = t.mkept := by
  have hr := State.rest_of_kept h
  have hm : s.mbx = t.mbx := by have k := congrArg (fun u : State => u.mbx) hr; exact k
  unfold State.mkept
  rw [hr, h, hm]

theorem State.mbx_of_kept {s t : State} (h : s.kept = t.kept) : s.mbx = t.mbx := by
  have k := congrArg (fun u : State => u.mbx) (State.rest_of_kept h); exact k

theorem State.supply_of_kept {s t : State} (h : s.kept = t.kept) : s.supply = t.supply := by
  have k := congrArg (fun u : State => u.supply) (State.rest_of_kept h); exact k

theorem State.mbxCfg_of_mkept {s t : State} (h : s.mkept = t.mkept) : s.mbx.cfg = t.mbx.cfg :=
  congrArg (fun u : State × (FnId → Fn) × (Nat → Option Tenant) => u.1.mbx) h

theorem State.movePending_of_mkept {s t : State} (h : s.mkept = t.mkept) : s.mbx.movePending = t.mbx.movePending := by
  have k := congrArg Mbx.movePending (State.mbxCfg_of_mkept h); exact k

theorem State.mkept_mbx (s : State) (m : Mbx) (h : m.cfg = s.mbx.cfg) : ({ s with mbx := m } : State).mkept = s.mkept := by
  unfold State.mkept
  show (({ s.rest with mbx := m.cfg, selv := default } : State), s.kept.2) = _
  rw [h]

theorem State.mkept_setMbxPort (s : State) (p : Port) (x : MbxPort) (h : x.cfg = (s.mbxPort p).cfg) :
    (s.setMbxPort p x).mkept = s.mkept := by
  cases p
  · exact State.mkept_mbx s { s.mbx with portA := x } (by simp [Mbx.cfg]; exact h)
  · exact State.mkept_mbx s { s.mbx with portB := x } (by simp [Mbx.cfg]; exact h)

@[simp] theorem State.mkept_selvedge (s : State) (v : Viol) : (s.selvedge v).mkept = s.mkept := by
  unfold State.selvedge; split <;> rfl

@[simp] theorem State.mkept_mbxIrq (s : State) (p : Port) (b : Bool) : (s.mbxIrq p b).mkept = s.mkept := by
  unfold State.mbxIrq
  dsimp only
  split
  · rfl
  · split
    · exact State.mkept_of_kept (State.kept_dueMsix _ _ _)
    · simp

@[simp] theorem State.mkept_emit (s : State) (o : Out) : (s.emit o).mkept = s.mkept := State.mkept_of_kept (State.kept_emit s o)

@[simp] theorem State.mkept_markPosted (s : State) (n : Nat) : (s.markPosted n).mkept = s.mkept := rfl
@[simp] theorem State.mkept_logOutcome (s : State) (e : OutcomeEntry) : (s.logOutcome e).mkept = s.mkept := rfl
@[simp] theorem State.mkept_idle (s : State) (n : Nat) : ({ s with pow.idleUs := n } : State).mkept = s.mkept := rfl

theorem State.mkept_mbxStore (s : State) (p : Port) (e : MbxCqe) : (s.mbxStore p e).mkept = s.mkept := by
  unfold State.mbxStore
  dsimp only
  rw [State.mkept_idle, State.mkept_mbxIrq, State.mkept_emit, State.mkept_markPosted]
  exact State.mkept_setMbxPort _ _ _ rfl

/-- Where no role move waits, nothing follows a written entry. -/
theorem State.mbxWrite_eq {s : State} (p : Port) (e : MbxCqe) (h : s.mbx.movePending = none) : s.mbxWrite p e = s.mbxStore p e := by
  unfold State.mbxWrite
  dsimp only
  rw [(State.movePending_of_mkept (State.mkept_mbxStore s p e)).trans h]

theorem State.mkept_mbxWrite (s : State) (p : Port) (e : MbxCqe) (h : s.mbx.movePending = none) :
    (s.mbxWrite p e).mkept = s.mkept := by
  rw [State.mbxWrite_eq p e h, State.mkept_mbxStore]

theorem State.mkept_mbxDrain (n : Nat) (s : State) (p : Port) (h : s.mbx.movePending = none) :
    (State.mbxDrain n s p).mkept = s.mkept := by
  induction n generalizing s with
  | zero => rfl
  | succ n ih =>
    unfold State.mbxDrain
    dsimp only
    split
    · rfl
    · rename_i e r hr
      split
      · have h1 : (s.setMbxPort p { s.mbxPort p with waiting := r }).mkept = s.mkept := State.mkept_setMbxPort _ _ _ rfl
        have h2 := (State.movePending_of_mkept h1).trans h
        have h3 := State.mkept_mbxWrite _ p e h2
        rw [ih _ ((State.movePending_of_mkept h3).trans h2), h3, h1]
      · rfl

theorem State.mkept_mbxPost (s : State) (p : Port) (e : MbxCqe) (h : s.mbx.movePending = none) :
    (s.mbxPost p e).mkept = s.mkept := by
  unfold State.mbxPost
  have h1 : ∀ w, (s.setMbxPort p { s.mbxPort p with waiting := w }).mkept = s.mkept :=
    fun w => State.mkept_setMbxPort _ _ _ rfl
  dsimp only
  rw [State.mkept_mbxDrain _ _ _ ((State.movePending_of_mkept (h1 _)).trans h), h1]

theorem State.policyDue_of_mkept {s t : State} (h : s.mkept = t.mkept) : s.pow.policyDue = t.pow.policyDue :=
  congrArg (fun u : State × (FnId → Fn) × (Nat → Option Tenant) => u.1.pow.policyDue) h

theorem State.policySettle_none {s : State} (h : s.pow.policyDue = false) : s.policySettle = s := by
  unfold State.policySettle
  simp [h]

theorem State.mkept_mbxEnd (s : State) (c : MbxCmd) (st off h res : Nat) (hm : s.mbx.movePending = none) :
    (s.mbxEnd c st off h res).mkept = s.mkept := by
  unfold State.mbxEnd
  split
  · rfl
  · rename_i d hd
    have key : ∀ u : State, u.mkept = s.mkept → ∀ l b (e : MbxCqe),
        (((u.pbSample none 19 b).pbExtreme 13 l).mbxPost d.req.port e).mkept = s.mkept := by
      intro u hu l b e
      have h1 : ((u.pbSample none 19 b).pbExtreme 13 l).mkept = s.mkept := by
        rw [State.mkept_of_kept (State.kept_pbExtreme _ _ _), State.mkept_of_kept (State.kept_pbSample _ _ _ _), hu]
      rw [State.mkept_mbxPost _ _ _ ((State.movePending_of_mkept h1).trans hm), h1]
    dsimp only
    split
    · apply key
      rfl
    · split
      · rw [State.mkept_idle]
        exact State.mkept_setMbxPort _ _ _ rfl
      · rfl

/-- With no power policy waiting, the end of a command is what `mbxEnd` does. -/
theorem State.mbxFinish_eq {s : State} (c : MbxCmd) (st off h res : Nat) (hm : s.mbx.movePending = none)
    (hp : s.pow.policyDue = false) : s.mbxFinish c st off h res = s.mbxEnd c st off h res :=
  State.policySettle_none ((State.policyDue_of_mkept (State.mkept_mbxEnd s c st off h res hm)).trans hp)

/-- The end of a mailbox command changes nothing but what `mkept` leaves out. -/
theorem State.mkept_mbxFinish (s : State) (c : MbxCmd) (st off h res : Nat) (hm : s.mbx.movePending = none)
    (hp : s.pow.policyDue = false) : (s.mbxFinish c st off h res).mkept = s.mkept := by
  rw [State.mbxFinish_eq c st off h res hm hp]
  exact State.mkept_mbxEnd s c st off h res hm

/-! What the end of a command sends. -/

@[simp] theorem State.out_selvedge (s : State) (v : Viol) : (s.selvedge v).out = s.out := by
  unfold State.selvedge; split <;> rfl

theorem State.sentIn_mbxIrq (s : State) (p : Port) (b : Bool) : s.sentIn (s.mbxIrq p b) := by
  unfold State.mbxIrq
  dsimp only
  split
  · exact State.sentIn_refl _
  · split
    · exact State.sentIn_dueMsix _ _ _
    · exact State.sentIn_of_eq (State.out_selvedge _ _)

/-- A completion entry as it stands in the ring: with the ring's phase, and REPLAYED (R54). -/
def State.ringEntry (s : State) (p : Port) (e : MbxCqe) : MbxCqe :=
  { e with phase := (s.mbxPort p).phase, replayed := decide (e.pair ≠ s.eng.setM) }

theorem State.mbxWrite_sends {s : State} (p : Port) (e : MbxCqe) (hm : s.mbx.movePending = none)
    (hs : s.supply.portsStopped = false) (ha : s.dbg.armed = false) :
    Out.mbx p (s.mbxPort p).tail.toNat (s.ringEntry p e) ∈ (s.mbxWrite p e).out := by
  rw [State.mbxWrite_eq p e hm]
  unfold State.mbxStore
  apply State.sentIn_mbxIrq
  refine State.mem_emit _ ?_ ?_
  · simpa [State.markPosted] using hs
  · simpa [State.markPosted] using ha

theorem State.sentIn_mbxWrite (s : State) (p : Port) (e : MbxCqe) (hm : s.mbx.movePending = none) : s.sentIn (s.mbxWrite p e) := by
  rw [State.mbxWrite_eq p e hm]
  unfold State.mbxStore
  refine State.sentIn_trans ?_ (State.sentIn_mbxIrq _ _ _)
  refine State.sentIn_pre (State.sentIn_emit _ _) ?_
  exact State.out_setMbxPort _ _ _

theorem State.sentIn_mbxDrain (n : Nat) (s : State) (p : Port) (hm : s.mbx.movePending = none) : s.sentIn (State.mbxDrain n s p) := by
  induction n generalizing s with
  | zero => exact State.sentIn_refl _
  | succ n ih =>
    unfold State.mbxDrain
    dsimp only
    split
    · exact State.sentIn_refl _
    · rename_i e r hr
      split
      · have h1 : (s.setMbxPort p { s.mbxPort p with waiting := r }).mkept = s.mkept := State.mkept_setMbxPort _ _ _ rfl
        have h2 := (State.movePending_of_mkept h1).trans hm
        refine State.sentIn_trans ?_ (ih _ ((State.movePending_of_mkept (State.mkept_mbxWrite _ p e h2)).trans h2))
        exact State.sentIn_pre (State.sentIn_mbxWrite _ _ _ h2) (State.out_setMbxPort _ _ _)
      · exact State.sentIn_refl _

theorem State.sentIn_mbxPost (s : State) (p : Port) (e : MbxCqe) (hm : s.mbx.movePending = none) : s.sentIn (s.mbxPost p e) := by
  unfold State.mbxPost
  have h1 : ∀ w, (s.setMbxPort p { s.mbxPort p with waiting := w }).mkept = s.mkept :=
    fun w => State.mkept_setMbxPort _ _ _ rfl
  exact State.sentIn_pre (State.sentIn_mbxDrain _ _ _ ((State.movePending_of_mkept (h1 _)).trans hm)) (State.out_setMbxPort _ _ _)

/-- The end of a command takes back nothing that was sent. -/
theorem State.sentIn_mbxFinish (s : State) (c : MbxCmd) (st off h res : Nat) (hm : s.mbx.movePending = none)
    (hp : s.pow.policyDue = false) : s.sentIn (s.mbxFinish c st off h res) := by
  rw [State.mbxFinish_eq c st off h res hm hp]
  unfold State.mbxEnd
  split
  · exact State.sentIn_refl _
  · dsimp only
    split
    · have key : ∀ u : State, u.mkept = s.mkept → ∀ l b, ((u.pbSample none 19 b).pbExtreme 13 l).mbx.movePending = none := by
        intro u hu l b
        have h1 : ((u.pbSample none 19 b).pbExtreme 13 l).mkept = s.mkept := by
          rw [State.mkept_of_kept (State.kept_pbExtreme _ _ _), State.mkept_of_kept (State.kept_pbSample _ _ _ _), hu]
        exact (State.movePending_of_mkept h1).trans hm
      refine State.sentIn_pre (State.sentIn_mbxPost _ _ _ (key _ ?_ _ _)) ?_
      · rfl
      · simp [State.logOutcome]
    · split
      · exact State.sentIn_of_eq (State.out_setMbxPort _ _ _)
      · exact State.sentIn_of_eq rfl

theorem State.mbxPost_sends {s : State} (p : Port) (e : MbxCqe) (hm : s.mbx.movePending = none)
    (hs : s.supply.portsStopped = false) (ha : s.dbg.armed = false) (hw : (s.mbxPort p).waiting = [])
    (hp : (s.mbxPort p).posted < 64) : Out.mbx p (s.mbxPort p).tail.toNat (s.ringEntry p e) ∈ (s.mbxPost p e).out := by
  unfold State.mbxPost
  dsimp only
  rw [hw]
  simp only [List.filter_nil, List.nil_append, List.length_cons, List.length_nil, Nat.zero_add]
  unfold State.mbxDrain
  simp only [State.mbxPort_setMbxPort, hp, if_true]
  unfold State.mbxDrain
  have h1 : ((s.setMbxPort p { s.mbxPort p with waiting := [e] }).setMbxPort p { s.mbxPort p with waiting := [] }).mbx.movePending
      = none := by cases p <;> exact hm
  have he : ((s.setMbxPort p { s.mbxPort p with waiting := [e] }).setMbxPort p { s.mbxPort p with waiting := [] }).ringEntry p e
      = s.ringEntry p e := by cases p <;> rfl
  have := State.mbxWrite_sends (s := (s.setMbxPort p { s.mbxPort p with waiting := [e] }).setMbxPort p
    { s.mbxPort p with waiting := [] }) p e h1 (by simpa using hs) (by simpa using ha)
  rw [he] at this
  simpa using this

@[simp] theorem State.mbx_pbSample (s : State) (k : Option Nat) (h b : Nat) : (s.pbSample k h b).mbx = s.mbx :=
  State.mbx_of_kept (State.kept_pbSample s k h b)

@[simp] theorem State.supply_pbSample (s : State) (k : Option Nat) (h b : Nat) : (s.pbSample k h b).supply = s.supply :=
  State.supply_of_kept (State.kept_pbSample s k h b)

@[simp] theorem State.mbx_pbExtreme (s : State) (i : Nat) (v : Int) : (s.pbExtreme i v).mbx = s.mbx :=
  State.mbx_of_kept (State.kept_pbExtreme s i v)

@[simp] theorem State.supply_pbExtreme (s : State) (i : Nat) (v : Int) : (s.pbExtreme i v).supply = s.supply :=
  State.supply_of_kept (State.kept_pbExtreme s i v)

@[simp] theorem State.dbg_pbExtreme (s : State) (i : Nat) (v : Int) : (s.pbExtreme i v).dbg = s.dbg := by
  unfold State.pbExtreme State.pbExtremeNow; dsimp only; repeat' split
  all_goals rfl

@[simp] theorem State.dbg_pbCount (s : State) (i n : Nat) : (s.pbCount i n).dbg = s.dbg := by
  unfold State.pbCount; repeat' split
  all_goals rfl

@[simp] theorem State.dbg_pbTenant (s : State) (k i n : Nat) : (s.pbTenant k i n).dbg = s.dbg := by
  unfold State.pbTenant; repeat' split
  all_goals rfl

@[simp] theorem State.dbg_pbSample (s : State) (k : Option Nat) (h b : Nat) : (s.pbSample k h b).dbg = s.dbg := by
  unfold State.pbSample; dsimp only; repeat' split
  all_goals simp

/-- The completion of the command that `c` runs, on an idle mailbox, is sent. -/
theorem State.mbxFinish_sends {s : State} {c : MbxCmd} (st off h res : Nat) (hm : s.mbx.movePending = none)
    (hd : s.pow.policyDue = false) (hacc : s.mbx.accepted = [c]) (hposted : c.posted = true)
    (hs : s.supply.portsStopped = false) (ha : s.dbg.armed = false) (hw : (s.mbxPort c.req.port).waiting = [])
    (hp : (s.mbxPort c.req.port).posted < 64) :
    (s.mbxFinish c st off h res).MbxAnswered c.opcode c.req st h res := by
  rw [State.mbxFinish_eq c st off h res hm hd]
  have hfind : s.mbx.accepted.find? (fun d => decide (d.seq = c.seq)) = some c := by simp [hacc]
  unfold State.mbxEnd
  rw [hfind]
  dsimp only
  rw [hposted, if_pos rfl]
  have key : ∀ u : State, u.mbx.portA = s.mbx.portA → u.mbx.portB = s.mbx.portB → u.mbx.movePending = none → u.supply = s.supply →
      u.dbg = s.dbg → ∀ e : MbxCqe, e.tag = c.req.tag → e.opcode = c.opcode → e.slot = c.req.slot → e.status = BitVec.ofNat 8 st →
      e.resultHandle = BitVec.ofNat 32 h → e.result = BitVec.ofNat 96 res →
      (u.mbxPost c.req.port e).MbxAnswered c.opcode c.req st h res := by
    intro u h1 h2 h5 h3 h4 e e1 e2 e3 e4 e5 e6
    have hport : u.mbxPort c.req.port = s.mbxPort c.req.port := by
      cases hc : c.req.port <;> simp [State.mbxPort, h1, h2]
    exact ⟨_, _, State.mbxPost_sends (s := u) c.req.port e h5 (by rw [h3]; exact hs) (by rw [h4]; exact ha) (by rw [hport]; exact hw)
      (by rw [hport]; exact hp), e1, e2, e3, e4, e5, e6⟩
  refine key _ ?_ ?_ ?_ ?_ ?_ _ rfl rfl rfl rfl rfl rfl
  all_goals simp [State.logOutcome, hm]

end Sys2Proof.Machine
end

