-- ==== Sys2Proof/Laws/Submit.lean ====
section
/-! SUPPORT. A mailbox command that an idle mailbox takes: its handler runs at once, and its completion is sent. -/

namespace Sys2Proof.Machine

theorem State.setMbxPort_set (s : State) (p : Port) (x y : MbxPort) : (s.setMbxPort p x).setMbxPort p y = s.setMbxPort p y := by
  cases p <;> rfl

theorem State.setMbxPort_mbx (s : State) (p : Port) (x : MbxPort) : s.setMbxPort p x = { s with mbx := (s.setMbxPort p x).mbx } := by
  cases p <;> rfl

theorem State.seq_setMbxPort (s : State) (p : Port) (x : MbxPort) : (s.setMbxPort p x).mbx.seq = s.mbx.seq := by cases p <;> rfl
theorem State.accepted_setMbxPort (s : State) (p : Port) (x : MbxPort) : (s.setMbxPort p x).mbx.accepted = s.mbx.accepted := by
  cases p <;> rfl
theorem State.manager_setMbxPort (s : State) (p : Port) (x : MbxPort) : (s.setMbxPort p x).mbx.manager = s.mbx.manager := by
  cases p <;> rfl
theorem State.eng_setMbxPort (s : State) (p : Port) (x : MbxPort) : (s.setMbxPort p x).eng = s.eng := by cases p <;> rfl
theorem State.now_setMbxPort (s : State) (p : Port) (x : MbxPort) : (s.setMbxPort p x).now = s.now := by cases p <;> rfl
theorem State.pow_setMbxPort (s : State) (p : Port) (x : MbxPort) : (s.setMbxPort p x).pow = s.pow := by cases p <;> rfl

/-! The start of a command changes the mailbox and the idle timer only. -/

@[simp] theorem State.begun_board (s : State) (op : BitVec 16) (r : MbxReq) : (s.begun op r).board = s.board := rfl
@[simp] theorem State.begun_geo (s : State) (op : BitVec 16) (r : MbxReq) : (s.begun op r).geo = s.geo := rfl
@[simp] theorem State.begun_bolts (s : State) (op : BitVec 16) (r : MbxReq) : (s.begun op r).bolts = s.bolts := rfl
@[simp] theorem State.begun_dies (s : State) (op : BitVec 16) (r : MbxReq) : (s.begun op r).dies = s.dies := rfl
@[simp] theorem State.begun_wr (s : State) (op : BitVec 16) (r : MbxReq) : (s.begun op r).wr = s.wr := rfl
@[simp] theorem State.begun_rd (s : State) (op : BitVec 16) (r : MbxReq) : (s.begun op r).rd = s.rd := rfl
@[simp] theorem State.begun_recl (s : State) (op : BitVec 16) (r : MbxReq) : (s.begun op r).recl = s.recl := rfl
@[simp] theorem State.begun_eng (s : State) (op : BitVec 16) (r : MbxReq) : (s.begun op r).eng = s.eng := rfl
@[simp] theorem State.begun_gauge (s : State) (op : BitVec 16) (r : MbxReq) : (s.begun op r).gauge = s.gauge := rfl
@[simp] theorem State.begun_chan (s : State) (op : BitVec 16) (r : MbxReq) : (s.begun op r).chan = s.chan := rfl
@[simp] theorem State.begun_host (s : State) (op : BitVec 16) (r : MbxReq) : (s.begun op r).host = s.host := rfl
@[simp] theorem State.begun_mem (s : State) (op : BitVec 16) (r : MbxReq) : (s.begun op r).mem = s.mem := rfl
@[simp] theorem State.begun_hem (s : State) (op : BitVec 16) (r : MbxReq) : (s.begun op r).hem = s.hem := rfl
@[simp] theorem State.begun_supply (s : State) (op : BitVec 16) (r : MbxReq) : (s.begun op r).supply = s.supply := rfl
@[simp] theorem State.begun_san (s : State) (op : BitVec 16) (r : MbxReq) : (s.begun op r).san = s.san := rfl
@[simp] theorem State.begun_clk (s : State) (op : BitVec 16) (r : MbxReq) : (s.begun op r).clk = s.clk := rfl
@[simp] theorem State.begun_therm (s : State) (op : BitVec 16) (r : MbxReq) : (s.begun op r).therm = s.therm := rfl
@[simp] theorem State.begun_pb (s : State) (op : BitVec 16) (r : MbxReq) : (s.begun op r).pb = s.pb := rfl
@[simp] theorem State.begun_yard (s : State) (op : BitVec 16) (r : MbxReq) : (s.begun op r).yard = s.yard := rfl
@[simp] theorem State.begun_selv (s : State) (op : BitVec 16) (r : MbxReq) : (s.begun op r).selv = s.selv := rfl
@[simp] theorem State.begun_dbg (s : State) (op : BitVec 16) (r : MbxReq) : (s.begun op r).dbg = s.dbg := rfl
@[simp] theorem State.begun_port (s : State) (op : BitVec 16) (r : MbxReq) : (s.begun op r).port = s.port := rfl
@[simp] theorem State.begun_aon (s : State) (op : BitVec 16) (r : MbxReq) : (s.begun op r).aon = s.aon := rfl
@[simp] theorem State.begun_out (s : State) (op : BitVec 16) (r : MbxReq) : (s.begun op r).out = s.out := rfl
@[simp] theorem State.begun_fresh (s : State) (op : BitVec 16) (r : MbxReq) : (s.begun op r).fresh = s.fresh := rfl
@[simp] theorem State.begun_pending (s : State) (op : BitVec 16) (r : MbxReq) : (s.begun op r).pending = s.pending := rfl

@[simp] theorem State.begun_manager (s : State) (op : BitVec 16) (r : MbxReq) : (s.begun op r).mbx.manager = s.mbx.manager :=
  State.manager_setMbxPort s r.port (s.begunPort op r)

@[simp] theorem State.begun_managerBase (s : State) (op : BitVec 16) (r : MbxReq) : (s.begun op r).managerBase = s.managerBase := by
  unfold State.managerBase; rw [State.begun_manager]

@[simp] theorem State.begun_bme (s : State) (op : BitVec 16) (r : MbxReq) : (s.begun op r).bme = s.bme := by
  unfold State.bme State.managerFn; rw [State.begun_manager]; rfl

theorem State.begunWith_cfg (s : State) (p : Port) (x : MbxPort) (cs : List MbxCmd) (h : x.cfg = (s.mbxPort p).cfg) :
    (s.begunWith p x cs).cfg = s.mbx.cfg := by
  cases p <;> simp_all [State.begunWith, State.setMbxPort, Mbx.cfg, State.mbxPort]

theorem State.begunPort_cfg (s : State) (op : BitVec 16) (r : MbxReq) : (s.begunPort op r).cfg = (s.mbxPort r.port).cfg := by
  simp [State.begunPort, MbxPort.cfg, MbxPort.setBusy]

theorem State.begunPort_waiting (s : State) (op : BitVec 16) (r : MbxReq) :
    (s.begunPort op r).waiting = (s.mbxPort r.port).waiting := by simp [State.begunPort, MbxPort.setBusy]

theorem State.begunPort_posted (s : State) (op : BitVec 16) (r : MbxReq) :
    (s.begunPort op r).posted = (s.mbxPort r.port).posted := by simp [State.begunPort, MbxPort.setBusy]

theorem State.mbxFinish_started (s : State) (c : MbxCmd) (st off h res : Nat) :
    s.mbxFinish { c with started := true, applied := true } st off h res = s.mbxFinish c st off h res := by
  unfold State.mbxFinish State.mbxEnd; rfl

theorem State.begunMbx_cfg (s : State) (op : BitVec 16) (r : MbxReq) : (s.begunMbx op r).cfg = s.mbx.cfg :=
  State.begunWith_cfg s _ _ _ (State.begunPort_cfg s op r)

theorem State.mkept_of_cfg (s : State) (m : Mbx) (n : Nat) (h : m.cfg = s.mbx.cfg) :
    ({ s with mbx := m, pow.idleUs := n } : State).mkept = s.mkept := by
  unfold State.mkept
  show (({ s.rest with mbx := m.cfg, selv := default } : State), s.kept.2) = _
  rw [h]

theorem State.begunWith_accepted (s : State) (p : Port) (x : MbxPort) (cs : List MbxCmd) : (s.begunWith p x cs).accepted = cs := rfl

theorem State.begunWith_movePending (s : State) (p : Port) (x : MbxPort) (cs : List MbxCmd) :
    (s.begunWith p x cs).movePending = s.mbx.movePending := by cases p <;> rfl

theorem State.mbxSlotWrite_free {s : State} (op : BitVec 16) {r : MbxReq} (h : (s.mbxPort r.port).slotBusy r.slot = false) :
    s.mbxSlotWrite op r =
      s.setMbxPort r.port { s.mbxPort r.port with slots := (s.mbxPort r.port).slots.writeBytes (64 * r.slot) (slotBytes op r) } := by
  simp [State.mbxSlotWrite, h]

theorem State.begunWith_state (s : State) (p : Port) (x : MbxPort) (cs : List MbxCmd) :
    ({ s with mbx := s.begunWith p x cs } : State) = { s.setMbxPort p x with mbx.seq := s.mbx.seq + 1, mbx.accepted := cs } := by
  cases p <;> rfl

theorem State.mbxAccept_eq (s : State) (op : BitVec 16) (r : MbxReq) (x : MbxPort) (he : s.entering = false) :
    (s.setMbxPort r.port x).mbxAccept op r =
      (s.queuedCmd op r, { s with mbx := s.begunWith r.port (x.setBusy r.slot true) (s.mbx.accepted ++ [s.queuedCmd op r]) }) := by
  rw [State.begunWith_state]
  have h1 : (s.setMbxPort r.port x).updMbxPort r.port (fun x => x.setBusy r.slot true)
      = s.setMbxPort r.port (x.setBusy r.slot true) := by
    unfold State.updMbxPort
    rw [State.mbxPort_setMbxPort, State.setMbxPort_set]
  have h2 : (s.setMbxPort r.port x).entering = false := by rw [← he]; cases r.port <;> rfl
  unfold State.mbxAccept State.queuedCmd
  dsimp only
  rw [h1, h2, State.seq_setMbxPort, State.eng_setMbxPort, State.now_setMbxPort]
  generalize r.port = p
  generalize r.slot = n
  cases p <;> rfl

theorem State.wakeUp_run {s : State} {src : Nat} (fn : Nat) (hs : src ≠ 6) (h : s.pow.step = .none) (hp : s.pow.ps < 3) :
    s.wakeUp src fn = { s with pow.idleUs := s.now } := by
  unfold State.wakeUp
  rw [h]
  simp [hp, hs]

/-- The pair that serves set M is in Run (R68, R217). -/
def State.Served (s : State) : Prop :=
  s.pow.step = .none ∧ s.pow.ps < 3 ∧ s.eng.dead = false ∧ s.mServed = true ∧ s.pow.stopped.contains (22 + s.eng.setM) = false

theorem State.mbxMayStart_idle {s : State} {c : MbxCmd} (h : s.Served) (hc : c.started = false) (ha : s.mbx.accepted = [c]) :
    s.mbxMayStart c = true := by
  obtain ⟨h, hp, hd, hm, hs⟩ := h
  have h1 : s.mbxServed = true := by
    unfold State.mbxServed
    rw [hs]
    simp [State.entering, h, hp, hd, hm]
  simp [State.mbxMayStart, State.mbxFree, State.allocHeld, h1, hc, ha]

/-- What an accepted command does once it may start at once. -/
def State.goSubmit (p : MbxCmd × State) (handler : MbxCmd → MbxReq → State → MbxRes) : State :=
  let s := p.2.wakeUp 2 p.2.managerBase
  if s.mbxMayStart p.1 then s.mbxRun handler p.1 else s

theorem State.goSubmit_idle {s : State} {c : MbxCmd} (handler : MbxCmd → MbxReq → State → MbxRes) (h : s.Served)
    (hc : c.started = false) (ha : s.mbx.accepted = [c]) :
    State.goSubmit (c, s) handler = ({ s with pow.idleUs := s.now } : State).mbxRun handler c := by
  unfold State.goSubmit
  rw [State.wakeUp_run _ (by decide) h.1 h.2.1]
  exact if_pos (State.mbxMayStart_idle (s := { s with pow.idleUs := s.now }) h hc ha)

/-- The end of the run of a handler that answered `x`. -/
def State.endRun (c : MbxCmd) (r : MbxReq) (x : MbxRes) : State :=
  match x.status with
  | none => x.state
  | some st => x.state.mbxFinish c st x.offset (if st = stOk ∧ x.handle = 0 then r.target.toNat else x.handle) x.result

theorem State.mbxRun_idle {s : State} {c : MbxCmd} (handler : MbxCmd → MbxReq → State → MbxRes) (hr : s.hem.recovery = false)
    (hd : s.aon.noDram = false) (ha : s.mbx.accepted = [c]) :
    s.mbxRun handler c =
      State.endRun c c.req (handler c c.req { s with mbx.accepted := [{ c with started := true, applied := true }] }) := by
  unfold State.mbxRun State.endRun
  simp [State.mbxBarred, hr, hd, ha]
  try rfl

/-- A command on an idle mailbox is accepted and starts at once, whether or not the Fray unit is armed. -/
theorem State.mbxSubmit_go {s : State} {r : MbxReq} (op : BitVec 16) (handler : MbxCmd → MbxReq → State → MbxRes)
    (h : ({ s with dbg.armed := false } : State).MbxIdle r) :
    s.mbxSubmit op handler r = State.endRun (s.queuedCmd op r) r (handler (s.queuedCmd op r) r (s.begun op r)) := by
  obtain ⟨h1, h2, h3, h4, h5, h6, h7, h8, h9, h10, h11, h12, h13, h14, h15, -, -, h18, h19, -⟩ := h
  replace h1 : s.portThere r.port = true := h1
  replace h3 : s.therm.latch = false := h3
  replace h4 : s.mbx.manager = r.port := h4
  replace h5 : s.eng.dead = false := h5
  replace h6 : (s.mbxPort r.port).slotBusy r.slot = false := h6
  replace h7 : s.mbxReady r.port = true := h7
  replace h13 : s.pow.step = .none := h13
  have h20 : s.entering = false := by simp [State.entering, h13]
  replace h10 : s.mbx.accepted = [] := h10
  unfold State.mbxSubmit
  rw [if_neg (by simp [h1, h2, h3])]
  dsimp only
  rw [if_neg]
  · show State.goSubmit ((s.mbxSlotWrite op r).mbxAccept op r) handler = _
    rw [State.mbxSlotWrite_free op h6, State.mbxAccept_eq s op r _ h20, h10]
    refine (State.goSubmit_idle handler ?_ ?_ ?_).trans ?_
    · exact ⟨h13, h12, h5, h18, h19⟩
    · rfl
    · rfl
    refine (State.mbxRun_idle handler ?_ ?_ ?_).trans ?_
    · exact h15
    · exact h14
    · rfl
    rfl
  · rw [State.mbxSlotWrite_free op h6]
    have h7' : ∀ x : MbxPort, x.ready = (s.mbxPort r.port).ready → x.readyAt = (s.mbxPort r.port).readyAt →
        (s.setMbxPort r.port x).mbxReady r.port = true := by
      intro x e1 e2
      rw [← h7]
      unfold State.mbxReady
      rw [State.mbxPort_setMbxPort, e1, e2, State.now_setMbxPort]
    simp [State.manager_setMbxPort, State.eng_setMbxPort, h4, h5, h6, h7']

theorem State.MbxIdle.ports {s : State} {r : MbxReq} (h : s.MbxIdle r) : s.supply.portsStopped = false :=
  h.2.2.2.2.2.2.2.2.2.2.2.2.2.2.2.1

theorem State.MbxIdle.unarmed {s : State} {r : MbxReq} (h : s.MbxIdle r) : s.dbg.armed = false :=
  h.2.2.2.2.2.2.2.2.2.2.2.2.2.2.2.2.1

theorem State.MbxIdle.noMove {s : State} {r : MbxReq} (h : s.MbxIdle r) : s.mbx.movePending = none :=
  h.2.2.2.2.2.2.2.2.2.2.1

theorem State.MbxIdle.noPolicy {s : State} {r : MbxReq} (h : s.MbxIdle r) : s.pow.policyDue = false :=
  h.2.2.2.2.2.2.2.2.2.2.2.2.2.2.2.2.2.2.2

/-- A command on an idle mailbox is accepted and starts at once. -/
theorem State.mbxSubmit_run {s : State} {r : MbxReq} (op : BitVec 16) (handler : MbxCmd → MbxReq → State → MbxRes) (h : s.MbxIdle r) :
    s.mbxSubmit op handler r = State.endRun (s.queuedCmd op r) r (handler (s.queuedCmd op r) r (s.begun op r)) :=
  State.mbxSubmit_go op handler (by
    obtain ⟨h1, h2, h3, h4, h5, h6, h7, h8, h9, h10, h11, h12, h13, h14, h15, h16, h17, h18⟩ := h
    exact ⟨h1, h2, h3, h4, h5, h6, h7, h8, h9, h10, h11, h12, h13, h14, h15, h16, rfl, h18⟩)

theorem State.mbxPort_begunWith (s : State) (p : Port) (x : MbxPort) (cs : List MbxCmd) (u : State)
    (h : u.mbx = s.begunWith p x cs) : u.mbxPort p = x := by
  unfold State.mbxPort
  rw [h]
  cases p <;> rfl

/-- A command whose handler answers at once: its completion is sent, and the end of it changes nothing but what `mkept` leaves
out. -/
theorem State.mbx_answers {s u : State} {r : MbxReq} {op : BitVec 16} {handler : MbxCmd → MbxReq → State → MbxRes}
    {st off handle result : Nat} (hi : s.MbxIdle r)
    (hh : handler (s.queuedCmd op r) r (s.begun op r) = ⟨u, some st, off, handle, result⟩) (hm : u.mbx = s.begunMbx op r)
    (hs : u.supply.portsStopped = false) (hd : u.dbg.armed = false) (hpd : u.pow.policyDue = false) :
    (s.mbxSubmit op handler r).MbxAnswered op r st (if st = stOk ∧ handle = 0 then r.target.toNat else handle) result ∧
      (s.mbxSubmit op handler r).mkept = u.mkept := by
  have hp := State.mbxPort_begunWith s r.port (s.begunPort op r) _ u hm
  obtain ⟨h1, h2, h3, h4, h5, h6, h7, h8, h9, h10, h11, h12, h13, h14, h15, h16, h17, -⟩ := id hi
  rw [State.mbxSubmit_run op handler hi, hh]
  have hw : (u.mbxPort r.port).waiting = [] := by rw [hp, State.begunPort_waiting]; exact h8
  have hq : (u.mbxPort r.port).posted < 64 := by rw [hp, State.begunPort_posted]; exact h9
  have ha : u.mbx.accepted = [{ s.queuedCmd op r with started := true, applied := true }] := by rw [hm]; rfl
  have hmv : u.mbx.movePending = none := by rw [hm]; exact (State.begunWith_movePending _ _ _ _).trans h11
  constructor
  · show (u.mbxFinish (s.queuedCmd op r) st off (if st = stOk ∧ handle = 0 then r.target.toNat else handle) result).MbxAnswered _ _ _ _ _
    rw [← State.mbxFinish_started]
    exact State.mbxFinish_sends (c := { s.queuedCmd op r with started := true, applied := true }) st off _ result hmv hpd ha rfl hs hd hw hq
  · exact State.mkept_mbxFinish u _ st off _ result hmv hpd

/-- The start of a mailbox command changes nothing but what `mkept` leaves out. -/
theorem State.mkept_begun (s : State) (op : BitVec 16) (r : MbxReq) : (s.begun op r).mkept = s.mkept :=
  State.mkept_of_cfg s _ _ (State.begunMbx_cfg s op r)

end Sys2Proof.Machine
end

