-- ==== Sys2Proof/Laws/Checks.lean ====
section
/-! SUPPORT. The checks of a mailbox command: where no condition holds, the command does what it does. -/

namespace Sys2Proof.Machine

theorem lowestOffset_none {l : List (Option Nat)} (h : ∀ o ∈ l, o = none) : lowestOffset l = none := by
  induction l with
  | nil => rfl
  | cons o r ih =>
    have ho : o = none := h o (by simp)
    subst ho
    simpa [lowestOffset] using ih (fun x hx => h x (by simp [hx]))

theorem firstStatus_none {l : List (Bool × Nat)} (h : ∀ p ∈ l, p.1 = false) : firstStatus l = none := by
  induction l with
  | nil => rfl
  | cons p r ih =>
    obtain ⟨c, st⟩ := p
    have hc : c = false := h (c, st) (by simp)
    subst hc
    simpa [firstStatus] using ih (fun x hx => h x (by simp [hx]))

theorem firstNonzero_zero {w : Nat} (off len : Nat) : firstNonzero (0#w) off len = none := by
  induction len generalizing off with
  | zero => rfl
  | succ n ih => simp [firstNonzero, fieldLE, ih]

/-- The common part of a slot whose reserved flags and bytes are 0 offends nowhere. -/
theorem common_none {r : MbxReq} (hf : r.flags.toNat < 4) (ha : r.rsvA = 0#24) (hb : r.rsvB = 0#32) :
    ∀ o ∈ r.common, o = none := by
  have : ¬ 4 ≤ r.flags.toNat := by omega
  simp [MbxReq.common, badIf, this, ha, hb, firstNonzero_zero]

theorem guard_pass {r : MbxReq} {s : State} {bad : List (Option Nat)} {rest : List (Bool × Nat)} {act : Unit → MbxRes}
    (hf : r.flags.toNat < 4) (ha : r.rsvA = 0#24) (hc : r.rsvB = 0#32) (hb : ∀ o ∈ bad, o = none) (hr : ∀ p ∈ rest, p.1 = false) :
    r.guard s bad rest act = act () := by
  have h1 : lowestOffset (r.common ++ bad) = none := by
    apply lowestOffset_none
    intro o ho
    rcases List.mem_append.mp ho with h | h
    · exact common_none hf ha hc o h
    · exact hb o h
  simp [MbxReq.guard, mbxVerdict, h1, firstStatus_none hr]

theorem guard0_pass {r : MbxReq} {s : State} {bad : List (Option Nat)} {rest : List (Bool × Nat)} {act : Unit → MbxRes}
    (hf : r.flags.toNat < 4) (ha : r.rsvA = 0#24) (hc : r.rsvB = 0#32) (ht : r.target = 0#32) (hb : ∀ o ∈ bad, o = none)
    (hr : ∀ p ∈ rest, p.1 = false) : r.guard0 s bad rest act = act () := by
  unfold MbxReq.guard0
  apply guard_pass hf ha hc _ hr
  intro o ho
  rcases List.mem_cons.mp ho with h | h
  · simpa [badIf, ht] using h
  · exact hb o h

theorem checkHandle_kind {s : State} {kind h slot k : Nat} (hv : s.checkHandle kind h = .valid slot k) :
    h / 2 ^ 28 = kind ∧ slot = handleSlot h := by
  unfold State.checkHandle at hv
  split at hv
  · cases hv
  · rename_i h1
    split at hv
    · cases hv
    · split at hv
      · cases hv
      · split at hv
        · simp only [HandleCheck.valid.injEq] at hv
          exact ⟨Decidable.not_not.mp h1, hv.1.symm⟩
        · cases hv

theorem handleOwner_valid {s : State} {kind h slot k : Nat} (hv : s.checkHandle kind h = .valid slot k) :
    s.handleOwner h = some k := by
  unfold State.handleOwner
  rw [(checkHandle_kind hv).1, hv]

theorem handleBad_valid {s : State} {kind h slot k : Nat} (hv : s.checkHandle kind h = .valid slot k) :
    s.handleBad kind h = false := by simp [State.handleBad, hv]

theorem handleStale_valid {s : State} {kind h slot k : Nat} (hv : s.checkHandle kind h = .valid slot k) :
    s.handleStale kind h = false := by simp [State.handleStale, hv]

theorem tenantD_of {s : State} {k : Nat} {t : Tenant} (h : s.tenant k = some t) : s.tenantD k = t := by simp [State.tenantD, h]

theorem guardH_pass {r : MbxReq} {s : State} {kind slot k : Nat} {t : Tenant} {frozenOk : Bool} {bad : List (Option Nat)}
    {rest : Nat → Tenant → List (Bool × Nat)} {act : Nat → Nat → Tenant → MbxRes} (hf : r.flags.toNat < 4) (ha : r.rsvA = 0#24)
    (hc : r.rsvB = 0#32) (hn : s.Names kind r slot k t) (hz : frozenOk = true ∨ t.frozen = false) (hb : ∀ o ∈ bad, o = none)
    (hr : ∀ p ∈ rest slot t, p.1 = false) : r.guardH s kind frozenOk bad rest act = act slot k t := by
  obtain ⟨hv, ht⟩ := hn
  have hs := (checkHandle_kind hv).2
  unfold MbxReq.guardH
  simp only [handleOwner_valid hv, handleBad_valid hv, handleStale_valid hv, Option.getD_some, tenantD_of ht, ← hs]
  rw [guard_pass hf ha hc]
  · intro o ho
    rcases List.mem_cons.mp ho with h | h
    · simpa [badIf] using h
    · exact hb o h
  · intro p hp
    rcases List.mem_cons.mp hp with h | h
    · simp [h]
    · rcases List.mem_cons.mp h with h | h
      · rcases hz with h1 | h1 <;> simp [h, h1]
      · exact hr p h

theorem outOf_none {r : MbxReq} {off len lo hi : Nat} (h1 : lo ≤ r.p off len) (h2 : r.p off len ≤ hi) : outOf r off len lo hi = none := by
  simp [outOf, badIf]; omega

theorem badIf_none {c : Bool} {off : Nat} (h : c = false) : badIf c off = none := by simp [badIf, h]

theorem hem_pass {r : MbxReq} {s : State} {act : Unit → MbxRes} (h : s.MayStore r) : r.hem s act = act () := by
  simp [MbxReq.hem, h.1, h.2]

theorem acts_calm {s : State} (h : s.san.s.running = false) : ∀ p ∈ s.acts, p.1 = false := by simp [State.acts, h]

theorem writes_calm {s : State} (h : s.san.s.running = false) (k : s.supply.ewLatched = false) : ∀ p ∈ s.writes, p.1 = false := by
  simp [State.writes, State.acts, h, k]

theorem buffers_calm {s : State} (h : s.bme = true) : ∀ p ∈ s.buffers, p.1 = false := by simp [State.buffers, h]

theorem buffers_writes {s : State} (b : s.bme = true) (h : s.san.s.running = false) (k : s.supply.ewLatched = false) :
    ∀ p ∈ s.buffers ++ s.writes, p.1 = false := by
  intro p hp
  rcases List.mem_append.mp hp with hp | hp
  · exact buffers_calm b p hp
  · exact writes_calm h k p hp

end Sys2Proof.Machine
end

