-- ==== Sys2Proof/Laws/Does.lean ====
section
/-! SUPPORT. Rows of mailbox commands that complete with OK. -/

namespace Sys2Proof.Machine

theorem tenant_mem {s : State} {k : Nat} {t : Tenant} (h : s.tenant k = some t) : (k, t) ∈ s.host.tenants := by
  unfold State.tenant at h
  generalize s.host.tenants = l at h
  induction l with
  | nil => simp [Tab.find] at h
  | cons p r ih =>
    obtain ⟨j, w⟩ := p
    simp only [Tab.find] at h
    split at h
    · rename_i e; simp_all
    · simp [ih h]

/-- Calm, by the tenants that a slot names. -/
theorem State.calm_iff (s : State) : s.Calm ↔ s.aon.warmCmd = none ∧ s.aon.warmDue = false ∧ s.san.s.running = false ∧
    s.pow.held = none ∧ s.hem.actStep = 0 ∧ ∀ k t, s.tenant k = some t → t.formatting ≠ 1 ∧ t.convCmd = none := by
  unfold State.Calm
  constructor
  · rintro ⟨h1, h2, h3, h4, h6, h5⟩
    refine ⟨h1, h2, h3, h4, h6, fun k t ht => ?_⟩
    have := h5 (k, t) (tenant_mem ht)
    rwa [tenantD_of ht] at this
  · rintro ⟨h1, h2, h3, h4, h6, h5⟩
    refine ⟨h1, h2, h3, h4, h6, fun p _ => ?_⟩
    cases ht : s.tenant p.1 with
    | none => simp [State.tenantD, ht, Tenant.nothing]; decide
    | some t => rw [tenantD_of ht]; exact h5 p.1 t ht

theorem State.calm_of_mkept {s t : State} (h : s.mkept = t.mkept) (ht : t.Calm) : s.Calm := by
  rw [State.calm_iff] at ht ⊢
  obtain ⟨h1, h2, h3, h4, h6, h5⟩ := ht
  have hr := congrArg Prod.fst h
  refine ⟨?_, ?_, ?_, ?_, ?_, ?_⟩
  · have k := congrArg (fun u : State => u.aon.warmCmd) hr; exact Eq.trans k h1
  · have k := congrArg (fun u : State => u.aon.warmDue) hr; exact Eq.trans k h2
  · have k := congrArg (fun u : State => u.san.s.running) hr; exact Eq.trans k h3
  · have k := congrArg (fun u : State => u.pow.held) hr; exact Eq.trans k h4
  · have k := congrArg (fun u : State => u.hem.actStep) hr; exact Eq.trans k h6
  · intro k x hx
    have hk : (s.tenant k).map Tenant.cfg = (t.tenant k).map Tenant.cfg := by
      have := congrArg (fun p => p.2.2) h; exact congrFun this k
    rw [hx] at hk
    cases hy : t.tenant k with
    | none => rw [hy] at hk; cases hk
    | some y =>
      rw [hy] at hk
      simp only [Option.map_some, Option.some.injEq] at hk
      have := h5 k y hy
      have e1 : x.formatting = y.formatting := by have j := congrArg Tenant.formatting hk; exact j
      have e2 : x.convCmd = y.convCmd := by have j := congrArg Tenant.convCmd hk; exact j
      rw [e1, e2]; exact this

/-- A row whose outcome is that of its mailbox command, whose handler answers OK at once and leaves `v` but for what the start of
the command changed. -/
theorem State.does {s v : State} {i : Instr} {r : MbxReq} {op : BitVec 16} {handler : MbxCmd → MbxReq → State → MbxRes}
    {off handle result : Nat} (hi : s.Takes r) (hx : exec i s = .next (s.mbxSubmit op handler r))
    (hv : v.mbx = s.mbx ∧ v.supply = s.supply ∧ v.dbg = s.dbg)
    (hh : handler (s.queuedCmd op r) r (s.begun op r) =
      ⟨{ v with mbx := s.begunMbx op r, pow.idleUs := s.now }, some stOk, off, handle, result⟩)
    (hp : v.pow.policyDue = s.pow.policyDue := by rfl) :
    s.Does i op r (if handle = 0 then r.target.toNat else handle) result v := by
  have hs : v.supply.portsStopped = false := by rw [hv.2.1]; exact hi.1.ports
  have hd : v.dbg.armed = false := by rw [hv.2.2]; exact hi.1.unarmed
  obtain ⟨h1, h2⟩ := State.mbx_answers hi.1 hh rfl hs hd (hp.trans hi.1.noPolicy)
  refine ⟨_, hx, ?_, h2.trans ?_⟩
  · simpa using h1
  · exact State.mkept_of_cfg v _ _ (by rw [State.begunMbx_cfg, hv.1])

/-- The same for a row that lets what waits go on. -/
theorem State.does_settled {s v : State} {i : Instr} {r : MbxReq} {op : BitVec 16} {handler : MbxCmd → MbxReq → State → MbxRes}
    {off handle result : Nat} (hi : s.Takes r) (hx : exec i s = settled (.next (s.mbxSubmit op handler r)))
    (hv : v.mbx = s.mbx ∧ v.supply = s.supply ∧ v.dbg = s.dbg) (hc : v.Calm)
    (hh : handler (s.queuedCmd op r) r (s.begun op r) =
      ⟨{ v with mbx := s.begunMbx op r, pow.idleUs := s.now }, some stOk, off, handle, result⟩)
    (hp : v.pow.policyDue = s.pow.policyDue := by rfl) :
    s.Does i op r (if handle = 0 then r.target.toNat else handle) result v := by
  have hs : v.supply.portsStopped = false := by rw [hv.2.1]; exact hi.1.ports
  have hd : v.dbg.armed = false := by rw [hv.2.2]; exact hi.1.unarmed
  obtain ⟨h1, h2⟩ := State.mbx_answers hi.1 hh rfl hs hd (hp.trans hi.1.noPolicy)
  have h3 := h2.trans (State.mkept_of_cfg v _ s.now (by rw [State.begunMbx_cfg, hv.1]))
  refine ⟨_, ?_, ?_, h3⟩
  · rw [hx]; exact settled_calm (State.calm_of_mkept h3 hc)
  · simpa using h1

/-- A row that lets what waits go on, whose handler answers OK at once. -/
theorem State.ends {s u : State} {i : Instr} {r : MbxReq} {op : BitVec 16} {handler : MbxCmd → MbxReq → State → MbxRes}
    {handle result : Nat} (hi : s.Takes r) (hx : exec i s = settled (.next (s.mbxSubmit op handler r)))
    (hh : handler (s.queuedCmd op r) r (s.begun op r) = ⟨u, some stOk, 0xFFFF, handle, result⟩) :
    s.Ends i op r (if handle = 0 then r.target.toNat else handle) result u := by
  unfold State.Ends
  rw [hx, State.mbxSubmit_run op handler hi.1, hh]
  simp [settled, State.endRun]

/-- A row whose handler answers OK at once. -/
theorem State.finishes {s u : State} {i : Instr} {r : MbxReq} {op : BitVec 16} {handler : MbxCmd → MbxReq → State → MbxRes}
    {handle result : Nat} (hi : s.Takes r) (hx : exec i s = .next (s.mbxSubmit op handler r))
    (hh : handler (s.queuedCmd op r) r (s.begun op r) = ⟨u, some stOk, 0xFFFF, handle, result⟩) :
    s.Finishes i op r (if handle = 0 then r.target.toNat else handle) result u := by
  unfold State.Finishes
  rw [hx, State.mbxSubmit_run op handler hi.1, hh]
  simp [State.endRun]

/-- A row whose command does not end yet. -/
theorem State.stays {s u : State} {i : Instr} {r : MbxReq} {op : BitVec 16} {handler : MbxCmd → MbxReq → State → MbxRes}
    (hi : s.Takes r) (hx : exec i s = .next (s.mbxSubmit op handler r))
    (hh : handler (s.queuedCmd op r) r (s.begun op r) = MbxRes.goesOn u) : exec i s = .next u := by
  rw [hx, State.mbxSubmit_run op handler hi.1, hh]
  rfl

/-- `does`, where the state that the handler leaves is `v` but for what `mkept` leaves out. -/
theorem State.does_mkept {s u v : State} {i : Instr} {r : MbxReq} {op : BitVec 16} {handler : MbxCmd → MbxReq → State → MbxRes}
    {off handle result : Nat} (hi : s.Takes r) (hx : exec i s = .next (s.mbxSubmit op handler r))
    (hh : handler (s.queuedCmd op r) r (s.begun op r) = ⟨u, some stOk, off, handle, result⟩)
    (hm : u.mbx = s.begunMbx op r) (hs : u.supply = s.supply) (hd : u.dbg.armed = s.dbg.armed) (hu : u.mkept = v.mkept)
    (hp : u.pow.policyDue = s.pow.policyDue := by rfl) :
    s.Does i op r (if handle = 0 then r.target.toNat else handle) result v := by
  have h1 : u.supply.portsStopped = false := by rw [hs]; exact hi.1.ports
  have h2 : u.dbg.armed = false := by rw [hd]; exact hi.1.unarmed
  obtain ⟨h3, h4⟩ := State.mbx_answers hi.1 hh hm h1 h2 (hp.trans hi.1.noPolicy)
  exact ⟨_, hx, by simpa using h3, h4.trans hu⟩

/-- A row that lets what waits go on, whose command does not end yet. -/
theorem State.waits {s u : State} {i : Instr} {r : MbxReq} {op : BitVec 16} {handler : MbxCmd → MbxReq → State → MbxRes}
    (hi : s.Takes r) (hx : exec i s = settled (.next (s.mbxSubmit op handler r)))
    (hh : handler (s.queuedCmd op r) r (s.begun op r) = MbxRes.goesOn u) : exec i s = .next u.after := by
  rw [hx, State.mbxSubmit_run op handler hi.1, hh]
  rfl

theorem mkHandle_ne {kind slot gen : Nat} (h : kind ≠ 0) : mkHandle kind slot gen ≠ 0 := by
  unfold mkHandle; omega

theorem State.handleOf_ne (s : State) {kind slot : Nat} (h : kind ≠ 0) : s.handleOf kind slot ≠ 0 := mkHandle_ne h

/-- `does`, for a RESULT_HANDLE that the command names. -/
theorem State.does_handle {s v : State} {i : Instr} {r : MbxReq} {op : BitVec 16} {handler : MbxCmd → MbxReq → State → MbxRes}
    {off handle result : Nat} (hi : s.Takes r) (hn : handle ≠ 0) (hx : exec i s = .next (s.mbxSubmit op handler r))
    (hv : v.mbx = s.mbx ∧ v.supply = s.supply ∧ v.dbg = s.dbg)
    (hh : handler (s.queuedCmd op r) r (s.begun op r) =
      ⟨{ v with mbx := s.begunMbx op r, pow.idleUs := s.now }, some stOk, off, handle, result⟩)
    (hp : v.pow.policyDue = s.pow.policyDue := by rfl) :
    s.Does i op r handle result v := by
  have := State.does hi hx hv hh hp
  rwa [if_neg hn] at this

/-- `does`, for a RESULT_HANDLE that is the TARGET. -/
theorem State.does_target {s v : State} {i : Instr} {r : MbxReq} {op : BitVec 16} {handler : MbxCmd → MbxReq → State → MbxRes}
    {off handle result : Nat} (hi : s.Takes r) (hn : handle = 0 ∨ handle = r.target.toNat)
    (hx : exec i s = .next (s.mbxSubmit op handler r))
    (hv : v.mbx = s.mbx ∧ v.supply = s.supply ∧ v.dbg = s.dbg)
    (hh : handler (s.queuedCmd op r) r (s.begun op r) =
      ⟨{ v with mbx := s.begunMbx op r, pow.idleUs := s.now }, some stOk, off, handle, result⟩)
    (hp : v.pow.policyDue = s.pow.policyDue := by rfl) :
    s.Does i op r r.target.toNat result v := by
  have := State.does hi hx hv hh hp
  rcases hn with h | h
  · rwa [if_pos h] at this
  · rw [h] at this; simpa using this

theorem State.does_target_settled {s v : State} {i : Instr} {r : MbxReq} {op : BitVec 16}
    {handler : MbxCmd → MbxReq → State → MbxRes} {off handle result : Nat} (hi : s.Takes r)
    (hn : handle = 0 ∨ handle = r.target.toNat)
    (hx : exec i s = settled (.next (s.mbxSubmit op handler r)))
    (hv : v.mbx = s.mbx ∧ v.supply = s.supply ∧ v.dbg = s.dbg) (hc : v.Calm)
    (hh : handler (s.queuedCmd op r) r (s.begun op r) =
      ⟨{ v with mbx := s.begunMbx op r, pow.idleUs := s.now }, some stOk, off, handle, result⟩)
    (hp : v.pow.policyDue = s.pow.policyDue := by rfl) :
    s.Does i op r r.target.toNat result v := by
  have := State.does_settled hi hx hv hc hh hp
  rcases hn with h | h
  · rwa [if_pos h] at this
  · rw [h] at this; simpa using this

theorem State.updTenant_of {s : State} {k : Nat} {t : Tenant} (h : s.tenant k = some t) (f : Tenant → Tenant) :
    s.updTenant k f = s.setTenant k (f t) := by simp [State.updTenant, h]

@[simp] theorem State.setTenant_setTenant (s : State) (k : Nat) (t u : Tenant) : (s.setTenant k t).setTenant k u = s.setTenant k u := by
  simp [State.setTenant]

@[simp] theorem State.updTenant_setTenant (s : State) (k : Nat) (t : Tenant) (f : Tenant → Tenant) :
    (s.setTenant k t).updTenant k f = s.setTenant k (f t) := by
  rw [State.updTenant_of (t := t)]
  · simp
  · simp [State.tenant_setTenant]

theorem ownerOf_valid {s : State} {kind h slot k : Nat} (hv : s.checkHandle kind h = .valid slot k) : s.ownerOf kind slot = some k := by
  have hs := (checkHandle_kind hv).2
  unfold State.checkHandle at hv
  split at hv
  · cases hv
  · split at hv
    · cases hv
    · split at hv
      · cases hv
      · rename_i ho
        split at hv
        · simp only [HandleCheck.valid.injEq] at hv
          rw [hs, ho, hv.2]
        · cases hv

/-- The tenant of a key slot. -/
theorem keyOwner {s : State} {r : MbxReq} {slot k : Nat} {t : Tenant} (h : s.Names 4 r slot k t) : k = slot / 2 := by
  have := ownerOf_valid h.1
  simp only [State.ownerOf] at this
  cases hx : s.tenant (slot / 2) with
  | none => rw [hx] at this; cases this
  | some x => rw [hx] at this; simpa using this.symm

/-- The generation of a live handle's slot is the handle's. -/
theorem names_handle {s : State} {kind : Nat} {r : MbxReq} {slot k : Nat} {t : Tenant} (h : s.Names kind r slot k t) :
    r.target.toNat = s.handleOf kind slot := by
  have hv := h.1
  have hs := (checkHandle_kind hv)
  unfold State.checkHandle at hv
  split at hv
  · cases hv
  · split at hv
    · cases hv
    · split at hv
      · cases hv
      · split at hv
        · rename_i hg
          have h3 : r.target.toNat < 2 ^ 32 := r.target.isLt
          obtain ⟨h1, h2⟩ := hs
          unfold State.handleOf mkHandle
          rw [h2, hg, ← h1]
          unfold handleSlot
          omega
        · cases hv

/-- A key slot that is not EMPTY, destroyed. -/
theorem State.destroyKey_of {s : State} {k j : Nat} {t : Tenant} (ok : Bool) (h : s.tenant k = some t) (hs : (t.key j).st ≠ .empty) :
    s.destroyKey k j ok = (s.bumpGen 4 (2 * k + j)).setTenant k { t with
      keys := t.keys.set j { t.key j with
        st := .empty, ram := none, record := none, stale := !ok && (t.key j).record.isSome, conv := 0 }
      c8 := bumpAt t.c8 2 1 } := by
  unfold State.destroyKey State.c8
  rw [tenantD_of h]
  dsimp only
  rw [if_neg hs, State.updTenant_of h]
  have : ∀ a : Tenant, (s.setTenant k a).bumpGen 4 (2 * k + j) = (s.bumpGen 4 (2 * k + j)).setTenant k a := fun _ => rfl
  rw [this, State.updTenant_setTenant]

theorem writes_none {s : State} (h : s.san.s.running = false) (k : s.supply.ewLatched = false) (b : Nat) : (true, b) ∉ s.writes := by
  simp [State.writes, State.acts, h, k]

theorem State.Does.congr {s u v : State} {i : Instr} {op : BitVec 16} {r : MbxReq} {h x : Nat} (d : s.Does i op r h x u)
    (k : u.mkept = v.mkept) : s.Does i op r h x v := by
  obtain ⟨t, h1, h2, h3⟩ := d
  exact ⟨t, h1, h2, h3.trans k⟩

end Sys2Proof.Machine
end

