-- ==== Sys2Proof/Laws/Apart.lean ====
section
/-! SUPPORT. What the activity of the functions' queues, and events to them, leave as it is. -/

namespace Sys2Proof.Machine

theorem State.apart_of_kept {s t : State} (h : s.kept = t.kept) : s.apart = t.apart := by
  have hr := State.rest_of_kept h
  have ht : (fun k => (s.tenant k).map Tenant.cfg) = fun k => (t.tenant k).map Tenant.cfg :=
    funext fun k => State.tenantCfg_of_kept h k
  unfold State.apart
  rw [hr, ht]

theorem State.mapart_of_apart {s t : State} (h : s.apart = t.apart) : s.mapart = t.mapart := by
  have hm : s.mbx = t.mbx := by have k := congrArg (fun u : State × (Nat → Option Tenant) => u.1.mbx) h; exact k
  unfold State.mapart
  rw [h, hm]

theorem State.mapart_of_mkept {s t : State} (h : s.mkept = t.mkept) : s.mapart = t.mapart := by
  have h1 := congrArg (fun u : State × (FnId → Fn) × (Nat → Option Tenant) =>
    (({ u.1 with host.fetchTagsA := 0, host.fetchTagsB := 0 } : State), u.2.2)) h
  exact h1

theorem State.mbx_of_apart {s t : State} (h : s.apart = t.apart) : s.mbx = t.mbx := by
  have k := congrArg (fun u : State × (Nat → Option Tenant) => u.1.mbx) h; exact k

theorem State.supply_of_apart {s t : State} (h : s.apart = t.apart) : s.supply = t.supply := by
  have k := congrArg (fun u : State × (Nat → Option Tenant) => u.1.supply) h; exact k

theorem State.armed_of_apart {s t : State} (h : s.apart = t.apart) : s.dbg.armed = t.dbg.armed := by
  have k := congrArg (fun u : State × (Nat → Option Tenant) => u.1.dbg.armed) h; exact k

theorem foldl_apart {α : Type} (g : State → α → State) (h : ∀ s a, (g s a).apart = s.apart) (l : List α) (s : State) :
    (l.foldl g s).apart = s.apart := by
  induction l generalizing s with
  | nil => rfl
  | cons a r ih => rw [List.foldl_cons, ih, h]

@[simp] theorem State.apart_setFn (s : State) (f : FnId) (x : Fn) : (s.setFn f x).apart = s.apart := rfl
@[simp] theorem State.apart_updFn (s : State) (f : FnId) (g : Fn → Fn) : (s.updFn f g).apart = s.apart := rfl
@[simp] theorem State.apart_emit (s : State) (o : Out) : (s.emit o).apart = s.apart := State.apart_of_kept (State.kept_emit s o)
@[simp] theorem State.apart_complete (s : State) (f : FnId) (c : Cpl) : (s.complete f c).apart = s.apart :=
  State.apart_of_kept (State.kept_complete s f c)
@[simp] theorem State.apart_postCqe (s : State) (f : FnId) (q : Nat) (e : Cqe) : (s.postCqe f q e).apart = s.apart :=
  State.apart_of_kept (State.kept_postCqe s f q e)
@[simp] theorem State.apart_errorLog (s : State) (f : FnId) (a b c : Nat) (d : BitVec 32) (e : Nat) :
    (s.errorLog f a b c d e).apart = s.apart := State.apart_of_kept (State.kept_errorLog s f a b c d e)
@[simp] theorem State.apart_settleDeletes (s : State) (f : FnId) : (s.settleDeletes f).apart = s.apart :=
  State.apart_of_kept (State.kept_settleDeletes s f)
@[simp] theorem State.apart_issueMsix (s : State) (f : FnId) (v : Nat) : (s.issueMsix f v).apart = s.apart :=
  State.apart_of_kept (State.kept_issueMsix s f v)
@[simp] theorem State.apart_dueMsix (s : State) (f : FnId) (v : Nat) : (s.dueMsix f v).apart = s.apart :=
  State.apart_of_kept (State.kept_dueMsix s f v)
@[simp] theorem State.apart_setTags (s : State) (p : Port) (n : Nat) : (s.setTags p n).apart = s.apart := by cases p <;> rfl

theorem State.apart_meters (s : State) (k i n : Nat) :
    (s.updTenant k (fun t => { t with meters := bumpAt t.meters i n })).apart = s.apart :=
  State.apart_of_kept (State.kept_updTenant s k _ (fun _ => rfl))

@[simp] theorem State.apart_completeFetched (s : State) (f : FnId) (q : Nat) (c : NvmeCmd) (st : Nat) :
    (s.completeFetched f q c st).apart = s.apart := by
  unfold State.completeFetched
  dsimp only
  rw [State.apart_settleDeletes]
  split
  · simp
  · split
    · simp
    · rw [State.apart_meters]; simp

@[simp] theorem State.apart_asyncEvent (s : State) (f : FnId) (a b c : Nat) : (s.asyncEvent f a b c).apart = s.apart := by
  unfold State.asyncEvent
  dsimp only
  split
  · rfl
  · split
    · rfl
    · rw [State.apart_complete]; rfl

@[simp] theorem State.apart_vendorEvent (s : State) (f : FnId) (a b c d : Nat) : (s.vendorEvent f a b c d).apart = s.apart := by
  unfold State.vendorEvent
  dsimp only
  split
  · split
    · rfl
    · rw [State.apart_asyncEvent]; rfl
  · rfl

@[simp] theorem State.apart_vendorEventAll (s : State) (a b c d : Nat) : (s.vendorEventAll a b c d).apart = s.apart := by
  unfold State.vendorEventAll
  exact foldl_apart _ (fun s p => State.apart_vendorEvent s _ _ _ _ _) _ _

@[simp] theorem State.apart_smartEventAll (s : State) (a b : Nat) : (s.smartEventAll a b).apart = s.apart := by
  unfold State.smartEventAll
  refine foldl_apart _ (fun s p => ?_) _ _
  split
  · exact State.apart_asyncEvent _ _ _ _ _
  · rfl

@[simp] theorem State.apart_notice (s : State) (f : FnId) (a b c : Nat) : (s.notice f a b c).apart = s.apart := by
  unfold State.notice; split
  · simp
  · rfl

theorem State.fetchOnce_apart (s : State) (f : FnId) (q : Nat) : (s.fetchOnce f q).apart = s.apart :=
  State.apart_of_kept (State.kept_fetchOnce s f q)

@[simp] theorem State.apart_tryFetch (s : State) (f : FnId) (q : Nat) : (s.tryFetch f q).apart = s.apart :=
  State.apart_of_kept (State.kept_tryFetch s f q)

@[simp] theorem State.apart_fetchIn (n : Nat) (s : State) (fs : List FnId) : (State.fetchIn n s fs).apart = s.apart := by
  induction n generalizing s with
  | zero => rfl
  | succ n ih =>
    unfold State.fetchIn
    split
    · rfl
    · rw [ih, State.fetchOnce_apart]

@[simp] theorem State.apart_tryFetchAll (s : State) (f : FnId) : (s.tryFetchAll f).apart = s.apart := State.apart_fetchIn _ _ _

@[simp] theorem State.apart_setSqSt (s : State) (f : FnId) (q : Nat) (st : QSt) : (s.setSqSt f q st).apart = s.apart := by
  unfold State.setSqSt; simp

@[simp] theorem State.apart_quarantineEffects (s : State) (k : Nat) : (s.quarantineEffects k).apart = s.apart := by
  unfold State.quarantineEffects
  dsimp only
  rw [State.apart_vendorEvent]
  split
  · rfl
  · have : ∀ (f : FnId) (l : List Sq) (u : State),
        (l.foldl (fun s q => q.pre.foldl (fun s e => s.completeFetched f q.qid e.sqe.cmd nvQuarantined) s) u).apart = u.apart :=
      fun f l u => foldl_apart _ (fun s q => foldl_apart _ (fun s e => State.apart_completeFetched s _ _ _ _) _ _) _ _
    rw [this]
    rfl

@[simp] theorem State.apart_unhold (s : State) (k : Nat) (f : FnId) : (s.unhold k f).apart = s.apart := by
  unfold State.unhold; simp

/-- Setting a tenant's record gives states alike apart from the functions where it was done on such states. -/
theorem State.apart_setTenant {s u : State} (h : s.apart = u.apart) (k : Nat) (t : Tenant) :
    (s.setTenant k t).apart = (u.setTenant k t).apart := by
  have h1 := congrArg Prod.fst h
  have h2 := congrArg Prod.snd h
  unfold State.apart
  refine Prod.ext ?_ (funext fun i => ?_)
  · exact h1
  · show ((s.setTenant k t).tenant i).map Tenant.cfg = ((u.setTenant k t).tenant i).map Tenant.cfg
    rw [State.tenant_setTenant, State.tenant_setTenant]
    split
    · rfl
    · exact congrFun h2 i

theorem State.policyDue_of_mapart {s t : State} (h : s.mapart = t.mapart) : s.pow.policyDue = t.pow.policyDue :=
  congrArg (fun u : State × (Nat → Option Tenant) => u.1.pow.policyDue) h

/-- A row that leaves what `u` is apart from the functions. -/
theorem State.does_apart {s u v : State} {i : Instr} {r : MbxReq} {op : BitVec 16} {handler : MbxCmd → MbxReq → State → MbxRes}
    {off handle result : Nat} (hi : s.Takes r) (hx : exec i s = .next (s.mbxSubmit op handler r))
    (hh : handler (s.queuedCmd op r) r (s.begun op r) = ⟨u, some stOk, off, handle, result⟩)
    (hm : u.mbx = s.begunMbx op r) (hs : u.supply = s.supply) (hd : u.dbg.armed = s.dbg.armed) (hu : u.mapart = v.mapart)
    (hp : v.pow.policyDue = s.pow.policyDue := by rfl) :
    s.DoesApart i op r (if handle = 0 then r.target.toNat else handle) result v := by
  have h1 : u.supply.portsStopped = false := by rw [hs]; exact hi.1.ports
  have h2 : u.dbg.armed = false := by rw [hd]; exact hi.1.unarmed
  obtain ⟨h3, h4⟩ := State.mbx_answers hi.1 hh hm h1 h2
    ((State.policyDue_of_mapart hu).trans (hp.trans hi.1.noPolicy))
  refine ⟨_, hx, ?_, (State.mapart_of_mkept h4).trans hu⟩
  simpa using h3

theorem State.calm_of_mapart {s t : State} (h : s.mapart = t.mapart) (ht : t.Calm) : s.Calm := by
  rw [State.calm_iff] at ht ⊢
  obtain ⟨h1, h2, h3, h4, h6, h5⟩ := ht
  have hr := congrArg Prod.fst h
  refine ⟨?_, ?_, ?_, ?_, ?_, ?_⟩
  · have k := congrArg (fun u : State => u.aon.warmCmd) hr; exact Eq.trans k h1
  · have k := congrArg (fun u : State => u.aon.warmDue) hr; exact Eq.trans k h2
  · have k := congrArg (fun u : State => u.san.s.running) hr; exact Eq.trans k h3
  · have k := congrArg (fun u : State => u.pow.held) hr; exact Eq.trans k h4
  · have k := congrArg (fun u : State => u.hem.actStep) hr; exact Eq.trans k h6
  · intro k x hx
    have hk : (s.tenant k).map Tenant.cfg = (t.tenant k).map Tenant.cfg := by
      have := congrArg Prod.snd h; exact congrFun this k
    rw [hx] at hk
    cases hy : t.tenant k with
    | none => rw [hy] at hk; cases hk
    | some y =>
      rw [hy] at hk
      simp only [Option.map_some, Option.some.injEq] at hk
      have := h5 k y hy
      have e1 : x.formatting = y.formatting := by have j := congrArg Tenant.formatting hk; exact j
      have e2 : x.convCmd = y.convCmd := by have j := congrArg Tenant.convCmd hk; exact j
      rw [e1, e2]; exact this

/-- `does_apart`, for a row that lets what waits go on. -/
theorem State.does_apart_settled {s u v : State} {i : Instr} {r : MbxReq} {op : BitVec 16}
    {handler : MbxCmd → MbxReq → State → MbxRes} {off handle result : Nat} (hi : s.Takes r)
    (hx : exec i s = settled (.next (s.mbxSubmit op handler r)))
    (hh : handler (s.queuedCmd op r) r (s.begun op r) = ⟨u, some stOk, off, handle, result⟩)
    (hm : u.mbx = s.begunMbx op r) (hs : u.supply = s.supply) (hd : u.dbg.armed = s.dbg.armed) (hu : u.mapart = v.mapart)
    (hc : v.Calm) (hp : v.pow.policyDue = s.pow.policyDue := by rfl) : s.DoesApart i op r (if handle = 0 then r.target.toNat else handle) result v := by
  have h1 : u.supply.portsStopped = false := by rw [hs]; exact hi.1.ports
  have h2 : u.dbg.armed = false := by rw [hd]; exact hi.1.unarmed
  obtain ⟨h3, h4⟩ := State.mbx_answers hi.1 hh hm h1 h2
    ((State.policyDue_of_mapart hu).trans (hp.trans hi.1.noPolicy))
  have h5 := (State.mapart_of_mkept h4).trans hu
  refine ⟨_, ?_, ?_, h5⟩
  · rw [hx]; exact settled_calm (State.calm_of_mapart h5 hc)
  · simpa using h3

/-- Setting a record of a tenant that keeps it calm. -/
theorem State.calm_setTenant {s : State} (h : s.Calm) {k : Nat} {t : Tenant} (h1 : t.formatting ≠ 1) (h2 : t.convCmd = none) :
    (s.setTenant k t).Calm := by
  rw [State.calm_iff] at h ⊢
  obtain ⟨a, b, c, d, g, e⟩ := h
  refine ⟨a, b, c, d, g, fun i x hx => ?_⟩
  rw [State.tenant_setTenant] at hx
  split at hx
  · cases hx; exact ⟨h1, h2⟩
  · exact e i x hx

theorem State.calm_tenant {s : State} (h : s.Calm) {k : Nat} {t : Tenant} (ht : s.tenant k = some t) :
    t.formatting ≠ 1 ∧ t.convCmd = none := ((State.calm_iff s).mp h).2.2.2.2.2 k t ht

theorem State.mapart_begun (s : State) (op : BitVec 16) (r : MbxReq) : (s.begun op r).mapart = s.mapart :=
  State.mapart_of_mkept (State.mkept_begun s op r)

/-- A row that writes a buffer and changes nothing. -/
theorem State.tells {s : State} {i : Instr} {r : MbxReq} {op : BitVec 16} {handler : MbxCmd → MbxReq → State → MbxRes}
    {off handle result ao lo : Nat} {bytes : List Byte} (hi : s.Takes r) (hx : exec i s = .next (s.mbxSubmit op handler r))
    (hh : handler (s.queuedCmd op r) r (s.begun op r) = ⟨r.output (s.begun op r) ao lo bytes, some stOk, off, handle, result⟩) :
    s.Tells i op r (if handle = 0 then r.target.toNat else handle) result ao lo bytes := by
  have hp : s.supply.portsStopped = false := hi.1.ports
  have hq : s.dbg.armed = false := hi.1.unarmed
  have hk : (r.output (s.begun op r) ao lo bytes).kept = (s.begun op r).kept := State.kept_emit _ _
  have h1 : (r.output (s.begun op r) ao lo bytes).supply.portsStopped = false := by
    rw [State.supply_of_kept hk]; exact hp
  have h2 : (r.output (s.begun op r) ao lo bytes).dbg.armed = false := by
    rw [State.armed_of_apart (State.apart_of_kept hk)]; exact hq
  have h5 : (r.output (s.begun op r) ao lo bytes).pow.policyDue = false :=
    (State.policyDue_of_mkept (State.mkept_of_kept hk)).trans hi.1.noPolicy
  have h6 : (r.output (s.begun op r) ao lo bytes).mbx.movePending = none :=
    (State.movePending_of_mkept ((State.mkept_of_kept hk).trans (State.mkept_begun s op r))).trans hi.1.noMove
  obtain ⟨h3, h4⟩ := State.mbx_answers hi.1 hh (State.mbx_of_kept hk) h1 h2 h5
  refine ⟨_, hx, ?_, ?_, ?_⟩
  · simpa using h3
  · rw [State.mbxSubmit_run op handler hi.1, hh]
    apply State.sentIn_mbxFinish _ _ _ _ _ _ h6 h5
    have := State.mem_emit (s := s.begun op r) (.mem (s.begun op r).mbx.manager (r.p ao 8) (bytes.take (r.p lo 4))) hp hq
    show _ ∈ ((s.begun op r).emit (.mem (s.begun op r).mbx.manager (r.p ao 8) (bytes.take (r.p lo 4)))).out
    rw [State.begun_manager] at this ⊢
    exact this
  · rw [h4, State.mkept_of_kept hk, State.mkept_begun]

theorem State.does_telling {s v : State} {i : Instr} {r : MbxReq} {op : BitVec 16} {handler : MbxCmd → MbxReq → State → MbxRes}
    {off handle result ao lo : Nat} {bytes : List Byte} (hi : s.Takes r) (hx : exec i s = .next (s.mbxSubmit op handler r))
    (hv : v.mbx = s.mbx ∧ v.supply = s.supply ∧ v.dbg = s.dbg)
    (hh : handler (s.queuedCmd op r) r (s.begun op r) =
      ⟨r.output { v with mbx := s.begunMbx op r, pow.idleUs := s.now } ao lo bytes, some stOk, off, handle, result⟩)
    (hpd : v.pow.policyDue = s.pow.policyDue := by rfl) :
    s.DoesTelling i op r (if handle = 0 then r.target.toNat else handle) result ao lo bytes v := by
  generalize hw : ({ v with mbx := s.begunMbx op r, pow.idleUs := s.now } : State) = w at hh
  have hp : w.supply.portsStopped = false := by
    rw [← hw]; show v.supply.portsStopped = false; rw [hv.2.1]; exact hi.1.ports
  have hq : w.dbg.armed = false := by
    rw [← hw]; show v.dbg.armed = false; rw [hv.2.2]; exact hi.1.unarmed
  have hm : w.mbx = s.begunMbx op r := by rw [← hw]
  have hg : w.mbx.manager = s.mbx.manager := by rw [hm]; exact State.begun_manager s op r
  have hk : (r.output w ao lo bytes).kept = w.kept := State.kept_emit _ _
  have h1 : (r.output w ao lo bytes).supply.portsStopped = false := by rw [State.supply_of_kept hk]; exact hp
  have h2 : (r.output w ao lo bytes).dbg.armed = false := by
    rw [State.armed_of_apart (State.apart_of_kept hk)]; exact hq
  have h5 : (r.output w ao lo bytes).pow.policyDue = false := by
    rw [State.policyDue_of_mkept (State.mkept_of_kept hk), ← hw]
    exact hpd.trans hi.1.noPolicy
  have h6 : (r.output w ao lo bytes).mbx.movePending = none := by
    rw [State.mbx_of_kept hk, hm]
    exact (State.begunWith_movePending _ _ _ _).trans hi.1.noMove
  obtain ⟨h3, h4⟩ := State.mbx_answers hi.1 hh ((State.mbx_of_kept hk).trans hm) h1 h2 h5
  refine ⟨_, hx, ?_, ?_, ?_⟩
  · simpa using h3
  · rw [State.mbxSubmit_run op handler hi.1, hh]
    apply State.sentIn_mbxFinish _ _ _ _ _ _ h6 h5
    have := State.mem_emit (s := w) (.mem w.mbx.manager (r.p ao 8) (bytes.take (r.p lo 4))) hp hq
    show _ ∈ (w.emit (.mem w.mbx.manager (r.p ao 8) (bytes.take (r.p lo 4)))).out
    rw [hg] at this ⊢
    exact this
  · rw [h4, State.mkept_of_kept hk, ← hw]
    exact State.mkept_of_cfg v _ s.now (by rw [State.begunMbx_cfg, hv.1])

theorem bufOffences_none {r : MbxReq} {ao lo least : Nat} (h : r.Buffer ao lo least) : ∀ o ∈ r.bufOffences ao lo least, o = none := by
  obtain ⟨h1, h2, h3, h4, -⟩ := h
  intro o ho
  simp only [MbxReq.bufOffences, List.mem_cons, List.not_mem_nil, or_false] at ho
  rcases ho with rfl | rfl
  · simp [badIf, h1]
  · simp only [badIf]; rw [if_neg]; simp; omega

theorem buffer_pass {r : MbxReq} {s : State} {ao lo least : Nat} {act : Unit → MbxRes} (h : r.Buffer ao lo least) :
    r.buffer s ao act = act () := by simp [MbxReq.buffer, h.2.2.2.2]

theorem offences_append {l m : List (Option Nat)} (h : ∀ o ∈ l, o = none) (k : ∀ o ∈ m, o = none) : ∀ o ∈ l ++ m, o = none := by
  intro o ho
  rcases List.mem_append.mp ho with h1 | h1
  · exact h o h1
  · exact k o h1

end Sys2Proof.Machine
end

