-- ==== Sys2Proof/Laws/Bobbin.lean ====
section
/-! SUPPORT. What an accepted bobbin request does. -/

namespace Sys2Proof.Machine

/-- A request alone at its bobbin's input is served. -/
theorem State.onRequest_of {s u : State} {m : BMsg} (bulk : Bool) (h : s.Accepted m u) :
    s.onRequest m bulk = u.serveReq m bulk := by
  obtain ⟨v, hv, hu, hc, ha, -⟩ := h
  have h1 : u.eng.msgs.find? (fun q => decide (q.dest = m.dest) && q.control && !m.control) = none := by
    rw [List.find?_eq_none]
    intro q hq
    simp [ha q hq]
  have h2 : u.eng.msgs.filter (fun q => decide (q.dest = m.dest ∧ q.src ≠ m.src) && !q.control) = [] := by
    rw [List.filter_eq_nil_iff]
    intro q hq
    simp [ha q hq]
  have h3 : u.rival m false = none := by
    unfold State.rival
    rw [h2]
    rfl
  unfold State.onRequest
  simp only [hc, hv, Bool.false_eq_true, if_false, List.contains_nil]
  rw [← hu]
  simp only [hc] at h1
  rw [h1]
  dsimp only
  rw [h3, h2]
  rfl

/-- An accepted request's meaning runs. -/
theorem State.serveReq_of {s u : State} {m : BMsg} (bulk : Bool) (h : s.Accepted m u) (h1 : m.verb ≠ 0) (h2 : ¬ vHandover < m.verb) :
    u.serveReq m bulk =
      (if m.verb = vRead then u.takeRead m (if bulk then .bulk else .latency)
      else if m.verb = vComponent then u.takeRead m .component
      else if m.verb = vProgram then u.takeProg m
      else if m.verb = vErase then u.takeErase m
      else if m.verb = vCancel then u.takeCancel m
      else if m.verb = vToken then u.takeToken m
      else u.takeReset m) := by
  obtain ⟨v, hv, hu, hc, ha, hb, hs, hacc, hr⟩ := h
  have hf : (u.bobbin m.dest).fenced = false := by
    simp only [State.accepts, Bool.and_eq_true] at hacc
    simpa using hacc.1.1.2
  have hn : m.verb ≠ vAdopt ∧ m.verb ≠ vHandover := by
    simpa [BMsg.control] using hc
  unfold State.serveReq
  rw [if_neg (by rw [hs]; simp), if_neg (by simp [hb, hf]), if_neg hn.1, if_neg hn.2, if_neg (by simp [h1, h2]), if_neg (by simp [hacc]), hr]
  rfl

end Sys2Proof.Machine
end

