-- ==== Sys2Proof/Laws/Memory.lean ====
section
/-! SUPPORT. The laws of memory: a read after a write, and the canonical form that every write keeps (R43, R348, R364). -/

namespace Sys2Proof.Machine

/-! Reading after writing. -/

/-- A canonical memory whose first address lies above `l` lists nothing at or below it. -/
theorem Memory.read_below {m : Memory} {l a : Nat} (h : Memory.wfFrom (some l) m = true) (ha : a ≤ l) : m.read a = 0#8 := by
  induction m generalizing l with
  | nil => rfl
  | cons p r ih =>
    obtain ⟨j, b⟩ := p
    simp only [Memory.wfFrom, Bool.and_eq_true, decide_eq_true_eq] at h
    simp only [Memory.read]
    rw [if_neg (by omega)]
    exact ih h.2 (by omega)

theorem Memory.wfFrom_weaken {m : Memory} {l k : Nat} (h : Memory.wfFrom (some l) m = true) (hk : k ≤ l) :
    Memory.wfFrom (some k) m = true := by
  cases m with
  | nil => rfl
  | cons p r =>
    obtain ⟨j, b⟩ := p
    simp only [Memory.wfFrom, Bool.and_eq_true, decide_eq_true_eq] at h ⊢
    exact ⟨⟨by omega, h.1.2⟩, h.2⟩

theorem Memory.wf_of_from {m : Memory} {l : Nat} (h : Memory.wfFrom (some l) m = true) : m.wf = true := by
  cases m with
  | nil => rfl
  | cons p r =>
    obtain ⟨j, b⟩ := p
    simp only [Memory.wf, Memory.wfFrom, Bool.and_eq_true, decide_eq_true_eq] at h ⊢
    exact ⟨⟨trivial, h.1.2⟩, h.2⟩

/-- A byte reads as it was last written, and a write leaves every other byte alone. -/
theorem Memory.read_write_from {m : Memory} {l : Option Nat} (h : Memory.wfFrom l m = true) (a x : Nat) (b : Byte) :
    (m.write a b).read x = if a = x then b else m.read x := by
  induction m generalizing l with
  | nil =>
    simp only [Memory.write]
    split
    · rename_i hb; simp [Memory.read, hb]
    · simp [Memory.read]
  | cons p r ih =>
    obtain ⟨j, c⟩ := p
    simp only [Memory.wfFrom, Bool.and_eq_true, decide_eq_true_eq] at h
    simp only [Memory.write]
    split
    · rename_i haj
      split
      · rename_i hb
        by_cases hax : a = x
        · subst hax
          simp only [Memory.read, if_true, hb]
          rw [if_neg (by omega)]
          exact Memory.read_below h.2 (by omega)
        · simp [hax]
      · simp [Memory.read]
    · split
      · rename_i hja
        subst hja
        split
        · rename_i hb
          by_cases hax : j = x
          · subst hax
            rw [Memory.read_below h.2 (Nat.le_refl _)]
            simp [hb]
          · simp [Memory.read, hax]
        · by_cases hax : j = x <;> simp [Memory.read, hax]
      · simp only [Memory.read]
        rw [ih h.2]
        by_cases hjx : j = x
        · subst hjx; simp; omega
        · simp [hjx]

/-- A read after a write of one byte. -/
theorem Memory.read_write {m : Memory} (h : m.wf = true) (a x : Nat) (b : Byte) :
    (m.write a b).read x = if a = x then b else m.read x := Memory.read_write_from h a x b

/-! The canonical form. -/

theorem Memory.wfFrom_write {m : Memory} {l : Option Nat} (h : Memory.wfFrom l m = true) (a : Nat) (b : Byte)
    (hl : ∀ k, l = some k → k < a) : Memory.wfFrom l (m.write a b) = true := by
  induction m generalizing l with
  | nil =>
    simp only [Memory.write]
    split
    · rfl
    · rename_i hb
      cases l with
      | none => simp [Memory.wfFrom, hb]
      | some k => simp [Memory.wfFrom, hb, hl k rfl]
  | cons p r ih =>
    obtain ⟨j, c⟩ := p
    have h' := h
    simp only [Memory.wfFrom, Bool.and_eq_true, decide_eq_true_eq] at h
    simp only [Memory.write]
    split
    · rename_i haj
      split
      · exact h'
      · rename_i hb
        cases l with
        | none => simp [Memory.wfFrom, hb, haj, h.1.2, h.2]
        | some k => simp [Memory.wfFrom, hb, haj, h.1.2, h.2, hl k rfl]
    · split
      · rename_i hja
        subst hja
        split
        · cases l with
          | none => exact Memory.wf_of_from h.2
          | some k => exact Memory.wfFrom_weaken h.2 (Nat.le_of_lt (hl k rfl))
        · rename_i hb
          cases l with
          | none => simp [Memory.wfFrom, hb, h.2]
          | some k => simp [Memory.wfFrom, hb, h.2, hl k rfl]
      · rename_i h1 h2
        have hi := ih h.2 (fun k e => by cases e; omega)
        cases l with
        | none => simp [Memory.wfFrom, h.1.2, hi]
        | some k => simp [Memory.wfFrom, h.1.1, h.1.2, hi]

/-- A write keeps the canonical form. -/
theorem Memory.wf_write {m : Memory} (h : m.wf = true) (a : Nat) (b : Byte) : (m.write a b).wf = true :=
  Memory.wfFrom_write h a b (fun _ e => nomatch e)

/-- A write of many bytes keeps the canonical form. -/
theorem Memory.wf_writeBytes {m : Memory} (h : m.wf = true) (a : Nat) (bs : List Byte) : (m.writeBytes a bs).wf = true := by
  induction bs generalizing m a with
  | nil => exact h
  | cons b bs ih => exact ih (Memory.wf_write h a b) (a + 1)

/-! Many bytes. -/

/-- A read after a write of many bytes: what was written, inside; what was there, outside. -/
theorem Memory.read_writeBytes {m : Memory} (h : m.wf = true) (a x : Nat) (bs : List Byte) :
    (m.writeBytes a bs).read x = if a ≤ x ∧ x < a + bs.length then bs.getD (x - a) 0#8 else m.read x := by
  induction bs generalizing m a with
  | nil => rw [if_neg (by simp)]; rfl
  | cons b bs ih =>
    simp only [Memory.writeBytes]
    rw [ih (Memory.wf_write h a b) (a + 1), Memory.read_write h, List.length_cons]
    by_cases hx : a = x
    · subst hx
      rw [if_neg (by omega), if_pos rfl, if_pos (by omega)]
      simp
    · rw [if_neg hx]
      by_cases h1 : a + 1 ≤ x ∧ x < a + 1 + bs.length
      · rw [if_pos h1, if_pos (by omega), show x - a = (x - (a + 1)) + 1 by omega]
        simp
      · rw [if_neg h1, if_neg (by omega)]

/-- The bytes written are the bytes read back. -/
theorem Memory.readBytes_writeBytes {m : Memory} (h : m.wf = true) (a : Nat) (bs : List Byte) :
    (m.writeBytes a bs).readBytes a bs.length = bs := by
  have key : ∀ (k off : Nat), off + k = bs.length → (m.writeBytes a bs).readBytes (a + off) k = bs.drop off := by
    intro k
    induction k with
    | zero => intro off e; simp [Memory.readBytes, ← e]
    | succ k ih =>
      intro off e
      have hlt : off < bs.length := by omega
      simp only [Memory.readBytes]
      rw [Memory.read_writeBytes h, if_pos (by omega), show a + off - a = off by omega, Nat.add_assoc, ih (off + 1) (by omega),
        List.drop_eq_getElem_cons hlt]
      simp [List.getD_eq_getElem?_getD, List.getElem?_eq_getElem hlt]
  have := key bs.length 0 (by omega)
  simpa using this

/-! Canonical memories are equal when they read alike. -/

theorem Memory.ext_from {m n : Memory} {l : Option Nat} (hm : Memory.wfFrom l m = true) (hn : Memory.wfFrom l n = true)
    (h : ∀ x, m.read x = n.read x) : m = n := by
  induction m generalizing n l with
  | nil =>
    cases n with
    | nil => rfl
    | cons q t =>
      obtain ⟨k, d⟩ := q
      simp only [Memory.wfFrom, Bool.and_eq_true, decide_eq_true_eq] at hn
      exact absurd ((h k).symm.trans (by rfl)) (by simpa [Memory.read] using hn.1.2)
  | cons p r ih =>
    obtain ⟨j, c⟩ := p
    cases n with
    | nil =>
      simp only [Memory.wfFrom, Bool.and_eq_true, decide_eq_true_eq] at hm
      exact absurd ((h j).trans (by rfl)) (by simpa [Memory.read] using hm.1.2)
    | cons q t =>
      obtain ⟨k, d⟩ := q
      simp only [Memory.wfFrom, Bool.and_eq_true, decide_eq_true_eq] at hm hn
      have hj := h j
      have hk := h k
      simp only [Memory.read, if_true] at hj hk
      have e : j = k := by
        by_contra hne
        rcases Nat.lt_or_gt_of_ne hne with hlt | hgt
        · rw [if_neg (by omega), Memory.read_below hn.2 (by omega)] at hj
          exact hm.1.2 hj
        · rw [if_neg (by omega), Memory.read_below hm.2 (by omega)] at hk
          exact hn.1.2 hk.symm
      subst e
      simp only [if_true] at hj
      subst hj
      rw [ih hm.2 hn.2 (fun x => ?_)]
      by_cases hx : x ≤ j
      · rw [Memory.read_below hm.2 hx, Memory.read_below hn.2 hx]
      · have := h x
        simp only [Memory.read] at this
        rwa [if_neg (by omega), if_neg (by omega)] at this

/-- Two canonical memories that read alike at every address are the same. -/
theorem Memory.ext {m n : Memory} (hm : m.wf = true) (hn : n.wf = true) (h : ∀ x, m.read x = n.read x) : m = n :=
  Memory.ext_from hm hn h

/-- Writing the same bytes twice is writing them once. -/
theorem Memory.writeBytes_twice {m : Memory} (h : m.wf = true) (a : Nat) (bs : List Byte) :
    (m.writeBytes a bs).writeBytes a bs = m.writeBytes a bs := by
  refine Memory.ext (Memory.wf_writeBytes (Memory.wf_writeBytes h a bs) a bs) (Memory.wf_writeBytes h a bs) (fun x => ?_)
  rw [Memory.read_writeBytes (Memory.wf_writeBytes h a bs), Memory.read_writeBytes h]
  split <;> rfl

/-! Little-endian numbers. -/

theorem bytesLE_length (n v : Nat) : (bytesLE n v).length = n := by
  induction n generalizing v with
  | zero => rfl
  | succ n ih => simp [bytesLE, ih]

/-- A number's little-endian bytes spell it. -/
theorem numLE_bytesLE (n v : Nat) : numLE (bytesLE n v) = v % 256 ^ n := by
  induction n generalizing v with
  | zero => simp [bytesLE, numLE, Nat.mod_one]
  | succ n ih =>
    simp only [bytesLE, numLE, ih, BitVec.toNat_ofNat]
    rw [show (2 : Nat) ^ 8 = 256 from rfl, Nat.pow_succ, Nat.mul_comm (256 ^ n) 256, Nat.mod_mul]

end Sys2Proof.Machine
end

