-- ==== Sys2Proof/Laws/Rests.lean ====
section
/-! SUPPORT. Where the write path and reclamation have nothing to do, the work that follows a row leaves the state as it is. -/

namespace Sys2Proof.Machine

theorem foldl_id {α : Type} (g : State → α → State) (s : State) (l : List α) (h : ∀ a ∈ l, g s a = s) : l.foldl g s = s := by
  induction l with
  | nil => rfl
  | cons a r ih => rw [List.foldl_cons, h a (by simp)]; exact ih (fun b hb => h b (by simp [hb]))

theorem State.claimWaiters_rests {s : State} (h : s.wr.writes = []) (k : s.wr.sends = []) : s.claimWaiters = s := by
  unfold State.claimWaiters
  rw [h, k]
  rfl

theorem State.pumpTack_rests {s : State} (h : s.wr.writes = []) (k : s.wr.sends = []) (n : Nat) : State.pumpTack n s = s := by
  cases n with
  | zero => rfl
  | succ n => simp [State.pumpTack, State.claimWaiters_rests h k, State.nextFree, h, k]

theorem State.deviceFinishes_rests {s : State} (h : ∀ p ∈ s.host.tenants, ∀ z ∈ p.2.zones, z.2.finishDue = false) :
    s.deviceFinishes = s := by
  unfold State.deviceFinishes
  apply foldl_id
  intro p hp
  have : p.2.zones.filter (fun z => z.2.finishDue && z.2.st.active) = [] := by
    rw [List.filter_eq_nil_iff]
    intro z hz
    simp [h p hp z hz]
  rw [this]
  rfl

theorem State.markReady_rests {s : State} (h : s.wr.writes = []) : s.markReady = s := by
  simp [State.markReady, h]

/-- The pump has nothing to let go on. -/
theorem State.pump_rests {s : State} (h : s.Rests) : s.pump = s := by
  obtain ⟨h1, h2, h3, h4, h5, h6, h7, h8, h9, h10, h11, h12, h13⟩ := h
  have a1 : s.pumpOnce = s := by
    unfold State.pumpOnce
    simp only [State.pumpTack_rests h1 h2, h12, List.length_nil, State.serveBinds, State.deviceFinishes_rests h10,
      State.markReady_rests h1]
  unfold State.pump
  simp only [a1, h1, h11, List.length_nil, State.freeEvents]

/-- No wear-levelling move is due. -/
theorem State.wearChecks_rests {s : State} (h : ∀ p ∈ s.bolts.table, s.wearDue (boltGroup p.1) = false) : s.wearChecks = s := by
  unfold State.wearChecks
  apply foldl_id
  intro g hg
  obtain ⟨p, hp, rfl⟩ := List.mem_map.mp (List.mem_eraseDups.mp hg)
  unfold State.wearCheck
  simp [h p hp]

theorem State.releaseVictims_rests {s : State} (h : ∀ p ∈ s.bolts.table, p.2.fillSeq = 0) : s.releaseVictims = s := by
  unfold State.releaseVictims
  refine (congrArg (List.foldl _ s) (List.filter_eq_nil_iff.mpr ?_)).trans rfl
  intro p hp
  simp [h p hp]

theorem State.updLogState_rests {s : State} (h : s.recl.logState = 0) (k : s.recl.logHigh ≤ s.freeLogCount) : s.updLogState = s := by
  unfold State.updLogState
  dsimp only
  rw [if_pos k, ← h]
  exact if_pos rfl

theorem State.updThrottle_rests {s : State} (h : s.recl.logState = 0) (k : s.recl.throttled = []) : s.updThrottle = s := by
  unfold State.updThrottle
  apply foldl_id
  intro p _
  simp [h, k, Tab.find]

theorem State.pumpInbox_rests {s : State} (h : s.recl.inbox = []) : s.pumpInbox = s := by
  unfold State.pumpInbox
  rw [h]
  show ({ s with recl.inbox := [] } : State) = s
  rw [← h]

/-- Nothing is left to tidy. -/
theorem State.tidy_rests {s : State} (h : s.Rests) : s.tidy = s := by
  have hp := State.pump_rests h
  obtain ⟨h1, h2, h3, h4, h5, h6, h7, h8, h9, h10, h11, h12, h13⟩ := h
  unfold State.tidy
  have a1 : s.sweepItems = s := by simp [State.sweepItems, h5]
  have a2 : s.queueMerges = s := by simp [State.queueMerges, h7]
  have a3 : s.urgeMerges = s := by simp [State.urgeMerges, h5]
  have a4 : s.retryRows = s := by simp [State.retryRows, h5]
  simp only [State.pumpInbox_rests h4, a1, State.releaseVictims_rests h9, State.updLogState_rests h7 h8, a2, a3,
    State.updThrottle_rests h7 h6, a4, State.wearChecks_rests h13, hp]

theorem State.retryParked_rests {s : State} (h : s.wr.writes = []) (hf : s.wr.freed = []) (k : Nat) : s.retryParked k = s := by
  unfold State.retryParked
  have a : ({ s with wr.freed := s.wr.freed.filter (· ≠ k) } : State) = s := by rw [hf]; exact congrArg (fun l => ({ s with wr.freed := l } : State)) hf.symm
  rw [a]
  simp only [h, List.filter_nil, List.isEmpty_nil, if_true]

/-- With no die at work nothing settles there. -/
theorem State.settleAll_rests {s : State} (h : s.dies.table = []) : s.settleAll = s := by
  simp [State.settleAll, h]

end Sys2Proof.Machine
end

