-- ==== Sys2Proof/Laws/Quiet.lean ====
section
/-! SUPPORT. A tenant changed, and a function reset, where the write path, the reads and the dies have nothing to do. -/

namespace Sys2Proof.Machine

theorem Tab.mem_set {α : Type} {l : List (Nat × α)} {k : Nat} {v : α} {p : Nat × α} (h : p ∈ Tab.set l k v) :
    p ∈ l ∨ p = (k, v) := by
  induction l with
  | nil => simp [Tab.set] at h; exact .inr h
  | cons q r ih =>
    obtain ⟨j, w⟩ := q
    simp only [Tab.set] at h
    split at h
    · simp at h ⊢; rcases h with h | h | h <;> simp [h]
    · split at h
      · simp at h ⊢; rcases h with h | h <;> simp [h]
      · simp at h ⊢
        rcases h with h | h
        · simp [h]
        · rcases ih h with h | h <;> simp [h]

/-- A tenant changed without a zone that the device is to finish. -/
theorem State.rests_setTenant {s : State} {k : Nat} {t : Tenant} (h : s.Rests) (ht : ∀ z ∈ t.zones, z.2.finishDue = false) :
    (s.setTenant k t).Rests := by
  obtain ⟨h1, h2, h3, h4, h5, h6, h7, h8, h9, h10, h11⟩ := h
  refine ⟨h1, h2, h3, h4, h5, h6, h7, h8, h9, ?_, h11⟩
  intro p hp
  rcases Tab.mem_set hp with hp | hp
  · exact h10 p hp
  · rw [hp]; exact ht

theorem State.zones_rests {s : State} {k : Nat} {t : Tenant} (h : s.Rests) (ht : s.tenant k = some t) :
    ∀ z ∈ t.zones, z.2.finishDue = false := h.2.2.2.2.2.2.2.2.2.1 (k, t) (tenant_mem ht)

/-- A tenant changed but for its zones. -/
theorem State.rests_zones {s : State} {k : Nat} {t x : Tenant} (h : s.Rests) (ht : s.tenant k = some t) (hx : x.zones = t.zones) :
    (s.setTenant k x).Rests := State.rests_setTenant h (by rw [hx]; exact State.zones_rests h ht)

theorem State.rests_updTenant {s : State} {k : Nat} {g : Tenant → Tenant} (h : s.Rests) (hg : ∀ t, (g t).zones = t.zones) :
    (s.updTenant k g).Rests := by
  unfold State.updTenant
  split
  · exact h
  · rename_i t ht; exact State.rests_zones h ht (hg t)

theorem State.rests_cutAdmin {s : State} (h : s.Rests) (f : FnId) : (s.cutAdmin f).Rests := by
  obtain ⟨h1, h2, h3, h4, h5, h6, h7, h8, h9, h10, h11⟩ := h
  refine ⟨h1, h2, h3, h4, h5, h6, h7, h8, h9, ?_, h11⟩
  intro p hp
  unfold State.cutAdmin at hp
  simp only [List.mem_map] at hp
  obtain ⟨q, hq, rfl⟩ := hp
  exact h10 q hq

theorem State.rests_quiet {s : State} (h : s.Rests) : s.quiet.Rests := by
  unfold State.quiet; split
  · exact h
  · exact h

theorem State.rests_deleteQueues {s : State} (h : s.Rests) (f : FnId) : (s.deleteQueues f).Rests := by
  unfold State.deleteQueues
  dsimp only
  have a : ∀ (u : State) (p : Port) (n : Nat), u.Rests → (u.setTags p n).Rests := by
    intro u p n hu; cases p <;> exact hu
  split
  · exact State.rests_quiet (a s _ _ h)
  · exact State.rests_updTenant (State.rests_quiet (a s _ _ h)) (by intro t; unfold Tenant.accrue; split <;> rfl)

theorem State.rests_snapsGone {s : State} (h : s.Rests) (k : Nat) : (s.snapsGone k).Rests := h

/-- A function of a tenant whose reset has nothing to cut short but admin commands: the write path rests, no die is at work, none of
its reads is under way, it is a VF, and its tenant is not frozen and has no open zone (R277, R278). -/
theorem State.resetFn_quiet {s : State} {f : FnId} {k : Nat} {t : Tenant} (flr : Bool) (h : s.Rests) (hd : s.dies.table = [])
    (hr : ∀ r ∈ s.rd.reads, r.fn ≠ f) (hv : f.vf ≠ 0) (hf : s.tenantOf f = some k) (ht : s.tenant k = some t) (hz : t.frozen = false)
    (ho : ∀ z ∈ t.zones, z.2.st ≠ .zsio ∧ z.2.st ≠ .zseo) :
    s.resetFn f flr = ((((s.cutAdmin f).deleteQueues f).resetRegs f flr).updTenant k Tenant.settleQpairs).snapsGone k := by
  have hz' : (s.tenantD k).frozen = false := by rw [tenantD_of ht]; exact hz
  unfold State.resetFn
  simp only [hf, hz', Bool.false_and, Bool.false_eq_true, if_false, if_neg hv]
  rw [List.filter_eq_nil_iff.mpr (by intro r hr'; simpa using hr r hr')]
  simp only [List.foldl_nil, h.1, h.2.1, List.filter_nil]
  have hc : ∀ u : State, u = s.cutAdmin f → u.closeZones k = u := by
    rintro u rfl
    unfold State.closeZones
    rw [List.filter_eq_nil_iff.mpr]
    · rfl
    · intro z hz2
      have e : ((s.cutAdmin f).tenantD k).zones = t.zones := by
        unfold State.tenantD State.tenant State.cutAdmin
        simp only
        have := ht
        unfold State.tenant at this
        generalize s.host.tenants = l at this
        induction l with
        | nil => simp [Tab.find] at this
        | cons p r ih =>
          obtain ⟨j, w⟩ := p
          simp only [List.map_cons, Tab.find] at this ⊢
          split at this
          · rename_i hj; simp_all
          · rename_i hj; simp only [hj, if_false]; exact ih this
      rw [e] at hz2
      simp [ho z hz2]
  rw [hc _ rfl]
  have r1 : ((((s.cutAdmin f).deleteQueues f).resetRegs f flr).updTenant k Tenant.settleQpairs).Rests :=
    State.rests_updTenant (s := ((s.cutAdmin f).deleteQueues f).resetRegs f flr) (State.rests_deleteQueues (State.rests_cutAdmin h f) f) (fun _ => rfl)
  have d1 : ((((s.cutAdmin f).deleteQueues f).resetRegs f flr).updTenant k Tenant.settleQpairs).dies.table = [] := by
    have a : ∀ (u : State) g, u.dies.table = [] → (u.updTenant k g).dies.table = [] := by
      intro u g hu; unfold State.updTenant; split <;> exact hu
    have q : ∀ (u : State), u.dies.table = [] → u.quiet.dies.table = [] := by
      intro u hu; unfold State.quiet; split <;> exact hu
    have c : ∀ (u : State) p n, u.dies.table = [] → (u.setTags p n).dies.table = [] := by
      intro u p n hu; cases p <;> exact hu
    apply a
    show ((s.cutAdmin f).deleteQueues f).dies.table = []
    unfold State.deleteQueues
    dsimp only
    split
    · exact q _ (c _ _ _ hd)
    · rename_i j hj
      have : ∀ (u : State) j g, u.dies.table = [] → (u.updTenant j g).dies.table = [] := by
        intro u j g hu; unfold State.updTenant; split <;> exact hu
      exact this _ _ _ (q _ (c _ _ _ hd))
  have r2 := State.rests_snapsGone r1 k
  rw [State.pump_rests r2, State.settleAll_rests (s := State.snapsGone _ k) d1, State.tidy_rests r2]

end Sys2Proof.Machine
end

