-- ==== Sys2Proof/Laws/State.lean ====
section
/-! SUPPORT. What each update of one part of State leaves alone, and what it leaves in that part. -/

namespace Sys2Proof.Machine

/-! setDie. -/

@[simp] theorem State.board_setDie (s : State) (d : DieId) (x : Die) : (s.setDie d x).board = s.board := rfl
@[simp] theorem State.geo_setDie (s : State) (d : DieId) (x : Die) : (s.setDie d x).geo = s.geo := rfl
@[simp] theorem State.mbx_setDie (s : State) (d : DieId) (x : Die) : (s.setDie d x).mbx = s.mbx := rfl
@[simp] theorem State.bolts_setDie (s : State) (d : DieId) (x : Die) : (s.setDie d x).bolts = s.bolts := rfl
@[simp] theorem State.wr_setDie (s : State) (d : DieId) (x : Die) : (s.setDie d x).wr = s.wr := rfl
@[simp] theorem State.rd_setDie (s : State) (d : DieId) (x : Die) : (s.setDie d x).rd = s.rd := rfl
@[simp] theorem State.recl_setDie (s : State) (d : DieId) (x : Die) : (s.setDie d x).recl = s.recl := rfl
@[simp] theorem State.eng_setDie (s : State) (d : DieId) (x : Die) : (s.setDie d x).eng = s.eng := rfl
@[simp] theorem State.gauge_setDie (s : State) (d : DieId) (x : Die) : (s.setDie d x).gauge = s.gauge := rfl
@[simp] theorem State.chan_setDie (s : State) (d : DieId) (x : Die) : (s.setDie d x).chan = s.chan := rfl
@[simp] theorem State.host_setDie (s : State) (d : DieId) (x : Die) : (s.setDie d x).host = s.host := rfl
@[simp] theorem State.mem_setDie (s : State) (d : DieId) (x : Die) : (s.setDie d x).mem = s.mem := rfl
@[simp] theorem State.hem_setDie (s : State) (d : DieId) (x : Die) : (s.setDie d x).hem = s.hem := rfl
@[simp] theorem State.supply_setDie (s : State) (d : DieId) (x : Die) : (s.setDie d x).supply = s.supply := rfl
@[simp] theorem State.san_setDie (s : State) (d : DieId) (x : Die) : (s.setDie d x).san = s.san := rfl
@[simp] theorem State.pow_setDie (s : State) (d : DieId) (x : Die) : (s.setDie d x).pow = s.pow := rfl
@[simp] theorem State.clk_setDie (s : State) (d : DieId) (x : Die) : (s.setDie d x).clk = s.clk := rfl
@[simp] theorem State.therm_setDie (s : State) (d : DieId) (x : Die) : (s.setDie d x).therm = s.therm := rfl
@[simp] theorem State.pb_setDie (s : State) (d : DieId) (x : Die) : (s.setDie d x).pb = s.pb := rfl
@[simp] theorem State.yard_setDie (s : State) (d : DieId) (x : Die) : (s.setDie d x).yard = s.yard := rfl
@[simp] theorem State.selv_setDie (s : State) (d : DieId) (x : Die) : (s.setDie d x).selv = s.selv := rfl
@[simp] theorem State.dbg_setDie (s : State) (d : DieId) (x : Die) : (s.setDie d x).dbg = s.dbg := rfl
@[simp] theorem State.port_setDie (s : State) (d : DieId) (x : Die) : (s.setDie d x).port = s.port := rfl
@[simp] theorem State.aon_setDie (s : State) (d : DieId) (x : Die) : (s.setDie d x).aon = s.aon := rfl
@[simp] theorem State.out_setDie (s : State) (d : DieId) (x : Die) : (s.setDie d x).out = s.out := rfl
@[simp] theorem State.fresh_setDie (s : State) (d : DieId) (x : Die) : (s.setDie d x).fresh = s.fresh := rfl
@[simp] theorem State.pending_setDie (s : State) (d : DieId) (x : Die) : (s.setDie d x).pending = s.pending := rfl

/-! setBolt. -/

@[simp] theorem State.board_setBolt (s : State) (b : Nat) (x : Bolt) : (s.setBolt b x).board = s.board := rfl
@[simp] theorem State.geo_setBolt (s : State) (b : Nat) (x : Bolt) : (s.setBolt b x).geo = s.geo := rfl
@[simp] theorem State.mbx_setBolt (s : State) (b : Nat) (x : Bolt) : (s.setBolt b x).mbx = s.mbx := rfl
@[simp] theorem State.dies_setBolt (s : State) (b : Nat) (x : Bolt) : (s.setBolt b x).dies = s.dies := rfl
@[simp] theorem State.wr_setBolt (s : State) (b : Nat) (x : Bolt) : (s.setBolt b x).wr = s.wr := rfl
@[simp] theorem State.rd_setBolt (s : State) (b : Nat) (x : Bolt) : (s.setBolt b x).rd = s.rd := rfl
@[simp] theorem State.recl_setBolt (s : State) (b : Nat) (x : Bolt) : (s.setBolt b x).recl = s.recl := rfl
@[simp] theorem State.eng_setBolt (s : State) (b : Nat) (x : Bolt) : (s.setBolt b x).eng = s.eng := rfl
@[simp] theorem State.gauge_setBolt (s : State) (b : Nat) (x : Bolt) : (s.setBolt b x).gauge = s.gauge := rfl
@[simp] theorem State.chan_setBolt (s : State) (b : Nat) (x : Bolt) : (s.setBolt b x).chan = s.chan := rfl
@[simp] theorem State.host_setBolt (s : State) (b : Nat) (x : Bolt) : (s.setBolt b x).host = s.host := rfl
@[simp] theorem State.mem_setBolt (s : State) (b : Nat) (x : Bolt) : (s.setBolt b x).mem = s.mem := rfl
@[simp] theorem State.hem_setBolt (s : State) (b : Nat) (x : Bolt) : (s.setBolt b x).hem = s.hem := rfl
@[simp] theorem State.supply_setBolt (s : State) (b : Nat) (x : Bolt) : (s.setBolt b x).supply = s.supply := rfl
@[simp] theorem State.san_setBolt (s : State) (b : Nat) (x : Bolt) : (s.setBolt b x).san = s.san := rfl
@[simp] theorem State.pow_setBolt (s : State) (b : Nat) (x : Bolt) : (s.setBolt b x).pow = s.pow := rfl
@[simp] theorem State.clk_setBolt (s : State) (b : Nat) (x : Bolt) : (s.setBolt b x).clk = s.clk := rfl
@[simp] theorem State.therm_setBolt (s : State) (b : Nat) (x : Bolt) : (s.setBolt b x).therm = s.therm := rfl
@[simp] theorem State.pb_setBolt (s : State) (b : Nat) (x : Bolt) : (s.setBolt b x).pb = s.pb := rfl
@[simp] theorem State.yard_setBolt (s : State) (b : Nat) (x : Bolt) : (s.setBolt b x).yard = s.yard := rfl
@[simp] theorem State.selv_setBolt (s : State) (b : Nat) (x : Bolt) : (s.setBolt b x).selv = s.selv := rfl
@[simp] theorem State.dbg_setBolt (s : State) (b : Nat) (x : Bolt) : (s.setBolt b x).dbg = s.dbg := rfl
@[simp] theorem State.port_setBolt (s : State) (b : Nat) (x : Bolt) : (s.setBolt b x).port = s.port := rfl
@[simp] theorem State.aon_setBolt (s : State) (b : Nat) (x : Bolt) : (s.setBolt b x).aon = s.aon := rfl
@[simp] theorem State.out_setBolt (s : State) (b : Nat) (x : Bolt) : (s.setBolt b x).out = s.out := rfl
@[simp] theorem State.fresh_setBolt (s : State) (b : Nat) (x : Bolt) : (s.setBolt b x).fresh = s.fresh := rfl
@[simp] theorem State.pending_setBolt (s : State) (b : Nat) (x : Bolt) : (s.setBolt b x).pending = s.pending := rfl

/-! setBobbin. -/

@[simp] theorem State.board_setBobbin (s : State) (b : Nat) (x : Bobbin) : (s.setBobbin b x).board = s.board := rfl
@[simp] theorem State.geo_setBobbin (s : State) (b : Nat) (x : Bobbin) : (s.setBobbin b x).geo = s.geo := rfl
@[simp] theorem State.mbx_setBobbin (s : State) (b : Nat) (x : Bobbin) : (s.setBobbin b x).mbx = s.mbx := rfl
@[simp] theorem State.bolts_setBobbin (s : State) (b : Nat) (x : Bobbin) : (s.setBobbin b x).bolts = s.bolts := rfl
@[simp] theorem State.dies_setBobbin (s : State) (b : Nat) (x : Bobbin) : (s.setBobbin b x).dies = s.dies := rfl
@[simp] theorem State.wr_setBobbin (s : State) (b : Nat) (x : Bobbin) : (s.setBobbin b x).wr = s.wr := rfl
@[simp] theorem State.rd_setBobbin (s : State) (b : Nat) (x : Bobbin) : (s.setBobbin b x).rd = s.rd := rfl
@[simp] theorem State.recl_setBobbin (s : State) (b : Nat) (x : Bobbin) : (s.setBobbin b x).recl = s.recl := rfl
@[simp] theorem State.gauge_setBobbin (s : State) (b : Nat) (x : Bobbin) : (s.setBobbin b x).gauge = s.gauge := rfl
@[simp] theorem State.chan_setBobbin (s : State) (b : Nat) (x : Bobbin) : (s.setBobbin b x).chan = s.chan := rfl
@[simp] theorem State.host_setBobbin (s : State) (b : Nat) (x : Bobbin) : (s.setBobbin b x).host = s.host := rfl
@[simp] theorem State.mem_setBobbin (s : State) (b : Nat) (x : Bobbin) : (s.setBobbin b x).mem = s.mem := rfl
@[simp] theorem State.hem_setBobbin (s : State) (b : Nat) (x : Bobbin) : (s.setBobbin b x).hem = s.hem := rfl
@[simp] theorem State.supply_setBobbin (s : State) (b : Nat) (x : Bobbin) : (s.setBobbin b x).supply = s.supply := rfl
@[simp] theorem State.san_setBobbin (s : State) (b : Nat) (x : Bobbin) : (s.setBobbin b x).san = s.san := rfl
@[simp] theorem State.pow_setBobbin (s : State) (b : Nat) (x : Bobbin) : (s.setBobbin b x).pow = s.pow := rfl
@[simp] theorem State.clk_setBobbin (s : State) (b : Nat) (x : Bobbin) : (s.setBobbin b x).clk = s.clk := rfl
@[simp] theorem State.therm_setBobbin (s : State) (b : Nat) (x : Bobbin) : (s.setBobbin b x).therm = s.therm := rfl
@[simp] theorem State.pb_setBobbin (s : State) (b : Nat) (x : Bobbin) : (s.setBobbin b x).pb = s.pb := rfl
@[simp] theorem State.yard_setBobbin (s : State) (b : Nat) (x : Bobbin) : (s.setBobbin b x).yard = s.yard := rfl
@[simp] theorem State.selv_setBobbin (s : State) (b : Nat) (x : Bobbin) : (s.setBobbin b x).selv = s.selv := rfl
@[simp] theorem State.dbg_setBobbin (s : State) (b : Nat) (x : Bobbin) : (s.setBobbin b x).dbg = s.dbg := rfl
@[simp] theorem State.port_setBobbin (s : State) (b : Nat) (x : Bobbin) : (s.setBobbin b x).port = s.port := rfl
@[simp] theorem State.aon_setBobbin (s : State) (b : Nat) (x : Bobbin) : (s.setBobbin b x).aon = s.aon := rfl
@[simp] theorem State.out_setBobbin (s : State) (b : Nat) (x : Bobbin) : (s.setBobbin b x).out = s.out := rfl
@[simp] theorem State.fresh_setBobbin (s : State) (b : Nat) (x : Bobbin) : (s.setBobbin b x).fresh = s.fresh := rfl
@[simp] theorem State.pending_setBobbin (s : State) (b : Nat) (x : Bobbin) : (s.setBobbin b x).pending = s.pending := rfl

/-! setRole. -/

@[simp] theorem State.board_setRole (s : State) (r : Nat) (x : Role) : (s.setRole r x).board = s.board := rfl
@[simp] theorem State.geo_setRole (s : State) (r : Nat) (x : Role) : (s.setRole r x).geo = s.geo := rfl
@[simp] theorem State.mbx_setRole (s : State) (r : Nat) (x : Role) : (s.setRole r x).mbx = s.mbx := rfl
@[simp] theorem State.bolts_setRole (s : State) (r : Nat) (x : Role) : (s.setRole r x).bolts = s.bolts := rfl
@[simp] theorem State.dies_setRole (s : State) (r : Nat) (x : Role) : (s.setRole r x).dies = s.dies := rfl
@[simp] theorem State.wr_setRole (s : State) (r : Nat) (x : Role) : (s.setRole r x).wr = s.wr := rfl
@[simp] theorem State.rd_setRole (s : State) (r : Nat) (x : Role) : (s.setRole r x).rd = s.rd := rfl
@[simp] theorem State.recl_setRole (s : State) (r : Nat) (x : Role) : (s.setRole r x).recl = s.recl := rfl
@[simp] theorem State.gauge_setRole (s : State) (r : Nat) (x : Role) : (s.setRole r x).gauge = s.gauge := rfl
@[simp] theorem State.chan_setRole (s : State) (r : Nat) (x : Role) : (s.setRole r x).chan = s.chan := rfl
@[simp] theorem State.host_setRole (s : State) (r : Nat) (x : Role) : (s.setRole r x).host = s.host := rfl
@[simp] theorem State.mem_setRole (s : State) (r : Nat) (x : Role) : (s.setRole r x).mem = s.mem := rfl
@[simp] theorem State.hem_setRole (s : State) (r : Nat) (x : Role) : (s.setRole r x).hem = s.hem := rfl
@[simp] theorem State.supply_setRole (s : State) (r : Nat) (x : Role) : (s.setRole r x).supply = s.supply := rfl
@[simp] theorem State.san_setRole (s : State) (r : Nat) (x : Role) : (s.setRole r x).san = s.san := rfl
@[simp] theorem State.pow_setRole (s : State) (r : Nat) (x : Role) : (s.setRole r x).pow = s.pow := rfl
@[simp] theorem State.clk_setRole (s : State) (r : Nat) (x : Role) : (s.setRole r x).clk = s.clk := rfl
@[simp] theorem State.therm_setRole (s : State) (r : Nat) (x : Role) : (s.setRole r x).therm = s.therm := rfl
@[simp] theorem State.pb_setRole (s : State) (r : Nat) (x : Role) : (s.setRole r x).pb = s.pb := rfl
@[simp] theorem State.yard_setRole (s : State) (r : Nat) (x : Role) : (s.setRole r x).yard = s.yard := rfl
@[simp] theorem State.selv_setRole (s : State) (r : Nat) (x : Role) : (s.setRole r x).selv = s.selv := rfl
@[simp] theorem State.dbg_setRole (s : State) (r : Nat) (x : Role) : (s.setRole r x).dbg = s.dbg := rfl
@[simp] theorem State.port_setRole (s : State) (r : Nat) (x : Role) : (s.setRole r x).port = s.port := rfl
@[simp] theorem State.aon_setRole (s : State) (r : Nat) (x : Role) : (s.setRole r x).aon = s.aon := rfl
@[simp] theorem State.out_setRole (s : State) (r : Nat) (x : Role) : (s.setRole r x).out = s.out := rfl
@[simp] theorem State.fresh_setRole (s : State) (r : Nat) (x : Role) : (s.setRole r x).fresh = s.fresh := rfl
@[simp] theorem State.pending_setRole (s : State) (r : Nat) (x : Role) : (s.setRole r x).pending = s.pending := rfl

/-! setPair. -/

@[simp] theorem State.board_setPair (s : State) (p st : Nat) : (s.setPair p st).board = s.board := rfl
@[simp] theorem State.geo_setPair (s : State) (p st : Nat) : (s.setPair p st).geo = s.geo := rfl
@[simp] theorem State.mbx_setPair (s : State) (p st : Nat) : (s.setPair p st).mbx = s.mbx := rfl
@[simp] theorem State.bolts_setPair (s : State) (p st : Nat) : (s.setPair p st).bolts = s.bolts := rfl
@[simp] theorem State.dies_setPair (s : State) (p st : Nat) : (s.setPair p st).dies = s.dies := rfl
@[simp] theorem State.wr_setPair (s : State) (p st : Nat) : (s.setPair p st).wr = s.wr := rfl
@[simp] theorem State.rd_setPair (s : State) (p st : Nat) : (s.setPair p st).rd = s.rd := rfl
@[simp] theorem State.recl_setPair (s : State) (p st : Nat) : (s.setPair p st).recl = s.recl := rfl
@[simp] theorem State.gauge_setPair (s : State) (p st : Nat) : (s.setPair p st).gauge = s.gauge := rfl
@[simp] theorem State.chan_setPair (s : State) (p st : Nat) : (s.setPair p st).chan = s.chan := rfl
@[simp] theorem State.host_setPair (s : State) (p st : Nat) : (s.setPair p st).host = s.host := rfl
@[simp] theorem State.mem_setPair (s : State) (p st : Nat) : (s.setPair p st).mem = s.mem := rfl
@[simp] theorem State.hem_setPair (s : State) (p st : Nat) : (s.setPair p st).hem = s.hem := rfl
@[simp] theorem State.supply_setPair (s : State) (p st : Nat) : (s.setPair p st).supply = s.supply := rfl
@[simp] theorem State.san_setPair (s : State) (p st : Nat) : (s.setPair p st).san = s.san := rfl
@[simp] theorem State.pow_setPair (s : State) (p st : Nat) : (s.setPair p st).pow = s.pow := rfl
@[simp] theorem State.clk_setPair (s : State) (p st : Nat) : (s.setPair p st).clk = s.clk := rfl
@[simp] theorem State.therm_setPair (s : State) (p st : Nat) : (s.setPair p st).therm = s.therm := rfl
@[simp] theorem State.pb_setPair (s : State) (p st : Nat) : (s.setPair p st).pb = s.pb := rfl
@[simp] theorem State.yard_setPair (s : State) (p st : Nat) : (s.setPair p st).yard = s.yard := rfl
@[simp] theorem State.selv_setPair (s : State) (p st : Nat) : (s.setPair p st).selv = s.selv := rfl
@[simp] theorem State.dbg_setPair (s : State) (p st : Nat) : (s.setPair p st).dbg = s.dbg := rfl
@[simp] theorem State.port_setPair (s : State) (p st : Nat) : (s.setPair p st).port = s.port := rfl
@[simp] theorem State.aon_setPair (s : State) (p st : Nat) : (s.setPair p st).aon = s.aon := rfl
@[simp] theorem State.out_setPair (s : State) (p st : Nat) : (s.setPair p st).out = s.out := rfl
@[simp] theorem State.fresh_setPair (s : State) (p st : Nat) : (s.setPair p st).fresh = s.fresh := rfl
@[simp] theorem State.pending_setPair (s : State) (p st : Nat) : (s.setPair p st).pending = s.pending := rfl

/-! setChan. -/

@[simp] theorem State.board_setChan (s : State) (c : Nat) (x : Chan) : (s.setChan c x).board = s.board := rfl
@[simp] theorem State.geo_setChan (s : State) (c : Nat) (x : Chan) : (s.setChan c x).geo = s.geo := rfl
@[simp] theorem State.mbx_setChan (s : State) (c : Nat) (x : Chan) : (s.setChan c x).mbx = s.mbx := rfl
@[simp] theorem State.bolts_setChan (s : State) (c : Nat) (x : Chan) : (s.setChan c x).bolts = s.bolts := rfl
@[simp] theorem State.dies_setChan (s : State) (c : Nat) (x : Chan) : (s.setChan c x).dies = s.dies := rfl
@[simp] theorem State.wr_setChan (s : State) (c : Nat) (x : Chan) : (s.setChan c x).wr = s.wr := rfl
@[simp] theorem State.rd_setChan (s : State) (c : Nat) (x : Chan) : (s.setChan c x).rd = s.rd := rfl
@[simp] theorem State.recl_setChan (s : State) (c : Nat) (x : Chan) : (s.setChan c x).recl = s.recl := rfl
@[simp] theorem State.eng_setChan (s : State) (c : Nat) (x : Chan) : (s.setChan c x).eng = s.eng := rfl
@[simp] theorem State.gauge_setChan (s : State) (c : Nat) (x : Chan) : (s.setChan c x).gauge = s.gauge := rfl
@[simp] theorem State.host_setChan (s : State) (c : Nat) (x : Chan) : (s.setChan c x).host = s.host := rfl
@[simp] theorem State.mem_setChan (s : State) (c : Nat) (x : Chan) : (s.setChan c x).mem = s.mem := rfl
@[simp] theorem State.hem_setChan (s : State) (c : Nat) (x : Chan) : (s.setChan c x).hem = s.hem := rfl
@[simp] theorem State.supply_setChan (s : State) (c : Nat) (x : Chan) : (s.setChan c x).supply = s.supply := rfl
@[simp] theorem State.san_setChan (s : State) (c : Nat) (x : Chan) : (s.setChan c x).san = s.san := rfl
@[simp] theorem State.pow_setChan (s : State) (c : Nat) (x : Chan) : (s.setChan c x).pow = s.pow := rfl
@[simp] theorem State.clk_setChan (s : State) (c : Nat) (x : Chan) : (s.setChan c x).clk = s.clk := rfl
@[simp] theorem State.therm_setChan (s : State) (c : Nat) (x : Chan) : (s.setChan c x).therm = s.therm := rfl
@[simp] theorem State.pb_setChan (s : State) (c : Nat) (x : Chan) : (s.setChan c x).pb = s.pb := rfl
@[simp] theorem State.yard_setChan (s : State) (c : Nat) (x : Chan) : (s.setChan c x).yard = s.yard := rfl
@[simp] theorem State.selv_setChan (s : State) (c : Nat) (x : Chan) : (s.setChan c x).selv = s.selv := rfl
@[simp] theorem State.dbg_setChan (s : State) (c : Nat) (x : Chan) : (s.setChan c x).dbg = s.dbg := rfl
@[simp] theorem State.port_setChan (s : State) (c : Nat) (x : Chan) : (s.setChan c x).port = s.port := rfl
@[simp] theorem State.aon_setChan (s : State) (c : Nat) (x : Chan) : (s.setChan c x).aon = s.aon := rfl
@[simp] theorem State.out_setChan (s : State) (c : Nat) (x : Chan) : (s.setChan c x).out = s.out := rfl
@[simp] theorem State.fresh_setChan (s : State) (c : Nat) (x : Chan) : (s.setChan c x).fresh = s.fresh := rfl
@[simp] theorem State.pending_setChan (s : State) (c : Nat) (x : Chan) : (s.setChan c x).pending = s.pending := rfl

/-! setTwin. -/

@[simp] theorem State.board_setTwin (s : State) (n : Nat) (x : Twin) : (s.setTwin n x).board = s.board := by unfold State.setTwin; split <;> rfl
@[simp] theorem State.geo_setTwin (s : State) (n : Nat) (x : Twin) : (s.setTwin n x).geo = s.geo := by unfold State.setTwin; split <;> rfl
@[simp] theorem State.mbx_setTwin (s : State) (n : Nat) (x : Twin) : (s.setTwin n x).mbx = s.mbx := by unfold State.setTwin; split <;> rfl
@[simp] theorem State.bolts_setTwin (s : State) (n : Nat) (x : Twin) : (s.setTwin n x).bolts = s.bolts := by unfold State.setTwin; split <;> rfl
@[simp] theorem State.dies_setTwin (s : State) (n : Nat) (x : Twin) : (s.setTwin n x).dies = s.dies := by unfold State.setTwin; split <;> rfl
@[simp] theorem State.wr_setTwin (s : State) (n : Nat) (x : Twin) : (s.setTwin n x).wr = s.wr := by unfold State.setTwin; split <;> rfl
@[simp] theorem State.rd_setTwin (s : State) (n : Nat) (x : Twin) : (s.setTwin n x).rd = s.rd := by unfold State.setTwin; split <;> rfl
@[simp] theorem State.recl_setTwin (s : State) (n : Nat) (x : Twin) : (s.setTwin n x).recl = s.recl := by unfold State.setTwin; split <;> rfl
@[simp] theorem State.eng_setTwin (s : State) (n : Nat) (x : Twin) : (s.setTwin n x).eng = s.eng := by unfold State.setTwin; split <;> rfl
@[simp] theorem State.gauge_setTwin (s : State) (n : Nat) (x : Twin) : (s.setTwin n x).gauge = s.gauge := by unfold State.setTwin; split <;> rfl
@[simp] theorem State.chan_setTwin (s : State) (n : Nat) (x : Twin) : (s.setTwin n x).chan = s.chan := by unfold State.setTwin; split <;> rfl
@[simp] theorem State.host_setTwin (s : State) (n : Nat) (x : Twin) : (s.setTwin n x).host = s.host := by unfold State.setTwin; split <;> rfl
@[simp] theorem State.mem_setTwin (s : State) (n : Nat) (x : Twin) : (s.setTwin n x).mem = s.mem := by unfold State.setTwin; split <;> rfl
@[simp] theorem State.supply_setTwin (s : State) (n : Nat) (x : Twin) : (s.setTwin n x).supply = s.supply := by unfold State.setTwin; split <;> rfl
@[simp] theorem State.san_setTwin (s : State) (n : Nat) (x : Twin) : (s.setTwin n x).san = s.san := by unfold State.setTwin; split <;> rfl
@[simp] theorem State.pow_setTwin (s : State) (n : Nat) (x : Twin) : (s.setTwin n x).pow = s.pow := by unfold State.setTwin; split <;> rfl
@[simp] theorem State.clk_setTwin (s : State) (n : Nat) (x : Twin) : (s.setTwin n x).clk = s.clk := by unfold State.setTwin; split <;> rfl
@[simp] theorem State.therm_setTwin (s : State) (n : Nat) (x : Twin) : (s.setTwin n x).therm = s.therm := by unfold State.setTwin; split <;> rfl
@[simp] theorem State.pb_setTwin (s : State) (n : Nat) (x : Twin) : (s.setTwin n x).pb = s.pb := by unfold State.setTwin; split <;> rfl
@[simp] theorem State.yard_setTwin (s : State) (n : Nat) (x : Twin) : (s.setTwin n x).yard = s.yard := by unfold State.setTwin; split <;> rfl
@[simp] theorem State.selv_setTwin (s : State) (n : Nat) (x : Twin) : (s.setTwin n x).selv = s.selv := by unfold State.setTwin; split <;> rfl
@[simp] theorem State.dbg_setTwin (s : State) (n : Nat) (x : Twin) : (s.setTwin n x).dbg = s.dbg := by unfold State.setTwin; split <;> rfl
@[simp] theorem State.port_setTwin (s : State) (n : Nat) (x : Twin) : (s.setTwin n x).port = s.port := by unfold State.setTwin; split <;> rfl
@[simp] theorem State.aon_setTwin (s : State) (n : Nat) (x : Twin) : (s.setTwin n x).aon = s.aon := by unfold State.setTwin; split <;> rfl
@[simp] theorem State.out_setTwin (s : State) (n : Nat) (x : Twin) : (s.setTwin n x).out = s.out := by unfold State.setTwin; split <;> rfl
@[simp] theorem State.fresh_setTwin (s : State) (n : Nat) (x : Twin) : (s.setTwin n x).fresh = s.fresh := by unfold State.setTwin; split <;> rfl
@[simp] theorem State.pending_setTwin (s : State) (n : Nat) (x : Twin) : (s.setTwin n x).pending = s.pending := by unfold State.setTwin; split <;> rfl

/-! setHemBank. -/

@[simp] theorem State.board_setHemBank (s : State) (k : Nat) (b : HemBank) : (s.setHemBank k b).board = s.board := rfl
@[simp] theorem State.geo_setHemBank (s : State) (k : Nat) (b : HemBank) : (s.setHemBank k b).geo = s.geo := rfl
@[simp] theorem State.mbx_setHemBank (s : State) (k : Nat) (b : HemBank) : (s.setHemBank k b).mbx = s.mbx := rfl
@[simp] theorem State.bolts_setHemBank (s : State) (k : Nat) (b : HemBank) : (s.setHemBank k b).bolts = s.bolts := rfl
@[simp] theorem State.dies_setHemBank (s : State) (k : Nat) (b : HemBank) : (s.setHemBank k b).dies = s.dies := rfl
@[simp] theorem State.wr_setHemBank (s : State) (k : Nat) (b : HemBank) : (s.setHemBank k b).wr = s.wr := rfl
@[simp] theorem State.rd_setHemBank (s : State) (k : Nat) (b : HemBank) : (s.setHemBank k b).rd = s.rd := rfl
@[simp] theorem State.recl_setHemBank (s : State) (k : Nat) (b : HemBank) : (s.setHemBank k b).recl = s.recl := rfl
@[simp] theorem State.eng_setHemBank (s : State) (k : Nat) (b : HemBank) : (s.setHemBank k b).eng = s.eng := rfl
@[simp] theorem State.gauge_setHemBank (s : State) (k : Nat) (b : HemBank) : (s.setHemBank k b).gauge = s.gauge := rfl
@[simp] theorem State.chan_setHemBank (s : State) (k : Nat) (b : HemBank) : (s.setHemBank k b).chan = s.chan := rfl
@[simp] theorem State.host_setHemBank (s : State) (k : Nat) (b : HemBank) : (s.setHemBank k b).host = s.host := rfl
@[simp] theorem State.mem_setHemBank (s : State) (k : Nat) (b : HemBank) : (s.setHemBank k b).mem = s.mem := rfl
@[simp] theorem State.supply_setHemBank (s : State) (k : Nat) (b : HemBank) : (s.setHemBank k b).supply = s.supply := rfl
@[simp] theorem State.san_setHemBank (s : State) (k : Nat) (b : HemBank) : (s.setHemBank k b).san = s.san := rfl
@[simp] theorem State.pow_setHemBank (s : State) (k : Nat) (b : HemBank) : (s.setHemBank k b).pow = s.pow := rfl
@[simp] theorem State.clk_setHemBank (s : State) (k : Nat) (b : HemBank) : (s.setHemBank k b).clk = s.clk := rfl
@[simp] theorem State.therm_setHemBank (s : State) (k : Nat) (b : HemBank) : (s.setHemBank k b).therm = s.therm := rfl
@[simp] theorem State.pb_setHemBank (s : State) (k : Nat) (b : HemBank) : (s.setHemBank k b).pb = s.pb := rfl
@[simp] theorem State.yard_setHemBank (s : State) (k : Nat) (b : HemBank) : (s.setHemBank k b).yard = s.yard := rfl
@[simp] theorem State.selv_setHemBank (s : State) (k : Nat) (b : HemBank) : (s.setHemBank k b).selv = s.selv := rfl
@[simp] theorem State.dbg_setHemBank (s : State) (k : Nat) (b : HemBank) : (s.setHemBank k b).dbg = s.dbg := rfl
@[simp] theorem State.port_setHemBank (s : State) (k : Nat) (b : HemBank) : (s.setHemBank k b).port = s.port := rfl
@[simp] theorem State.aon_setHemBank (s : State) (k : Nat) (b : HemBank) : (s.setHemBank k b).aon = s.aon := rfl
@[simp] theorem State.out_setHemBank (s : State) (k : Nat) (b : HemBank) : (s.setHemBank k b).out = s.out := rfl
@[simp] theorem State.fresh_setHemBank (s : State) (k : Nat) (b : HemBank) : (s.setHemBank k b).fresh = s.fresh := rfl
@[simp] theorem State.pending_setHemBank (s : State) (k : Nat) (b : HemBank) : (s.setHemBank k b).pending = s.pending := rfl

/-! setFn. -/

@[simp] theorem State.board_setFn (s : State) (f : FnId) (x : Fn) : (s.setFn f x).board = s.board := rfl
@[simp] theorem State.geo_setFn (s : State) (f : FnId) (x : Fn) : (s.setFn f x).geo = s.geo := rfl
@[simp] theorem State.mbx_setFn (s : State) (f : FnId) (x : Fn) : (s.setFn f x).mbx = s.mbx := rfl
@[simp] theorem State.bolts_setFn (s : State) (f : FnId) (x : Fn) : (s.setFn f x).bolts = s.bolts := rfl
@[simp] theorem State.dies_setFn (s : State) (f : FnId) (x : Fn) : (s.setFn f x).dies = s.dies := rfl
@[simp] theorem State.wr_setFn (s : State) (f : FnId) (x : Fn) : (s.setFn f x).wr = s.wr := rfl
@[simp] theorem State.rd_setFn (s : State) (f : FnId) (x : Fn) : (s.setFn f x).rd = s.rd := rfl
@[simp] theorem State.recl_setFn (s : State) (f : FnId) (x : Fn) : (s.setFn f x).recl = s.recl := rfl
@[simp] theorem State.eng_setFn (s : State) (f : FnId) (x : Fn) : (s.setFn f x).eng = s.eng := rfl
@[simp] theorem State.gauge_setFn (s : State) (f : FnId) (x : Fn) : (s.setFn f x).gauge = s.gauge := rfl
@[simp] theorem State.chan_setFn (s : State) (f : FnId) (x : Fn) : (s.setFn f x).chan = s.chan := rfl
@[simp] theorem State.mem_setFn (s : State) (f : FnId) (x : Fn) : (s.setFn f x).mem = s.mem := rfl
@[simp] theorem State.hem_setFn (s : State) (f : FnId) (x : Fn) : (s.setFn f x).hem = s.hem := rfl
@[simp] theorem State.supply_setFn (s : State) (f : FnId) (x : Fn) : (s.setFn f x).supply = s.supply := rfl
@[simp] theorem State.san_setFn (s : State) (f : FnId) (x : Fn) : (s.setFn f x).san = s.san := rfl
@[simp] theorem State.pow_setFn (s : State) (f : FnId) (x : Fn) : (s.setFn f x).pow = s.pow := rfl
@[simp] theorem State.clk_setFn (s : State) (f : FnId) (x : Fn) : (s.setFn f x).clk = s.clk := rfl
@[simp] theorem State.therm_setFn (s : State) (f : FnId) (x : Fn) : (s.setFn f x).therm = s.therm := rfl
@[simp] theorem State.pb_setFn (s : State) (f : FnId) (x : Fn) : (s.setFn f x).pb = s.pb := rfl
@[simp] theorem State.yard_setFn (s : State) (f : FnId) (x : Fn) : (s.setFn f x).yard = s.yard := rfl
@[simp] theorem State.selv_setFn (s : State) (f : FnId) (x : Fn) : (s.setFn f x).selv = s.selv := rfl
@[simp] theorem State.dbg_setFn (s : State) (f : FnId) (x : Fn) : (s.setFn f x).dbg = s.dbg := rfl
@[simp] theorem State.port_setFn (s : State) (f : FnId) (x : Fn) : (s.setFn f x).port = s.port := rfl
@[simp] theorem State.aon_setFn (s : State) (f : FnId) (x : Fn) : (s.setFn f x).aon = s.aon := rfl
@[simp] theorem State.fresh_setFn (s : State) (f : FnId) (x : Fn) : (s.setFn f x).fresh = s.fresh := rfl
@[simp] theorem State.pending_setFn (s : State) (f : FnId) (x : Fn) : (s.setFn f x).pending = s.pending := rfl

/-! setTenant. -/

@[simp] theorem State.board_setTenant (s : State) (k : Nat) (t : Tenant) : (s.setTenant k t).board = s.board := rfl
@[simp] theorem State.geo_setTenant (s : State) (k : Nat) (t : Tenant) : (s.setTenant k t).geo = s.geo := rfl
@[simp] theorem State.mbx_setTenant (s : State) (k : Nat) (t : Tenant) : (s.setTenant k t).mbx = s.mbx := rfl
@[simp] theorem State.bolts_setTenant (s : State) (k : Nat) (t : Tenant) : (s.setTenant k t).bolts = s.bolts := rfl
@[simp] theorem State.dies_setTenant (s : State) (k : Nat) (t : Tenant) : (s.setTenant k t).dies = s.dies := rfl
@[simp] theorem State.wr_setTenant (s : State) (k : Nat) (t : Tenant) : (s.setTenant k t).wr = s.wr := rfl
@[simp] theorem State.rd_setTenant (s : State) (k : Nat) (t : Tenant) : (s.setTenant k t).rd = s.rd := rfl
@[simp] theorem State.recl_setTenant (s : State) (k : Nat) (t : Tenant) : (s.setTenant k t).recl = s.recl := rfl
@[simp] theorem State.eng_setTenant (s : State) (k : Nat) (t : Tenant) : (s.setTenant k t).eng = s.eng := rfl
@[simp] theorem State.gauge_setTenant (s : State) (k : Nat) (t : Tenant) : (s.setTenant k t).gauge = s.gauge := rfl
@[simp] theorem State.chan_setTenant (s : State) (k : Nat) (t : Tenant) : (s.setTenant k t).chan = s.chan := rfl
@[simp] theorem State.mem_setTenant (s : State) (k : Nat) (t : Tenant) : (s.setTenant k t).mem = s.mem := rfl
@[simp] theorem State.hem_setTenant (s : State) (k : Nat) (t : Tenant) : (s.setTenant k t).hem = s.hem := rfl
@[simp] theorem State.supply_setTenant (s : State) (k : Nat) (t : Tenant) : (s.setTenant k t).supply = s.supply := rfl
@[simp] theorem State.san_setTenant (s : State) (k : Nat) (t : Tenant) : (s.setTenant k t).san = s.san := rfl
@[simp] theorem State.pow_setTenant (s : State) (k : Nat) (t : Tenant) : (s.setTenant k t).pow = s.pow := rfl
@[simp] theorem State.clk_setTenant (s : State) (k : Nat) (t : Tenant) : (s.setTenant k t).clk = s.clk := rfl
@[simp] theorem State.therm_setTenant (s : State) (k : Nat) (t : Tenant) : (s.setTenant k t).therm = s.therm := rfl
@[simp] theorem State.pb_setTenant (s : State) (k : Nat) (t : Tenant) : (s.setTenant k t).pb = s.pb := rfl
@[simp] theorem State.yard_setTenant (s : State) (k : Nat) (t : Tenant) : (s.setTenant k t).yard = s.yard := rfl
@[simp] theorem State.selv_setTenant (s : State) (k : Nat) (t : Tenant) : (s.setTenant k t).selv = s.selv := rfl
@[simp] theorem State.dbg_setTenant (s : State) (k : Nat) (t : Tenant) : (s.setTenant k t).dbg = s.dbg := rfl
@[simp] theorem State.port_setTenant (s : State) (k : Nat) (t : Tenant) : (s.setTenant k t).port = s.port := rfl
@[simp] theorem State.aon_setTenant (s : State) (k : Nat) (t : Tenant) : (s.setTenant k t).aon = s.aon := rfl
@[simp] theorem State.out_setTenant (s : State) (k : Nat) (t : Tenant) : (s.setTenant k t).out = s.out := rfl
@[simp] theorem State.fresh_setTenant (s : State) (k : Nat) (t : Tenant) : (s.setTenant k t).fresh = s.fresh := rfl
@[simp] theorem State.pending_setTenant (s : State) (k : Nat) (t : Tenant) : (s.setTenant k t).pending = s.pending := rfl

/-! bumpGen. -/

@[simp] theorem State.board_bumpGen (s : State) (kind k : Nat) : (s.bumpGen kind k).board = s.board := rfl
@[simp] theorem State.geo_bumpGen (s : State) (kind k : Nat) : (s.bumpGen kind k).geo = s.geo := rfl
@[simp] theorem State.mbx_bumpGen (s : State) (kind k : Nat) : (s.bumpGen kind k).mbx = s.mbx := rfl
@[simp] theorem State.bolts_bumpGen (s : State) (kind k : Nat) : (s.bumpGen kind k).bolts = s.bolts := rfl
@[simp] theorem State.dies_bumpGen (s : State) (kind k : Nat) : (s.bumpGen kind k).dies = s.dies := rfl
@[simp] theorem State.wr_bumpGen (s : State) (kind k : Nat) : (s.bumpGen kind k).wr = s.wr := rfl
@[simp] theorem State.rd_bumpGen (s : State) (kind k : Nat) : (s.bumpGen kind k).rd = s.rd := rfl
@[simp] theorem State.recl_bumpGen (s : State) (kind k : Nat) : (s.bumpGen kind k).recl = s.recl := rfl
@[simp] theorem State.eng_bumpGen (s : State) (kind k : Nat) : (s.bumpGen kind k).eng = s.eng := rfl
@[simp] theorem State.gauge_bumpGen (s : State) (kind k : Nat) : (s.bumpGen kind k).gauge = s.gauge := rfl
@[simp] theorem State.chan_bumpGen (s : State) (kind k : Nat) : (s.bumpGen kind k).chan = s.chan := rfl
@[simp] theorem State.mem_bumpGen (s : State) (kind k : Nat) : (s.bumpGen kind k).mem = s.mem := rfl
@[simp] theorem State.hem_bumpGen (s : State) (kind k : Nat) : (s.bumpGen kind k).hem = s.hem := rfl
@[simp] theorem State.supply_bumpGen (s : State) (kind k : Nat) : (s.bumpGen kind k).supply = s.supply := rfl
@[simp] theorem State.san_bumpGen (s : State) (kind k : Nat) : (s.bumpGen kind k).san = s.san := rfl
@[simp] theorem State.pow_bumpGen (s : State) (kind k : Nat) : (s.bumpGen kind k).pow = s.pow := rfl
@[simp] theorem State.clk_bumpGen (s : State) (kind k : Nat) : (s.bumpGen kind k).clk = s.clk := rfl
@[simp] theorem State.therm_bumpGen (s : State) (kind k : Nat) : (s.bumpGen kind k).therm = s.therm := rfl
@[simp] theorem State.pb_bumpGen (s : State) (kind k : Nat) : (s.bumpGen kind k).pb = s.pb := rfl
@[simp] theorem State.yard_bumpGen (s : State) (kind k : Nat) : (s.bumpGen kind k).yard = s.yard := rfl
@[simp] theorem State.selv_bumpGen (s : State) (kind k : Nat) : (s.bumpGen kind k).selv = s.selv := rfl
@[simp] theorem State.dbg_bumpGen (s : State) (kind k : Nat) : (s.bumpGen kind k).dbg = s.dbg := rfl
@[simp] theorem State.port_bumpGen (s : State) (kind k : Nat) : (s.bumpGen kind k).port = s.port := rfl
@[simp] theorem State.aon_bumpGen (s : State) (kind k : Nat) : (s.bumpGen kind k).aon = s.aon := rfl
@[simp] theorem State.out_bumpGen (s : State) (kind k : Nat) : (s.bumpGen kind k).out = s.out := rfl
@[simp] theorem State.fresh_bumpGen (s : State) (kind k : Nat) : (s.bumpGen kind k).fresh = s.fresh := rfl
@[simp] theorem State.pending_bumpGen (s : State) (kind k : Nat) : (s.bumpGen kind k).pending = s.pending := rfl

/-! setMbxPort. -/

@[simp] theorem State.board_setMbxPort (s : State) (p : Port) (x : MbxPort) : (s.setMbxPort p x).board = s.board := by cases p <;> rfl
@[simp] theorem State.geo_setMbxPort (s : State) (p : Port) (x : MbxPort) : (s.setMbxPort p x).geo = s.geo := by cases p <;> rfl
@[simp] theorem State.bolts_setMbxPort (s : State) (p : Port) (x : MbxPort) : (s.setMbxPort p x).bolts = s.bolts := by cases p <;> rfl
@[simp] theorem State.dies_setMbxPort (s : State) (p : Port) (x : MbxPort) : (s.setMbxPort p x).dies = s.dies := by cases p <;> rfl
@[simp] theorem State.wr_setMbxPort (s : State) (p : Port) (x : MbxPort) : (s.setMbxPort p x).wr = s.wr := by cases p <;> rfl
@[simp] theorem State.rd_setMbxPort (s : State) (p : Port) (x : MbxPort) : (s.setMbxPort p x).rd = s.rd := by cases p <;> rfl
@[simp] theorem State.recl_setMbxPort (s : State) (p : Port) (x : MbxPort) : (s.setMbxPort p x).recl = s.recl := by cases p <;> rfl
@[simp] theorem State.gauge_setMbxPort (s : State) (p : Port) (x : MbxPort) : (s.setMbxPort p x).gauge = s.gauge := by cases p <;> rfl
@[simp] theorem State.chan_setMbxPort (s : State) (p : Port) (x : MbxPort) : (s.setMbxPort p x).chan = s.chan := by cases p <;> rfl
@[simp] theorem State.host_setMbxPort (s : State) (p : Port) (x : MbxPort) : (s.setMbxPort p x).host = s.host := by cases p <;> rfl
@[simp] theorem State.mem_setMbxPort (s : State) (p : Port) (x : MbxPort) : (s.setMbxPort p x).mem = s.mem := by cases p <;> rfl
@[simp] theorem State.hem_setMbxPort (s : State) (p : Port) (x : MbxPort) : (s.setMbxPort p x).hem = s.hem := by cases p <;> rfl
@[simp] theorem State.san_setMbxPort (s : State) (p : Port) (x : MbxPort) : (s.setMbxPort p x).san = s.san := by cases p <;> rfl
@[simp] theorem State.clk_setMbxPort (s : State) (p : Port) (x : MbxPort) : (s.setMbxPort p x).clk = s.clk := by cases p <;> rfl
@[simp] theorem State.therm_setMbxPort (s : State) (p : Port) (x : MbxPort) : (s.setMbxPort p x).therm = s.therm := by cases p <;> rfl
@[simp] theorem State.pb_setMbxPort (s : State) (p : Port) (x : MbxPort) : (s.setMbxPort p x).pb = s.pb := by cases p <;> rfl
@[simp] theorem State.yard_setMbxPort (s : State) (p : Port) (x : MbxPort) : (s.setMbxPort p x).yard = s.yard := by cases p <;> rfl
@[simp] theorem State.selv_setMbxPort (s : State) (p : Port) (x : MbxPort) : (s.setMbxPort p x).selv = s.selv := by cases p <;> rfl
@[simp] theorem State.port_setMbxPort (s : State) (p : Port) (x : MbxPort) : (s.setMbxPort p x).port = s.port := by cases p <;> rfl
@[simp] theorem State.aon_setMbxPort (s : State) (p : Port) (x : MbxPort) : (s.setMbxPort p x).aon = s.aon := by cases p <;> rfl
@[simp] theorem State.fresh_setMbxPort (s : State) (p : Port) (x : MbxPort) : (s.setMbxPort p x).fresh = s.fresh := by cases p <;> rfl
@[simp] theorem State.pending_setMbxPort (s : State) (p : Port) (x : MbxPort) : (s.setMbxPort p x).pending = s.pending := by cases p <;> rfl

/-! setBucket. -/

@[simp] theorem State.board_setBucket (s : State) (g : Nat) (b : Bucket) : (s.setBucket g b).board = s.board := rfl
@[simp] theorem State.geo_setBucket (s : State) (g : Nat) (b : Bucket) : (s.setBucket g b).geo = s.geo := rfl
@[simp] theorem State.mbx_setBucket (s : State) (g : Nat) (b : Bucket) : (s.setBucket g b).mbx = s.mbx := rfl
@[simp] theorem State.bolts_setBucket (s : State) (g : Nat) (b : Bucket) : (s.setBucket g b).bolts = s.bolts := rfl
@[simp] theorem State.dies_setBucket (s : State) (g : Nat) (b : Bucket) : (s.setBucket g b).dies = s.dies := rfl
@[simp] theorem State.wr_setBucket (s : State) (g : Nat) (b : Bucket) : (s.setBucket g b).wr = s.wr := rfl
@[simp] theorem State.recl_setBucket (s : State) (g : Nat) (b : Bucket) : (s.setBucket g b).recl = s.recl := rfl
@[simp] theorem State.eng_setBucket (s : State) (g : Nat) (b : Bucket) : (s.setBucket g b).eng = s.eng := rfl
@[simp] theorem State.gauge_setBucket (s : State) (g : Nat) (b : Bucket) : (s.setBucket g b).gauge = s.gauge := rfl
@[simp] theorem State.chan_setBucket (s : State) (g : Nat) (b : Bucket) : (s.setBucket g b).chan = s.chan := rfl
@[simp] theorem State.host_setBucket (s : State) (g : Nat) (b : Bucket) : (s.setBucket g b).host = s.host := rfl
@[simp] theorem State.mem_setBucket (s : State) (g : Nat) (b : Bucket) : (s.setBucket g b).mem = s.mem := rfl
@[simp] theorem State.hem_setBucket (s : State) (g : Nat) (b : Bucket) : (s.setBucket g b).hem = s.hem := rfl
@[simp] theorem State.supply_setBucket (s : State) (g : Nat) (b : Bucket) : (s.setBucket g b).supply = s.supply := rfl
@[simp] theorem State.san_setBucket (s : State) (g : Nat) (b : Bucket) : (s.setBucket g b).san = s.san := rfl
@[simp] theorem State.pow_setBucket (s : State) (g : Nat) (b : Bucket) : (s.setBucket g b).pow = s.pow := rfl
@[simp] theorem State.clk_setBucket (s : State) (g : Nat) (b : Bucket) : (s.setBucket g b).clk = s.clk := rfl
@[simp] theorem State.therm_setBucket (s : State) (g : Nat) (b : Bucket) : (s.setBucket g b).therm = s.therm := rfl
@[simp] theorem State.pb_setBucket (s : State) (g : Nat) (b : Bucket) : (s.setBucket g b).pb = s.pb := rfl
@[simp] theorem State.yard_setBucket (s : State) (g : Nat) (b : Bucket) : (s.setBucket g b).yard = s.yard := rfl
@[simp] theorem State.selv_setBucket (s : State) (g : Nat) (b : Bucket) : (s.setBucket g b).selv = s.selv := rfl
@[simp] theorem State.dbg_setBucket (s : State) (g : Nat) (b : Bucket) : (s.setBucket g b).dbg = s.dbg := rfl
@[simp] theorem State.port_setBucket (s : State) (g : Nat) (b : Bucket) : (s.setBucket g b).port = s.port := rfl
@[simp] theorem State.aon_setBucket (s : State) (g : Nat) (b : Bucket) : (s.setBucket g b).aon = s.aon := rfl
@[simp] theorem State.out_setBucket (s : State) (g : Nat) (b : Bucket) : (s.setBucket g b).out = s.out := rfl
@[simp] theorem State.fresh_setBucket (s : State) (g : Nat) (b : Bucket) : (s.setBucket g b).fresh = s.fresh := rfl
@[simp] theorem State.pending_setBucket (s : State) (g : Nat) (b : Bucket) : (s.setBucket g b).pending = s.pending := rfl

/-! setShtCh. -/

@[simp] theorem State.board_setShtCh (s : State) (c : Nat) (x : ShtCh) : (s.setShtCh c x).board = s.board := rfl
@[simp] theorem State.geo_setShtCh (s : State) (c : Nat) (x : ShtCh) : (s.setShtCh c x).geo = s.geo := rfl
@[simp] theorem State.mbx_setShtCh (s : State) (c : Nat) (x : ShtCh) : (s.setShtCh c x).mbx = s.mbx := rfl
@[simp] theorem State.bolts_setShtCh (s : State) (c : Nat) (x : ShtCh) : (s.setShtCh c x).bolts = s.bolts := rfl
@[simp] theorem State.dies_setShtCh (s : State) (c : Nat) (x : ShtCh) : (s.setShtCh c x).dies = s.dies := rfl
@[simp] theorem State.wr_setShtCh (s : State) (c : Nat) (x : ShtCh) : (s.setShtCh c x).wr = s.wr := rfl
@[simp] theorem State.rd_setShtCh (s : State) (c : Nat) (x : ShtCh) : (s.setShtCh c x).rd = s.rd := rfl
@[simp] theorem State.recl_setShtCh (s : State) (c : Nat) (x : ShtCh) : (s.setShtCh c x).recl = s.recl := rfl
@[simp] theorem State.eng_setShtCh (s : State) (c : Nat) (x : ShtCh) : (s.setShtCh c x).eng = s.eng := rfl
@[simp] theorem State.gauge_setShtCh (s : State) (c : Nat) (x : ShtCh) : (s.setShtCh c x).gauge = s.gauge := rfl
@[simp] theorem State.chan_setShtCh (s : State) (c : Nat) (x : ShtCh) : (s.setShtCh c x).chan = s.chan := rfl
@[simp] theorem State.host_setShtCh (s : State) (c : Nat) (x : ShtCh) : (s.setShtCh c x).host = s.host := rfl
@[simp] theorem State.hem_setShtCh (s : State) (c : Nat) (x : ShtCh) : (s.setShtCh c x).hem = s.hem := rfl
@[simp] theorem State.supply_setShtCh (s : State) (c : Nat) (x : ShtCh) : (s.setShtCh c x).supply = s.supply := rfl
@[simp] theorem State.san_setShtCh (s : State) (c : Nat) (x : ShtCh) : (s.setShtCh c x).san = s.san := rfl
@[simp] theorem State.pow_setShtCh (s : State) (c : Nat) (x : ShtCh) : (s.setShtCh c x).pow = s.pow := rfl
@[simp] theorem State.clk_setShtCh (s : State) (c : Nat) (x : ShtCh) : (s.setShtCh c x).clk = s.clk := rfl
@[simp] theorem State.therm_setShtCh (s : State) (c : Nat) (x : ShtCh) : (s.setShtCh c x).therm = s.therm := rfl
@[simp] theorem State.pb_setShtCh (s : State) (c : Nat) (x : ShtCh) : (s.setShtCh c x).pb = s.pb := rfl
@[simp] theorem State.yard_setShtCh (s : State) (c : Nat) (x : ShtCh) : (s.setShtCh c x).yard = s.yard := rfl
@[simp] theorem State.selv_setShtCh (s : State) (c : Nat) (x : ShtCh) : (s.setShtCh c x).selv = s.selv := rfl
@[simp] theorem State.dbg_setShtCh (s : State) (c : Nat) (x : ShtCh) : (s.setShtCh c x).dbg = s.dbg := rfl
@[simp] theorem State.port_setShtCh (s : State) (c : Nat) (x : ShtCh) : (s.setShtCh c x).port = s.port := rfl
@[simp] theorem State.aon_setShtCh (s : State) (c : Nat) (x : ShtCh) : (s.setShtCh c x).aon = s.aon := rfl
@[simp] theorem State.out_setShtCh (s : State) (c : Nat) (x : ShtCh) : (s.setShtCh c x).out = s.out := rfl
@[simp] theorem State.fresh_setShtCh (s : State) (c : Nat) (x : ShtCh) : (s.setShtCh c x).fresh = s.fresh := rfl
@[simp] theorem State.pending_setShtCh (s : State) (c : Nat) (x : ShtCh) : (s.setShtCh c x).pending = s.pending := rfl

/-! takeRsp. -/

@[simp] theorem State.board_takeRsp (s : State) (m : BMsg) : (s.takeRsp m).board = s.board := rfl
@[simp] theorem State.geo_takeRsp (s : State) (m : BMsg) : (s.takeRsp m).geo = s.geo := rfl
@[simp] theorem State.mbx_takeRsp (s : State) (m : BMsg) : (s.takeRsp m).mbx = s.mbx := rfl
@[simp] theorem State.bolts_takeRsp (s : State) (m : BMsg) : (s.takeRsp m).bolts = s.bolts := rfl
@[simp] theorem State.dies_takeRsp (s : State) (m : BMsg) : (s.takeRsp m).dies = s.dies := rfl
@[simp] theorem State.wr_takeRsp (s : State) (m : BMsg) : (s.takeRsp m).wr = s.wr := rfl
@[simp] theorem State.rd_takeRsp (s : State) (m : BMsg) : (s.takeRsp m).rd = s.rd := rfl
@[simp] theorem State.recl_takeRsp (s : State) (m : BMsg) : (s.takeRsp m).recl = s.recl := rfl
@[simp] theorem State.gauge_takeRsp (s : State) (m : BMsg) : (s.takeRsp m).gauge = s.gauge := rfl
@[simp] theorem State.chan_takeRsp (s : State) (m : BMsg) : (s.takeRsp m).chan = s.chan := rfl
@[simp] theorem State.host_takeRsp (s : State) (m : BMsg) : (s.takeRsp m).host = s.host := rfl
@[simp] theorem State.mem_takeRsp (s : State) (m : BMsg) : (s.takeRsp m).mem = s.mem := rfl
@[simp] theorem State.hem_takeRsp (s : State) (m : BMsg) : (s.takeRsp m).hem = s.hem := rfl
@[simp] theorem State.supply_takeRsp (s : State) (m : BMsg) : (s.takeRsp m).supply = s.supply := rfl
@[simp] theorem State.san_takeRsp (s : State) (m : BMsg) : (s.takeRsp m).san = s.san := rfl
@[simp] theorem State.pow_takeRsp (s : State) (m : BMsg) : (s.takeRsp m).pow = s.pow := rfl
@[simp] theorem State.clk_takeRsp (s : State) (m : BMsg) : (s.takeRsp m).clk = s.clk := rfl
@[simp] theorem State.therm_takeRsp (s : State) (m : BMsg) : (s.takeRsp m).therm = s.therm := rfl
@[simp] theorem State.pb_takeRsp (s : State) (m : BMsg) : (s.takeRsp m).pb = s.pb := rfl
@[simp] theorem State.yard_takeRsp (s : State) (m : BMsg) : (s.takeRsp m).yard = s.yard := rfl
@[simp] theorem State.selv_takeRsp (s : State) (m : BMsg) : (s.takeRsp m).selv = s.selv := rfl
@[simp] theorem State.dbg_takeRsp (s : State) (m : BMsg) : (s.takeRsp m).dbg = s.dbg := rfl
@[simp] theorem State.port_takeRsp (s : State) (m : BMsg) : (s.takeRsp m).port = s.port := rfl
@[simp] theorem State.aon_takeRsp (s : State) (m : BMsg) : (s.takeRsp m).aon = s.aon := rfl
@[simp] theorem State.out_takeRsp (s : State) (m : BMsg) : (s.takeRsp m).out = s.out := rfl
@[simp] theorem State.fresh_takeRsp (s : State) (m : BMsg) : (s.takeRsp m).fresh = s.fresh := rfl
@[simp] theorem State.pending_takeRsp (s : State) (m : BMsg) : (s.takeRsp m).pending = s.pending := rfl

/-! recordReq. -/

@[simp] theorem State.board_recordReq (s : State) (m : BMsg) : (s.recordReq m).board = s.board := by unfold State.recordReq; split <;> rfl
@[simp] theorem State.geo_recordReq (s : State) (m : BMsg) : (s.recordReq m).geo = s.geo := by unfold State.recordReq; split <;> rfl
@[simp] theorem State.mbx_recordReq (s : State) (m : BMsg) : (s.recordReq m).mbx = s.mbx := by unfold State.recordReq; split <;> rfl
@[simp] theorem State.bolts_recordReq (s : State) (m : BMsg) : (s.recordReq m).bolts = s.bolts := by unfold State.recordReq; split <;> rfl
@[simp] theorem State.dies_recordReq (s : State) (m : BMsg) : (s.recordReq m).dies = s.dies := by unfold State.recordReq; split <;> rfl
@[simp] theorem State.wr_recordReq (s : State) (m : BMsg) : (s.recordReq m).wr = s.wr := by unfold State.recordReq; split <;> rfl
@[simp] theorem State.rd_recordReq (s : State) (m : BMsg) : (s.recordReq m).rd = s.rd := by unfold State.recordReq; split <;> rfl
@[simp] theorem State.recl_recordReq (s : State) (m : BMsg) : (s.recordReq m).recl = s.recl := by unfold State.recordReq; split <;> rfl
@[simp] theorem State.gauge_recordReq (s : State) (m : BMsg) : (s.recordReq m).gauge = s.gauge := by unfold State.recordReq; split <;> rfl
@[simp] theorem State.chan_recordReq (s : State) (m : BMsg) : (s.recordReq m).chan = s.chan := by unfold State.recordReq; split <;> rfl
@[simp] theorem State.host_recordReq (s : State) (m : BMsg) : (s.recordReq m).host = s.host := by unfold State.recordReq; split <;> rfl
@[simp] theorem State.mem_recordReq (s : State) (m : BMsg) : (s.recordReq m).mem = s.mem := by unfold State.recordReq; split <;> rfl
@[simp] theorem State.hem_recordReq (s : State) (m : BMsg) : (s.recordReq m).hem = s.hem := by unfold State.recordReq; split <;> rfl
@[simp] theorem State.supply_recordReq (s : State) (m : BMsg) : (s.recordReq m).supply = s.supply := by unfold State.recordReq; split <;> rfl
@[simp] theorem State.san_recordReq (s : State) (m : BMsg) : (s.recordReq m).san = s.san := by unfold State.recordReq; split <;> rfl
@[simp] theorem State.pow_recordReq (s : State) (m : BMsg) : (s.recordReq m).pow = s.pow := by unfold State.recordReq; split <;> rfl
@[simp] theorem State.clk_recordReq (s : State) (m : BMsg) : (s.recordReq m).clk = s.clk := by unfold State.recordReq; split <;> rfl
@[simp] theorem State.therm_recordReq (s : State) (m : BMsg) : (s.recordReq m).therm = s.therm := by unfold State.recordReq; split <;> rfl
@[simp] theorem State.pb_recordReq (s : State) (m : BMsg) : (s.recordReq m).pb = s.pb := by unfold State.recordReq; split <;> rfl
@[simp] theorem State.yard_recordReq (s : State) (m : BMsg) : (s.recordReq m).yard = s.yard := by unfold State.recordReq; split <;> rfl
@[simp] theorem State.selv_recordReq (s : State) (m : BMsg) : (s.recordReq m).selv = s.selv := by unfold State.recordReq; split <;> rfl
@[simp] theorem State.dbg_recordReq (s : State) (m : BMsg) : (s.recordReq m).dbg = s.dbg := by unfold State.recordReq; split <;> rfl
@[simp] theorem State.port_recordReq (s : State) (m : BMsg) : (s.recordReq m).port = s.port := by unfold State.recordReq; split <;> rfl
@[simp] theorem State.aon_recordReq (s : State) (m : BMsg) : (s.recordReq m).aon = s.aon := by unfold State.recordReq; split <;> rfl
@[simp] theorem State.out_recordReq (s : State) (m : BMsg) : (s.recordReq m).out = s.out := by unfold State.recordReq; split <;> rfl
@[simp] theorem State.fresh_recordReq (s : State) (m : BMsg) : (s.recordReq m).fresh = s.fresh := by unfold State.recordReq; split <;> rfl
@[simp] theorem State.pending_recordReq (s : State) (m : BMsg) : (s.recordReq m).pending = s.pending := by unfold State.recordReq; split <;> rfl

/-! dropReq. -/

@[simp] theorem State.board_dropReq (s : State) (a o : Nat) : (s.dropReq a o).board = s.board := rfl
@[simp] theorem State.geo_dropReq (s : State) (a o : Nat) : (s.dropReq a o).geo = s.geo := rfl
@[simp] theorem State.mbx_dropReq (s : State) (a o : Nat) : (s.dropReq a o).mbx = s.mbx := rfl
@[simp] theorem State.bolts_dropReq (s : State) (a o : Nat) : (s.dropReq a o).bolts = s.bolts := rfl
@[simp] theorem State.dies_dropReq (s : State) (a o : Nat) : (s.dropReq a o).dies = s.dies := rfl
@[simp] theorem State.wr_dropReq (s : State) (a o : Nat) : (s.dropReq a o).wr = s.wr := rfl
@[simp] theorem State.rd_dropReq (s : State) (a o : Nat) : (s.dropReq a o).rd = s.rd := rfl
@[simp] theorem State.recl_dropReq (s : State) (a o : Nat) : (s.dropReq a o).recl = s.recl := rfl
@[simp] theorem State.gauge_dropReq (s : State) (a o : Nat) : (s.dropReq a o).gauge = s.gauge := rfl
@[simp] theorem State.chan_dropReq (s : State) (a o : Nat) : (s.dropReq a o).chan = s.chan := rfl
@[simp] theorem State.host_dropReq (s : State) (a o : Nat) : (s.dropReq a o).host = s.host := rfl
@[simp] theorem State.mem_dropReq (s : State) (a o : Nat) : (s.dropReq a o).mem = s.mem := rfl
@[simp] theorem State.hem_dropReq (s : State) (a o : Nat) : (s.dropReq a o).hem = s.hem := rfl
@[simp] theorem State.supply_dropReq (s : State) (a o : Nat) : (s.dropReq a o).supply = s.supply := rfl
@[simp] theorem State.san_dropReq (s : State) (a o : Nat) : (s.dropReq a o).san = s.san := rfl
@[simp] theorem State.pow_dropReq (s : State) (a o : Nat) : (s.dropReq a o).pow = s.pow := rfl
@[simp] theorem State.clk_dropReq (s : State) (a o : Nat) : (s.dropReq a o).clk = s.clk := rfl
@[simp] theorem State.therm_dropReq (s : State) (a o : Nat) : (s.dropReq a o).therm = s.therm := rfl
@[simp] theorem State.pb_dropReq (s : State) (a o : Nat) : (s.dropReq a o).pb = s.pb := rfl
@[simp] theorem State.yard_dropReq (s : State) (a o : Nat) : (s.dropReq a o).yard = s.yard := rfl
@[simp] theorem State.selv_dropReq (s : State) (a o : Nat) : (s.dropReq a o).selv = s.selv := rfl
@[simp] theorem State.dbg_dropReq (s : State) (a o : Nat) : (s.dropReq a o).dbg = s.dbg := rfl
@[simp] theorem State.port_dropReq (s : State) (a o : Nat) : (s.dropReq a o).port = s.port := rfl
@[simp] theorem State.aon_dropReq (s : State) (a o : Nat) : (s.dropReq a o).aon = s.aon := rfl
@[simp] theorem State.out_dropReq (s : State) (a o : Nat) : (s.dropReq a o).out = s.out := rfl
@[simp] theorem State.fresh_dropReq (s : State) (a o : Nat) : (s.dropReq a o).fresh = s.fresh := rfl
@[simp] theorem State.pending_dropReq (s : State) (a o : Nat) : (s.dropReq a o).pending = s.pending := rfl

/-! setReqOp. -/

@[simp] theorem State.board_setReqOp (s : State) (m : BMsg) (o : Nat) : (s.setReqOp m o).board = s.board := rfl
@[simp] theorem State.geo_setReqOp (s : State) (m : BMsg) (o : Nat) : (s.setReqOp m o).geo = s.geo := rfl
@[simp] theorem State.mbx_setReqOp (s : State) (m : BMsg) (o : Nat) : (s.setReqOp m o).mbx = s.mbx := rfl
@[simp] theorem State.bolts_setReqOp (s : State) (m : BMsg) (o : Nat) : (s.setReqOp m o).bolts = s.bolts := rfl
@[simp] theorem State.dies_setReqOp (s : State) (m : BMsg) (o : Nat) : (s.setReqOp m o).dies = s.dies := rfl
@[simp] theorem State.wr_setReqOp (s : State) (m : BMsg) (o : Nat) : (s.setReqOp m o).wr = s.wr := rfl
@[simp] theorem State.rd_setReqOp (s : State) (m : BMsg) (o : Nat) : (s.setReqOp m o).rd = s.rd := rfl
@[simp] theorem State.recl_setReqOp (s : State) (m : BMsg) (o : Nat) : (s.setReqOp m o).recl = s.recl := rfl
@[simp] theorem State.gauge_setReqOp (s : State) (m : BMsg) (o : Nat) : (s.setReqOp m o).gauge = s.gauge := rfl
@[simp] theorem State.chan_setReqOp (s : State) (m : BMsg) (o : Nat) : (s.setReqOp m o).chan = s.chan := rfl
@[simp] theorem State.host_setReqOp (s : State) (m : BMsg) (o : Nat) : (s.setReqOp m o).host = s.host := rfl
@[simp] theorem State.mem_setReqOp (s : State) (m : BMsg) (o : Nat) : (s.setReqOp m o).mem = s.mem := rfl
@[simp] theorem State.hem_setReqOp (s : State) (m : BMsg) (o : Nat) : (s.setReqOp m o).hem = s.hem := rfl
@[simp] theorem State.supply_setReqOp (s : State) (m : BMsg) (o : Nat) : (s.setReqOp m o).supply = s.supply := rfl
@[simp] theorem State.san_setReqOp (s : State) (m : BMsg) (o : Nat) : (s.setReqOp m o).san = s.san := rfl
@[simp] theorem State.pow_setReqOp (s : State) (m : BMsg) (o : Nat) : (s.setReqOp m o).pow = s.pow := rfl
@[simp] theorem State.clk_setReqOp (s : State) (m : BMsg) (o : Nat) : (s.setReqOp m o).clk = s.clk := rfl
@[simp] theorem State.therm_setReqOp (s : State) (m : BMsg) (o : Nat) : (s.setReqOp m o).therm = s.therm := rfl
@[simp] theorem State.pb_setReqOp (s : State) (m : BMsg) (o : Nat) : (s.setReqOp m o).pb = s.pb := rfl
@[simp] theorem State.yard_setReqOp (s : State) (m : BMsg) (o : Nat) : (s.setReqOp m o).yard = s.yard := rfl
@[simp] theorem State.selv_setReqOp (s : State) (m : BMsg) (o : Nat) : (s.setReqOp m o).selv = s.selv := rfl
@[simp] theorem State.dbg_setReqOp (s : State) (m : BMsg) (o : Nat) : (s.setReqOp m o).dbg = s.dbg := rfl
@[simp] theorem State.port_setReqOp (s : State) (m : BMsg) (o : Nat) : (s.setReqOp m o).port = s.port := rfl
@[simp] theorem State.aon_setReqOp (s : State) (m : BMsg) (o : Nat) : (s.setReqOp m o).aon = s.aon := rfl
@[simp] theorem State.out_setReqOp (s : State) (m : BMsg) (o : Nat) : (s.setReqOp m o).out = s.out := rfl
@[simp] theorem State.fresh_setReqOp (s : State) (m : BMsg) (o : Nat) : (s.setReqOp m o).fresh = s.fresh := rfl
@[simp] theorem State.pending_setReqOp (s : State) (m : BMsg) (o : Nat) : (s.setReqOp m o).pending = s.pending := rfl

/-! updWrite. -/

@[simp] theorem State.board_updWrite (s : State) (i : Nat) (f : Wr → Wr) : (s.updWrite i f).board = s.board := rfl
@[simp] theorem State.geo_updWrite (s : State) (i : Nat) (f : Wr → Wr) : (s.updWrite i f).geo = s.geo := rfl
@[simp] theorem State.mbx_updWrite (s : State) (i : Nat) (f : Wr → Wr) : (s.updWrite i f).mbx = s.mbx := rfl
@[simp] theorem State.bolts_updWrite (s : State) (i : Nat) (f : Wr → Wr) : (s.updWrite i f).bolts = s.bolts := rfl
@[simp] theorem State.dies_updWrite (s : State) (i : Nat) (f : Wr → Wr) : (s.updWrite i f).dies = s.dies := rfl
@[simp] theorem State.rd_updWrite (s : State) (i : Nat) (f : Wr → Wr) : (s.updWrite i f).rd = s.rd := rfl
@[simp] theorem State.recl_updWrite (s : State) (i : Nat) (f : Wr → Wr) : (s.updWrite i f).recl = s.recl := rfl
@[simp] theorem State.eng_updWrite (s : State) (i : Nat) (f : Wr → Wr) : (s.updWrite i f).eng = s.eng := rfl
@[simp] theorem State.gauge_updWrite (s : State) (i : Nat) (f : Wr → Wr) : (s.updWrite i f).gauge = s.gauge := rfl
@[simp] theorem State.chan_updWrite (s : State) (i : Nat) (f : Wr → Wr) : (s.updWrite i f).chan = s.chan := rfl
@[simp] theorem State.host_updWrite (s : State) (i : Nat) (f : Wr → Wr) : (s.updWrite i f).host = s.host := rfl
@[simp] theorem State.mem_updWrite (s : State) (i : Nat) (f : Wr → Wr) : (s.updWrite i f).mem = s.mem := rfl
@[simp] theorem State.hem_updWrite (s : State) (i : Nat) (f : Wr → Wr) : (s.updWrite i f).hem = s.hem := rfl
@[simp] theorem State.supply_updWrite (s : State) (i : Nat) (f : Wr → Wr) : (s.updWrite i f).supply = s.supply := rfl
@[simp] theorem State.san_updWrite (s : State) (i : Nat) (f : Wr → Wr) : (s.updWrite i f).san = s.san := rfl
@[simp] theorem State.pow_updWrite (s : State) (i : Nat) (f : Wr → Wr) : (s.updWrite i f).pow = s.pow := rfl
@[simp] theorem State.clk_updWrite (s : State) (i : Nat) (f : Wr → Wr) : (s.updWrite i f).clk = s.clk := rfl
@[simp] theorem State.therm_updWrite (s : State) (i : Nat) (f : Wr → Wr) : (s.updWrite i f).therm = s.therm := rfl
@[simp] theorem State.pb_updWrite (s : State) (i : Nat) (f : Wr → Wr) : (s.updWrite i f).pb = s.pb := rfl
@[simp] theorem State.yard_updWrite (s : State) (i : Nat) (f : Wr → Wr) : (s.updWrite i f).yard = s.yard := rfl
@[simp] theorem State.selv_updWrite (s : State) (i : Nat) (f : Wr → Wr) : (s.updWrite i f).selv = s.selv := rfl
@[simp] theorem State.dbg_updWrite (s : State) (i : Nat) (f : Wr → Wr) : (s.updWrite i f).dbg = s.dbg := rfl
@[simp] theorem State.port_updWrite (s : State) (i : Nat) (f : Wr → Wr) : (s.updWrite i f).port = s.port := rfl
@[simp] theorem State.aon_updWrite (s : State) (i : Nat) (f : Wr → Wr) : (s.updWrite i f).aon = s.aon := rfl
@[simp] theorem State.out_updWrite (s : State) (i : Nat) (f : Wr → Wr) : (s.updWrite i f).out = s.out := rfl
@[simp] theorem State.fresh_updWrite (s : State) (i : Nat) (f : Wr → Wr) : (s.updWrite i f).fresh = s.fresh := rfl
@[simp] theorem State.pending_updWrite (s : State) (i : Nat) (f : Wr → Wr) : (s.updWrite i f).pending = s.pending := rfl

/-! dropWrite. -/

@[simp] theorem State.board_dropWrite (s : State) (i : Nat) : (s.dropWrite i).board = s.board := rfl
@[simp] theorem State.geo_dropWrite (s : State) (i : Nat) : (s.dropWrite i).geo = s.geo := rfl
@[simp] theorem State.mbx_dropWrite (s : State) (i : Nat) : (s.dropWrite i).mbx = s.mbx := rfl
@[simp] theorem State.bolts_dropWrite (s : State) (i : Nat) : (s.dropWrite i).bolts = s.bolts := rfl
@[simp] theorem State.dies_dropWrite (s : State) (i : Nat) : (s.dropWrite i).dies = s.dies := rfl
@[simp] theorem State.rd_dropWrite (s : State) (i : Nat) : (s.dropWrite i).rd = s.rd := rfl
@[simp] theorem State.recl_dropWrite (s : State) (i : Nat) : (s.dropWrite i).recl = s.recl := rfl
@[simp] theorem State.eng_dropWrite (s : State) (i : Nat) : (s.dropWrite i).eng = s.eng := rfl
@[simp] theorem State.gauge_dropWrite (s : State) (i : Nat) : (s.dropWrite i).gauge = s.gauge := rfl
@[simp] theorem State.chan_dropWrite (s : State) (i : Nat) : (s.dropWrite i).chan = s.chan := rfl
@[simp] theorem State.host_dropWrite (s : State) (i : Nat) : (s.dropWrite i).host = s.host := rfl
@[simp] theorem State.mem_dropWrite (s : State) (i : Nat) : (s.dropWrite i).mem = s.mem := rfl
@[simp] theorem State.hem_dropWrite (s : State) (i : Nat) : (s.dropWrite i).hem = s.hem := rfl
@[simp] theorem State.supply_dropWrite (s : State) (i : Nat) : (s.dropWrite i).supply = s.supply := rfl
@[simp] theorem State.san_dropWrite (s : State) (i : Nat) : (s.dropWrite i).san = s.san := rfl
@[simp] theorem State.pow_dropWrite (s : State) (i : Nat) : (s.dropWrite i).pow = s.pow := rfl
@[simp] theorem State.clk_dropWrite (s : State) (i : Nat) : (s.dropWrite i).clk = s.clk := rfl
@[simp] theorem State.therm_dropWrite (s : State) (i : Nat) : (s.dropWrite i).therm = s.therm := rfl
@[simp] theorem State.pb_dropWrite (s : State) (i : Nat) : (s.dropWrite i).pb = s.pb := rfl
@[simp] theorem State.yard_dropWrite (s : State) (i : Nat) : (s.dropWrite i).yard = s.yard := rfl
@[simp] theorem State.selv_dropWrite (s : State) (i : Nat) : (s.dropWrite i).selv = s.selv := rfl
@[simp] theorem State.dbg_dropWrite (s : State) (i : Nat) : (s.dropWrite i).dbg = s.dbg := rfl
@[simp] theorem State.port_dropWrite (s : State) (i : Nat) : (s.dropWrite i).port = s.port := rfl
@[simp] theorem State.aon_dropWrite (s : State) (i : Nat) : (s.dropWrite i).aon = s.aon := rfl
@[simp] theorem State.out_dropWrite (s : State) (i : Nat) : (s.dropWrite i).out = s.out := rfl
@[simp] theorem State.fresh_dropWrite (s : State) (i : Nat) : (s.dropWrite i).fresh = s.fresh := rfl
@[simp] theorem State.pending_dropWrite (s : State) (i : Nat) : (s.dropWrite i).pending = s.pending := rfl

/-! push. -/

@[simp] theorem State.board_push (s : State) (o : Out) : (s.push o).board = s.board := rfl
@[simp] theorem State.geo_push (s : State) (o : Out) : (s.push o).geo = s.geo := rfl
@[simp] theorem State.mbx_push (s : State) (o : Out) : (s.push o).mbx = s.mbx := rfl
@[simp] theorem State.bolts_push (s : State) (o : Out) : (s.push o).bolts = s.bolts := rfl
@[simp] theorem State.dies_push (s : State) (o : Out) : (s.push o).dies = s.dies := rfl
@[simp] theorem State.wr_push (s : State) (o : Out) : (s.push o).wr = s.wr := rfl
@[simp] theorem State.rd_push (s : State) (o : Out) : (s.push o).rd = s.rd := rfl
@[simp] theorem State.recl_push (s : State) (o : Out) : (s.push o).recl = s.recl := rfl
@[simp] theorem State.eng_push (s : State) (o : Out) : (s.push o).eng = s.eng := rfl
@[simp] theorem State.gauge_push (s : State) (o : Out) : (s.push o).gauge = s.gauge := rfl
@[simp] theorem State.chan_push (s : State) (o : Out) : (s.push o).chan = s.chan := rfl
@[simp] theorem State.host_push (s : State) (o : Out) : (s.push o).host = s.host := rfl
@[simp] theorem State.mem_push (s : State) (o : Out) : (s.push o).mem = s.mem := rfl
@[simp] theorem State.hem_push (s : State) (o : Out) : (s.push o).hem = s.hem := rfl
@[simp] theorem State.supply_push (s : State) (o : Out) : (s.push o).supply = s.supply := rfl
@[simp] theorem State.san_push (s : State) (o : Out) : (s.push o).san = s.san := rfl
@[simp] theorem State.pow_push (s : State) (o : Out) : (s.push o).pow = s.pow := rfl
@[simp] theorem State.clk_push (s : State) (o : Out) : (s.push o).clk = s.clk := rfl
@[simp] theorem State.therm_push (s : State) (o : Out) : (s.push o).therm = s.therm := rfl
@[simp] theorem State.pb_push (s : State) (o : Out) : (s.push o).pb = s.pb := rfl
@[simp] theorem State.yard_push (s : State) (o : Out) : (s.push o).yard = s.yard := rfl
@[simp] theorem State.selv_push (s : State) (o : Out) : (s.push o).selv = s.selv := rfl
@[simp] theorem State.dbg_push (s : State) (o : Out) : (s.push o).dbg = s.dbg := rfl
@[simp] theorem State.port_push (s : State) (o : Out) : (s.push o).port = s.port := rfl
@[simp] theorem State.aon_push (s : State) (o : Out) : (s.push o).aon = s.aon := rfl
@[simp] theorem State.fresh_push (s : State) (o : Out) : (s.push o).fresh = s.fresh := rfl
@[simp] theorem State.pending_push (s : State) (o : Out) : (s.push o).pending = s.pending := rfl

/-! What an update leaves in its own part. -/

@[simp] theorem State.die_setDie_self (s : State) (d : DieId) (x : Die) : (s.setDie d x).die d = x :=
  Tab.get_set_self _ _ _ _

theorem State.die_setDie_ne (s : State) {d e : DieId} (x : Die) (h : dieKey e ≠ dieKey d) : (s.setDie d x).die e = s.die e :=
  Tab.get_set_ne _ _ _ h

@[simp] theorem State.channel_setChan_self (s : State) (c : Nat) (x : Chan) : (s.setChan c x).channel c = x :=
  Tab.get_set_self _ _ _ _

theorem State.channel_setChan_ne (s : State) {c e : Nat} (x : Chan) (h : e ≠ c) : (s.setChan c x).channel e = s.channel e :=
  Tab.get_set_ne _ _ _ h

@[simp] theorem State.twin_setTwin_self (s : State) (n : Nat) (x : Twin) : (s.setTwin n x).twin n = x := by
  unfold State.setTwin State.twin; split <;> simp_all

@[simp] theorem State.gen_bumpGen_self (s : State) (kind k : Nat) :
    (s.bumpGen kind k).gen kind k = if s.gen kind k = 4095 then 1 else s.gen kind k + 1 := Tab.get_set_self _ _ _ _

@[simp] theorem State.setMbxPort_setMbxPort (s : State) (p : Port) (x y : MbxPort) :
    (s.setMbxPort p x).setMbxPort p y = s.setMbxPort p y := by cases p <;> rfl

@[simp] theorem State.setMbxPort_self (s : State) (p : Port) : s.setMbxPort p (s.mbxPort p) = s := by cases p <;> rfl

@[simp] theorem State.portThere_setMbxPort (s : State) (p q : Port) (x : MbxPort) :
    (s.setMbxPort p x).portThere q = s.portThere q := by cases p <;> rfl

@[simp] theorem State.movePending_setMbxPort (s : State) (p : Port) (x : MbxPort) :
    (s.setMbxPort p x).mbx.movePending = s.mbx.movePending := by cases p <;> rfl

/-- A write of a byte that holds that value already leaves a memory in canonical form as it is. -/
theorem Memory.write_self {m : Memory} (h : m.wf = true) (a : Nat) : m.write a (m.read a) = m := by
  apply Memory.ext (Memory.wf_write h _ _) h
  intro b
  rw [Memory.read_write h]
  split
  · rename_i e; rw [e]
  · rfl

end Sys2Proof.Machine
end

