-- ==== Sys2Proof/Laws/Verdict.lean ====
section
/-! SUPPORT. What a mailbox command does that is turned away, and the bytes of its slot and its completion. -/

namespace Sys2Proof.Machine

/-- A field at fault is reported at the lowest offset at fault. -/
theorem lowestOffset_mem {l : List (Option Nat)} {o : Nat} (h : some o ∈ l) : ∃ p, lowestOffset l = some p := by
  induction l with
  | nil => cases h
  | cons q r ih =>
    cases q with
    | none =>
      simp at h
      simpa [lowestOffset] using ih h
    | some q =>
      simp only [lowestOffset]
      cases lowestOffset r with
      | none => exact ⟨_, rfl⟩
      | some x => exact ⟨_, rfl⟩

/-- A command with a field at fault answers BAD_FIELD and changes nothing. -/
theorem guard_bad {r : MbxReq} {s : State} {bad : List (Option Nat)} {rest : List (Bool × Nat)} {act : Unit → MbxRes} {o : Nat}
    (h : some o ∈ bad) : ∃ off, r.guard s bad rest act = { state := s, status := some stBadField, offset := off } := by
  obtain ⟨p, hp⟩ := lowestOffset_mem (l := r.common ++ bad) (List.mem_append_right _ h)
  exact ⟨p, by simp [MbxReq.guard, mbxVerdict, hp]⟩

/-- A command whose TARGET fails step 1 or 2 of R57 answers BAD_FIELD and changes nothing. -/
theorem guardH_bad {r : MbxReq} {s : State} {kind : Nat} {frozenOk : Bool} {bad : List (Option Nat)}
    {rest : Nat → Tenant → List (Bool × Nat)} {act : Nat → Nat → Tenant → MbxRes} (h : s.checkHandle kind r.target.toNat = .bad) :
    ∃ off, r.guardH s kind frozenOk bad rest act = { state := s, status := some stBadField, offset := off } := by
  unfold MbxReq.guardH
  refine guard_bad (o := 8) ?_
  simp [badIf, State.handleBad, h]

/-- A condition that holds and that none ranks before is the one answered (R60). -/
theorem firstStatus_rank (st : Nat) (rest : List (Bool × Nat)) (h : ∀ p ∈ rest, statusRank st ≤ statusRank p.2) :
    firstStatus ((true, st) :: rest) = some st := by
  have : ∀ (l : List (Bool × Nat)) o, firstStatus l = some o → ∃ b, (b, o) ∈ l := by
    intro l; induction l with
    | nil => intro o h; cases h
    | cons p r ih =>
      intro o h
      obtain ⟨c, st⟩ := p
      simp only [firstStatus] at h
      cases c <;> cases hr : firstStatus r <;> rw [hr] at h <;> simp at h
      · subst h; obtain ⟨b, hb⟩ := ih _ hr; exact ⟨b, by simp [hb]⟩
      · subst h; exact ⟨true, by simp⟩
      · obtain ⟨b, hb⟩ := ih _ hr
        split at h
        · simp at h; subst h; exact ⟨true, by simp⟩
        · simp at h; subst h; exact ⟨b, by simp [hb]⟩
  simp only [firstStatus]
  cases hr : firstStatus rest with
  | none => rfl
  | some o =>
    obtain ⟨b, hb⟩ := this rest o hr
    simp [h _ hb]

/-- A command whose fields are sound and whose TARGET is stale answers STALE_HANDLE and changes nothing. -/
theorem guardH_stale {r : MbxReq} {s : State} {kind : Nat} {frozenOk : Bool} {bad : List (Option Nat)}
    {rest : Nat → Tenant → List (Bool × Nat)} {act : Nat → Nat → Tenant → MbxRes} (hf : r.flags.toNat < 4) (ha : r.rsvA = 0#24)
    (hc : r.rsvB = 0#32) (h : s.checkHandle kind r.target.toNat = .stale) (hb : ∀ o ∈ bad, o = none)
    (hr : ∀ slot t, ∀ p ∈ rest slot t, statusRank stStale ≤ statusRank p.2) :
    r.guardH s kind frozenOk bad rest act = { state := s, status := some stStale, offset := 0xFFFF } := by
  unfold MbxReq.guardH MbxReq.guard mbxVerdict
  have h1 : lowestOffset (r.common ++ badIf (s.handleBad kind r.target.toNat) 8 :: bad) = none := by
    apply lowestOffset_none
    intro o ho
    rcases List.mem_append.mp ho with ho | ho
    · exact common_none hf ha hc o ho
    · rcases List.mem_cons.mp ho with ho | ho
      · simpa [badIf, State.handleBad, h] using ho
      · exact hb o ho
  dsimp only
  rw [h1, show s.handleStale kind r.target.toNat = true by simp [State.handleStale, h], firstStatus_rank]
  · rfl
  · intro p hp
    rcases List.mem_cons.mp hp with rfl | hp
    · show statusRank stStale ≤ statusRank stFrozen; decide
    · exact hr _ _ p hp

/-- A command whose fields are sound and whose TARGET names a frozen tenant answers FROZEN and changes nothing. -/
theorem guardH_frozen {r : MbxReq} {s : State} {kind slot k : Nat} {t : Tenant} {bad : List (Option Nat)}
    {rest : Nat → Tenant → List (Bool × Nat)} {act : Nat → Nat → Tenant → MbxRes} (hf : r.flags.toNat < 4) (ha : r.rsvA = 0#24)
    (hc : r.rsvB = 0#32) (hn : s.Names kind r slot k t) (hz : t.frozen = true) (hb : ∀ o ∈ bad, o = none)
    (hr : ∀ slot t, ∀ p ∈ rest slot t, statusRank stFrozen ≤ statusRank p.2) :
    r.guardH s kind false bad rest act = { state := s, status := some stFrozen, offset := 0xFFFF } := by
  obtain ⟨hv, ht⟩ := hn
  unfold MbxReq.guardH MbxReq.guard mbxVerdict
  have h1 : lowestOffset (r.common ++ badIf (s.handleBad kind r.target.toNat) 8 :: bad) = none := by
    apply lowestOffset_none
    intro o ho
    rcases List.mem_append.mp ho with ho | ho
    · exact common_none hf ha hc o ho
    · rcases List.mem_cons.mp ho with ho | ho
      · simpa [badIf, handleBad_valid hv] using ho
      · exact hb o ho
  dsimp only
  rw [h1, handleStale_valid hv, handleOwner_valid hv]
  simp only [Option.getD_some, tenantD_of ht, hz, Bool.not_false, Bool.and_self]
  rw [show ∀ l, firstStatus ((false, stStale) :: l) = firstStatus l from fun l => by simp only [firstStatus], firstStatus_rank _ _ (hr _ _)]
  rfl

/-- The handles that fail step 1 or 2 of R57. -/
theorem checkHandle_bad {s : State} {kind h : Nat} (p : h / 2 ^ 28 ≠ kind ∨ kindSlots kind ≤ handleSlot h ∨ h % 2 ^ 12 = 0) :
   s.checkHandle kind h = .bad := by
  unfold State.checkHandle
  by_cases h1 : h / 2 ^ 28 ≠ kind
  · rw [if_pos h1]
  · rw [if_neg h1, if_pos]
    have h1' : h / 2 ^ 28 = kind := Decidable.not_not.mp h1
    rcases p with p | p | p
    · exact absurd h1' p
    · simp [p]
    · simp at p ⊢; exact .inr p

/-- The handles that fail step 3 or 4 of R57. -/
theorem checkHandle_stale {s : State} {kind h : Nat} (h1 : h / 2 ^ 28 = kind) (h2 : handleSlot h < kindSlots kind) (h3 : h % 2 ^ 12 ≠ 0)
   (p : s.ownerOf kind (handleSlot h) = none ∨ s.gen kind (handleSlot h) ≠ h % 2 ^ 12) :
   s.checkHandle kind h = .stale := by
  unfold State.checkHandle
  rw [if_neg (by simpa using h1), if_neg (by simp; exact ⟨h2, by simpa using h3⟩)]
  cases ho : s.ownerOf kind (handleSlot h) with
  | none => rfl
  | some o =>
    dsimp only
    rw [if_neg]
    rcases p with p | p
    · rw [ho] at p; cases p
    · exact p

/-- Bytes written in one go or in two. -/
theorem Memory.writeBytes_append (m : Memory) (a : Nat) (x y : List Byte) :
    m.writeBytes a (x ++ y) = (m.writeBytes a x).writeBytes (a + x.length) y := by
  induction x generalizing m a with
  | nil => rfl
  | cons b r ih => simp only [List.cons_append, Memory.writeBytes, ih, List.length_cons]; rw [show a + 1 + r.length = a + (r.length + 1) by omega]

/-- The bytes of a number read are the bytes read. -/
theorem bytesLE_num (m : Memory) (a n : Nat) : bytesLE n (m.num a n) = m.readBytes a n := by
  unfold Memory.num
  induction n generalizing a with
  | zero => rfl
  | succ n ih =>
    simp only [Memory.readBytes, numLE, bytesLE]
    congr 1
    · apply BitVec.eq_of_toNat_eq; simp [BitVec.toNat_ofNat]; exact (m.read a).isLt
    · rw [show ((m.read a).toNat + 256 * numLE (m.readBytes (a + 1) n)) / 256 = numLE (m.readBytes (a + 1) n) by
        have := (m.read a).isLt; omega]
      exact ih _

/-- A number written back where it was read changes nothing. -/
theorem Memory.writeNum_self {m : Memory} (h : m.wf = true) (a n : Nat) : m.writeBytes a (bytesLE n (m.num a n)) = m := by
  rw [bytesLE_num]
  induction n generalizing a with
  | zero => rfl
  | succ n ih => simp only [Memory.readBytes, Memory.writeBytes]; rw [Memory.write_self h]; exact ih _

/-- A number read is below 256 to the number of its bytes. -/
theorem Memory.num_lt (m : Memory) (a n : Nat) : m.num a n < 256 ^ n := by
  unfold Memory.num
  induction n generalizing a with
  | zero => simp [Memory.readBytes, numLE]
  | succ n ih =>
    simp only [Memory.readBytes, numLE, Nat.pow_succ]
    have := ih (a + 1); have := (m.read a).isLt; omega

/-- A slot read as a command and written back changes nothing. -/
theorem slotReq_bytes {s : State} {p : Port} (h : (s.mbxPort p).slots.wf = true) (k : Nat) (env : MbxEnv) :
    (s.mbxPort p).slots.writeBytes (64 * k) (slotBytes (s.slotReq p k env).1 (s.slotReq p k env).2) = (s.mbxPort p).slots := by
  unfold slotBytes State.slotReq
  dsimp only
  generalize (s.mbxPort p).slots = m at *
  have fx : ∀ (w n a : Nat), 2 ^ w = 256 ^ n → bytesLE n (BitVec.ofNat w (m.num a n)).toNat = bytesLE n (m.num a n) := by
    intro w n a e
    rw [BitVec.toNat_ofNat, e, Nat.mod_eq_of_lt (Memory.num_lt m a n)]
  rw [fx 16 2 _ (by decide), fx 16 2 _ (by decide), fx 8 1 _ (by decide), fx 24 3 _ (by decide), fx 32 4 _ (by decide), fx 32 4 _ (by decide),
    fx 384 48 _ (by rw [show (256 : Nat) = 2 ^ 8 from rfl, ← Nat.pow_mul])]
  simp only [Memory.writeBytes_append, List.length_append, bytesLE_length]
  rw [Nat.add_zero, Memory.writeNum_self h, Memory.writeNum_self h, Memory.writeNum_self h, Memory.writeNum_self h, Memory.writeNum_self h, Memory.writeNum_self h, Memory.writeNum_self h]

theorem mbxPort_of_mbx {s t : State} (h : s.mbx = t.mbx) (p : Port) : s.mbxPort p = t.mbxPort p := by cases p <;> simp [State.mbxPort, h]

theorem selvedge_mbx (s : State) (v : Viol) : (s.selvedge v).mbx = s.mbx := by unfold State.selvedge; split <;> rfl

theorem mbxIrq_mbx (s : State) (p : Port) (b : Bool) : (s.mbxIrq p b).mbx = s.mbx := by
  unfold State.mbxIrq
  dsimp only
  split
  · rfl
  · split
    · exact State.mbx_of_kept (State.kept_dueMsix s _ _)
    · exact selvedge_mbx _ _

/-- What storing one completion leaves in the registers of its port (R54, R55). -/
theorem mbxStore_port (s : State) (p : Port) (e : MbxCqe) (x : MbxPort) (hx : s.mbxPort p = x) :
    (s.mbxStore p e).mbxPort p = { x.setBusy e.slot false with
      ring := Tab.set x.ring x.tail.toNat { e with phase := x.phase, replayed := decide (e.pair ≠ s.eng.setM) }
      tail := x.tail + 1#6
      phase := if x.tail = 63#6 then !x.phase else x.phase
      posted := x.posted + 1 } := by
  subst hx
  have h : ∀ (v : MbxPort) (q : Nat) (o : Out) (n : Bool),
      (((s.setMbxPort p v).markPosted q).emit o |>.mbxIrq p n).mbxPort p = v := by
    intro v q o n
    have h1 : (((s.setMbxPort p v).markPosted q).emit o |>.mbxIrq p n).mbx = ((s.setMbxPort p v).markPosted q).mbx := by
      rw [mbxIrq_mbx]; exact State.mbx_of_kept (State.kept_emit _ _)
    rw [mbxPort_of_mbx h1]
    exact (show _ = (s.setMbxPort p v).mbxPort p by cases p <;> rfl).trans (State.mbxPort_setMbxPort s p v)
  cases p <;> exact h _ e.seq _ e.noIrq

/-- A slot whose busy bit is cleared is not busy. -/
theorem slotBusy_clear (x : MbxPort) (k : Nat) (h : k < 64) : (x.setBusy k false).slotBusy k = false := by
  show (x.busy &&& ~~~(BitVec.ofNat 64 (2 ^ k))).getLsbD k = false
  rw [BitVec.getLsbD_and, BitVec.getLsbD_not, BitVec.getLsbD_ofNat, Nat.testBit_two_pow_self]
  simp only [h, decide_true, Bool.true_and, Bool.not_true, Bool.and_false]

end Sys2Proof.Machine
end

