-- ==== Sys2Proof/Machine/Electrical.lean ====
section
/-! DEFINITION. The levels of the output pins as State gives them (R547), and the physical figures of the part: rated loads and
times (R8, R162, R163, R336), rails (R544, R545, R548, R549, R551), monitors (R552), hold-up scales (R557) and thermal resistances
(R559). No row reads the figures. -/

namespace Sys2Proof.Machine

/-! Pins (R547). -/

/-- What an output pin does. -/
inductive PinLevel where
  | low | high | highZ
  deriving DecidableEq, Repr

/-- An open-drain output: low where it is asserted, and high-impedance in reset. -/
def State.openDrain (s : State) (asserted : Bool) : PinLevel := if asserted && !s.aon.coreReset then .low else .highZ

/-- A driven output, low in reset. -/
def State.driven (s : State) (v : Bool) : PinLevel := if v && !s.aon.coreReset then .high else .low

/-- SMB_ALERT_N. -/
def State.smbAlertPin (s : State) : PinLevel := s.openDrain s.smbAlert

/-- THERMTRIP_N: the latch is always-on and outlasts a reset (R486). -/
def State.thermTripPin (s : State) : PinLevel := if s.thermTrip then .low else .highZ

/-- LED_ACT_N. -/
def State.ledActPin (s : State) : PinLevel := s.openDrain (s.aon.ledActive || s.aon.ledHold)

/-- LED_FAULT_N. -/
def State.ledFaultPin (s : State) : PinLevel := s.openDrain s.ledFault

/-- A port's CLKREQ_N: low unless the link is in L1.2; port B's stays high-impedance on a joined link (R540). -/
def State.clkreqPin (s : State) (p : Port) : PinLevel :=
  s.openDrain (!(s.portSt p).l12 && !(s.host.joined && decide (p = .b)))

/-- Bits 0 and 1 of VCORE_VID; its pull-downs select 0.85 V (R466, R550). -/
def State.vidPins (s : State) : PinLevel × PinLevel := (s.driven (s.pow.vid.testBit 0), s.driven (s.pow.vid.testBit 1))

/-- HOLD_EN. -/
def State.holdEnPin (s : State) : PinLevel := s.driven s.supply.holdEn

/-- HOLD_TEST. -/
def State.holdTestPin (s : State) : PinLevel := s.driven s.supply.holdTest

/-- The DRAM's RESET_N: released once the DRAM is in use. -/
def State.dramResetPin (s : State) : PinLevel := s.driven (s.mem.up && !s.therm.latch)

/-- Whether the pins of a flash channel hold their reset levels: in reset, and while its domain is stopped. -/
def State.flashHeld (s : State) (ch : Nat) : Bool := s.aon.coreReset || !s.inRun (4 + ch / 4)

/-- The reset levels of a flash channel's outputs: CE_N, WE_N and RE_T high; RE_C, CLE, ALE and WP_N low; DQ and DQS high-impedance. -/
def flashReset : List (String × PinLevel) :=
  [("CE_N", .high), ("WE_N", .high), ("RE_T", .high), ("RE_C", .low), ("CLE", .low), ("ALE", .low), ("WP_N", .low), ("DQ", .highZ),
    ("DQS", .highZ)]

/-- A flash channel's WP_N: high once discovery has passed. -/
def State.wpPin (s : State) (ch : Nat) : PinLevel := if s.flashHeld ch || !s.geo.media then .low else .high

/-- Whether a sideband pair stays high-impedance: the one that MI_SEL does not select (R546). -/
def State.sidebandOff (s : State) (i3c : Bool) : Bool := s.aon.coreReset || decide (s.aon.straps.miSel ≠ i3c)

/-- The 7-bit SMBus address, and the static I3C address. -/
def mctpAddress : Nat := 0x1D

/-- The level of VIN_SNS in mV at an input in mV: a 1 : 11 divider (R557). -/
def vinSenseMv (vinMv : Nat) : Nat := vinMv / 11

/-- The level of HOLD_VSNS in mV at a bank voltage in mV: a 1 : 25 divider (R557). -/
def holdSenseMv (bankMv : Nat) : Nat := bankMv / 25

/-! Rated loads and times (R8, R162, R163, R336). -/

/-- The rated mixed load in commands/s, of which `w` in a thousand are Zone Appends (R162). -/
def State.ratedMixed (s : State) (w : Nat) : Nat :=
  2 * s.groups * s.dp.u * 1000000 * 15 * 1000 / (s.dp.tProg * 16 * w)

/-- The latencies in µs that a read meets at p99, p99.99 and p99.9999 under the conditions of R163. -/
def readPercentiles : List Nat := [110, 240, 600]

/-- Sequential read and write in GB/s, and random reads in thousands/s, of the rated configuration (R8). -/
def Part.rates (p : Part) : Nat × (Nat × Nat) := if p.channels = 32 then (56, (38, 13500)) else (28, (19, 6750))

/-- Cipher throughput in GB/s (R8). -/
def Part.cipherRate (p : Part) : Nat := if p.cipher then 128 else 0

/-- The bound of a crypto erase in ns: the drain, the key RAM, the rotation, and the map writes of the bound zones (R336). -/
def cryptoEraseNs (boundZones : Nat) : Nat := 20000000 + 12288 + 250000000 + 60 * ((boundZones + 3) / 4)

/-! Rails (R544, R545, R548, R549, R551). -/

/-- The rails. -/
inductive Rail where
  | vcore | vsram | vaon | vioFl | vddqDm | vphyDm | vpcieL | vpcieH | v1p8 | vhem
  deriving DecidableEq, Repr

/-- Balls, maximum and typical current in mA, and minimum regulator rating in mA of a rail on a TMY-9632E (R544). -/
def Rail.figures : Rail → Nat × (Nat × (Nat × Nat))
  | .vcore => (104, (26000, (16800, 30000)))
  | .vsram => (38, (3100, (1800, 3500)))
  | .vaon => (3, (205, (120, 300)))
  | .vioFl => (160, (2400, (1500, 3000)))
  | .vddqDm => (100, (2000, (1380, 2500)))
  | .vphyDm => (50, (3000, (2300, 3500)))
  | .vpcieL => (14, (4000, (3200, 4500)))
  | .vpcieH => (12, (1000, (800, 1200)))
  | .v1p8 => (3, (150, (100, 250)))
  | .vhem => (3, (120, (50, 200)))

/-- Maximum and typical currents in mA of VCORE, VSRAM and VIO_FL, and maximum and typical power in PS0 in mW (R545). -/
def Part.currents : Part → List (Nat × Nat)
  | .tmy9632e => [(26000, 16800), (3100, 1800), (2400, 1500), (36000, 24000)]
  | .tmy9632n => [(24000, 15400), (3100, 1800), (2400, 1500), (34300, 22810)]
  | .tmy9616e => [(20000, 13000), (2200, 1300), (1200, 750), (28740, 19470)]
  | .tmy9616n => [(18000, 11600), (2200, 1300), (1200, 750), (27040, 18280)]

/-- The level of VCORE in mV that a code selects (R466). -/
def vcoreMv (vid : Nat) : Nat := [850, 750, 680, 600].getD vid 600

/-- The least and the greatest operating voltage of a rail in µV, at a VCORE code and an FLIO_SEL (R549). -/
def Rail.range (r : Rail) (vid : Nat) (flio : Bool) : Nat × Nat :=
  match r with
  | .vcore => (vcoreMv vid * 970, vcoreMv vid * 1030)
  | .vsram => (768000, 832000)
  | .vaon => (712500, 787500)
  | .vioFl => if flio then (570000, 630000) else (1140000, 1260000)
  | .vddqDm => (470000, 570000)
  | .vphyDm => (864000, 936000)
  | .vpcieL => (727500, 772500)
  | .vpcieH => (1140000, 1260000)
  | .v1p8 => (1710000, 1890000)
  | .vhem => (1710000, 1890000)

/-- The absolute maximum of a rail in mV; the minimum of each is -300 mV (R548). -/
def Rail.maxMv : Rail → Nat
  | .vcore => 950
  | .vsram => 950
  | .vaon => 900
  | .vpcieL => 900
  | .vphyDm => 1050
  | .vddqDm => 700
  | .vioFl => 1400
  | .vpcieH => 1400
  | .v1p8 => 2100
  | .vhem => 2100

/-- The step of the power-up order in which a rail rises (R551). -/
def Rail.order : Rail → Nat
  | .vaon => 1
  | .v1p8 => 1
  | .vhem => 1
  | .vsram => 2
  | .vcore => 3
  | .vphyDm => 4
  | .vpcieL => 4
  | .vddqDm => 5
  | .vpcieH => 5
  | .vioFl => 5

/-- Good and reset levels in mV of the two rails that the always-on domain monitors; others have none (R552). -/
def Rail.monitor : Rail → Option (Nat × Nat)
  | .vaon => some (700, 650)
  | .v1p8 => some (1700, 1550)
  | _ => none

/-! Thermal resistances (R559). -/

/-- θJC, θJB and ΨJT in thousandths of °C/W. -/
def thermalResistance : List Nat := [80, 2000, 60]

/-- The rise in thousandths of °C over the lid of the junction at a power in W. -/
def lidRise (w : Nat) : Nat := 80 * w

end Sys2Proof.Machine
end

