-- ==== Sys2Proof/Machine/Package.lean ====
section
/-! DEFINITION. The ball array of the package: which signal or rail each ball carries (R536-R543). Nothing the machine does
depends on it. -/

namespace Sys2Proof.Machine

/-! Rows, templates (R536). -/

/-- The letters of the rows, in order. -/
def rowLetters : List String :=
  ["A", "B", "C", "D", "E", "F", "G", "H", "J", "K", "L", "M", "N", "P", "T", "U", "V", "W", "Y"] ++
    ["AA", "AB", "AC", "AD", "AE", "AF", "AG", "AH", "AJ", "AK", "AL", "AM", "AN", "AP", "AT", "AU", "AV", "AW", "AY"] ++
    ["BA", "BB", "BC", "BD", "BE", "BF", "BG", "BH", "BJ"]

/-- The name of the ball at a row number and a column. -/
def ballName (row col : Nat) : String := rowLetters.getD (row - 1) "" ++ toString col

/-- A bus signal with its index. -/
def bit (name : String) (i : Nat) : String := name ++ "[" ++ toString i ++ "]"

/-- The rails: a template's prefix is put before every other name. -/
def ballRails : List String :=
  ["VSS", "VCORE", "VSRAM", "VAON", "VIO_FL", "VDDQ_DM", "VPHY_DM", "VPCIE_L", "VPCIE_H", "V1P8", "VHEM"]

/-- The name in a template cell. -/
def cellOf (pre : String) (rows : List (List String)) (dr dc : Nat) : String :=
  let x := (rows.getD dr []).getD dc ""
  if ballRails.contains x then x else pre ++ x

/-! Blocks (R538, R540, R543). -/

/-- A flash channel block. -/
def flashBlock : List (List String) :=
  [[bit "DQ" 0, bit "DQ" 1, "VSS", bit "DQ" 2],
    [bit "DQ" 3, "VIO_FL", "DQS_T", "DQS_C"],
    [bit "DQ" 4, bit "DQ" 5, "VSS", bit "DQ" 6],
    [bit "DQ" 7, "VIO_FL", "RE_T", "RE_C"],
    ["VSS", "WE_N", "CLE", "ALE"],
    [bit "CE_N" 0, bit "CE_N" 1, "VIO_FL", bit "CE_N" 2],
    [bit "CE_N" 3, "RB_N", "VSS", "WP_N"],
    ["VSS", "VIO_FL", "VSS", "VIO_FL"]]

/-- A row of a host port's block that holds two lanes of one direction. -/
def laneRow (p n : String) (i : Nat) : List String := ["VSS", bit p i, bit n i, "VSS", bit p (i + 1), bit n (i + 1), "VSS"]

/-- A row of a host port's block that holds a rail. -/
def railRow (r : String) : List String := [r, "VSS", "VSS", r, "VSS", "VSS", r]

/-- A host port's block. -/
def hostBlock : List (List String) :=
  [laneRow "TXP" "TXN" 0, railRow "VPCIE_L", laneRow "TXP" "TXN" 2, railRow "VPCIE_H", laneRow "RXP" "RXN" 0, railRow "VPCIE_L",
    laneRow "RXP" "RXN" 2, ["REFCLK_P", "REFCLK_N", "VSS", "PERST_N", "CLKREQ_N", "VPCIE_H", "VPCIE_H"]]

/-- The three rows of byte lane `b` of a DRAM channel block. -/
def laneRows (b : Nat) : List (List String) :=
  let dq (i : Nat) : String := bit "DQ" (8 * b + i)
  [[dq 0, "VSS", dq 1, "VSS", dq 2, "VSS", dq 3, "VSS", bit "DMI" b, "VSS", bit "RDQS_T" b],
    ["VDDQ_DM", "VSS", "VDDQ_DM", "VSS", "VDDQ_DM", "VSS", "VDDQ_DM", "VSS", "VDDQ_DM", "VSS", bit "RDQS_C" b],
    [dq 4, "VSS", dq 5, "VSS", dq 6, "VSS", dq 7, "VSS", "VPHY_DM", "VSS", "VPHY_DM"]]

/-- A DRAM channel block. -/
def dramBlock : List (List String) :=
  (List.range 4).flatMap laneRows ++
    [[bit "CA" 0, "VSS", bit "CA" 1, "VSS", bit "CA" 2, "VSS", bit "CA" 3, "VSS", "CK_T", "VSS", "CK_C"],
      [bit "CA" 4, "VSS", bit "CA" 5, "VSS", bit "CA" 6, "VSS", bit "CS" 0, "VSS", bit "CS" 1, "VSS", "RESET_N"],
      [bit "WCK_T" 0, bit "WCK_C" 0, "VSS", bit "WCK_T" 1, bit "WCK_C" 1, "VSS", "ZQ", "VSS", "VPHY_DM", "VDDQ_DM", "VSS"]]

/-! Regions (R537, R539, R541, R542). -/

/-- Row number and column of the origin of a flash channel's block (R539). -/
def flashOrigin (ch : Nat) : Nat × Nat := (1 + 8 * (ch % 16 / 4), 1 + 4 * (ch % 4) + (if ch < 16 then 0 else 31))

/-- The flash channel whose block holds a ball of rows A to AN. -/
def flashChannelAt (row col : Nat) : Nat :=
  4 * ((row - 1) / 8) + (if col < 17 then (col - 1) / 4 else 16 + (col - 32) / 4)

/-- Rows AJ to AN of the core region (R542). -/
def coreRows : List (List String) :=
  [(List.range 15).map (bit "TD_P"),
    (List.range 15).map (bit "TD_N"),
    [bit "TD_P" 15, bit "TD_N" 15, "XTAL_IN", "XTAL_OUT", "VIN_SNS", "HOLD_VSNS", "HOLD_ISNS_P", "HOLD_ISNS_N", "CHG_CTL", "HOLD_EN",
      "HOLD_TEST", bit "VCORE_VID" 0, bit "VCORE_VID" 1, "VCORE_SNS_P", "VCORE_SNS_N"],
    ["SMB_SCL", "SMB_SDA", "SMB_ALERT_N", "I3C_SCL", "I3C_SDA", "THERMTRIP_N", "DBG_TX_TRIG", "LED_ACT_N", "LED_FAULT_N", bit "GPIO" 0,
      bit "GPIO" 1, bit "GPIO" 2, bit "GPIO" 3, "TEST_EN", "VHEM"],
    [bit "MGR_SEL" 0, bit "MGR_SEL" 1, bit "MEMMAP_SEL" 0, bit "MEMMAP_SEL" 1, "PORT_JOIN", "FLIO_SEL", "MI_SEL", "V1P8", "V1P8", "V1P8",
      "VAON", "VAON", "VAON", "VHEM", "VHEM"]]

/-- The power array of the core region (R541). -/
def powerBall (row col : Nat) : String :=
  if (row + col) % 2 = 0 then "VSS"
  else if col = 17 ∨ col = 18 ∨ col = 30 ∨ col = 31 then "VSRAM"
  else "VCORE"

/-- The host region: port A's block, column 24, port B's block (R540). -/
def hostBall (row col : Nat) : String :=
  if col < 24 then cellOf "PA_" hostBlock (row - 1) (col - 17)
  else if col = 24 then
    (if row % 2 = 1 then "VSS" else if row ≤ 4 then "VPCIE_L" else "VPCIE_H")
  else cellOf "PB_" hostBlock (row - 1) (col - 25)

/-- The DRAM region: the blocks of DM0 to DM3, with columns 23 to 25 between them (R543). -/
def dramBall (row col : Nat) : String :=
  let dr := row - 33
  if col < 12 then cellOf "DM0_" dramBlock dr (col - 1)
  else if col < 23 then cellOf "DM1_" dramBlock dr (col - 12)
  else if col = 24 then "VSS"
  else if col < 26 then (if dr % 2 = 0 then "VDDQ_DM" else "VPHY_DM")
  else if col < 37 then cellOf "DM2_" dramBlock dr (col - 26)
  else cellOf "DM3_" dramBlock dr (col - 37)

/-- What the ball at a row number and a column carries, both from 1 to 47 (R537). -/
def ballAt (row col : Nat) : String :=
  if 33 ≤ row then dramBall row col
  else if col < 17 ∨ 32 ≤ col then
    let ch := flashChannelAt row col
    let o := flashOrigin ch
    cellOf ("FC" ++ toString ch ++ "_") flashBlock (row - o.1) (col - o.2)
  else if row < 9 then hostBall row col
  else if row < 28 then powerBall row col
  else (coreRows.getD (row - 28) []).getD (col - 17) ""

/-- Balls that carry a name (R544). -/
def ballsOf (name : String) : Nat :=
  (List.range 47).foldl (fun n r => n + ((List.range 47).filter (fun c => ballAt (r + 1) (c + 1) = name)).length) 0

end Sys2Proof.Machine
end

