-- ==== Sys2Proof/Tests/Slice0.lean ====
section
/-! SUPPORT. Tests of the model: the ill-formed terms that the well-formedness checks refuse,
  examples that the spec works out,
and for every statement with premises a state and operands that meet them. -/

namespace Sys2Proof.Tests

open Sys2Proof.Machine

set_option Elab.async false

/-! States of the tests. -/

/-- The function of the tenant that the tests act on. -/
def f1 : FnId := ⟨.a, 1⟩

/-- A tenant in slot 2, on that function, with a pair, a vector block and a placement handle. -/
def tenant2 : Tenant := { State.reset.newTenant f1 64 16 32 1 0 with
  quota := 8
  groups := [0]
  qpairs := [⟨9, 1, true, false⟩]
  blocks := [⟨0x50000001, 0, 32, 255, false, 0⟩, ⟨0x50001001, 64, 8, 255, false, 0⟩]
  placements := [⟨0, [], 0⟩, ⟨5, [0], 0⟩] }

/-- A function with a submission and a completion queue, enabled. -/
def fn1 : Fn := { (default : Fn) with
  cc := 1#32
  bme := true
  msixEn := true
  sqs := [{ (default : Sq) with qid := 1, size := 64, cqid := 1, st := .active }]
  cqs := [{ (default : Cq) with qid := 1, size := 64 }] }

/-- The device, up: its mailbox ready, one tenant. -/
def up : State := { State.reset with
  aon.us := 5000000
  aon.booted := true
  aon.coreReset := false
  geo.recorded := true
  geo.dieType := 3
  geo.n := 32
  geo.media := true
  mem.up := true
  hem.running := 1
  clk.src := .crystal
  host.numVfsA := 8
  port.a.perst := false
  port.a.deassertUs := some 0
  port.a.linkUp := true
  port.a.refclk := true
  mbx.portA.ready := true
  recl.logHigh := 0
  host.fns := [(0, { (default : Fn) with bme := true }), (1, fn1)]
  host.tenants := [(2, tenant2)] }

/-- Parameter bytes, each value by the slot offset of its first byte. -/
def par : List (Nat × Nat) → Nat
  | [] => 0
  | p :: r => p.2 * 2 ^ (8 * (p.1 - 16)) + par r

/-- A mailbox command in slot 3 of port A. -/
def req (target : Nat) (ps : List (Nat × Nat)) : MbxReq :=
  ⟨.a, 3, 7#16, 0#8, 0#24, BitVec.ofNat 32 target, 0#32, BitVec.ofNat 384 (par ps), ⟨true, true, [], none, true, 0⟩⟩

/-- `up` with another record for its tenant. -/
def upWith (t : Tenant) : State := { up with host.tenants := [(2, t)] }

/-- A command of the tenant's, from its queue 1. -/
def cmd1 : NvmeCmd := ⟨f1, 1, 4, 1#32, 0#2, 0#2, false, .prp 0 true⟩

/-- `up` with the tenant's completion queue full. -/
def upFull : State := { up with
  host.fns := [(1, { fn1 with cqs := [{ (default : Cq) with qid := 1, size := 2, tail := 1 }] })] }

/-- A Fray rule of a mode, with its count, its limit and how often it has fired. -/
def rule (mode n limit fired : Nat) : FrayRule :=
  { (default : FrayRule) with raw := BitVec.ofNat 256 (mode * 2 ^ 24 + n * 2 ^ 32 + limit * 2 ^ 64), fired := fired }

/-- The sector of the example of R316. -/
def sealed1 : Sealed := { (default : Sealed) with tenant := 2, nsid := 1, lba := 2597169, keySlot := 5, keyGen := 2, gen := 3 }

/-- A number made of values, each by its byte offset. -/
def places : List (Nat × Nat) → Nat
  | [] => 0
  | p :: r => p.2 * 2 ^ (8 * p.1) + places r

/-- A mailbox command with an input buffer, and a key that its blob unwraps to. -/
def reqIn (target : Nat) (ps : List (Nat × Nat)) (buf : List Byte) : MbxReq :=
  { req target ps with env := ⟨true, true, buf, some (up.kek buf, 5#256), true, 0⟩ }

/-- The clear fields of a wrapped-key blob for key slot `index` of the tenant (R328). -/
def blobFor (index : Nat) : List Byte :=
  bytesLE 16 (places [(0, 0x424B5754), (4, 1), (6, 160), (8, 0x10002001), (12, index), (13, 1)]) ++ (4#8 :: (bytesBE 48
    0xaa87ca22be8b05378eb1c71ef320ad746e1d3b628ba79b9859f741e082542a385502f25dbf55296c3a545e3872760ab7 ++ bytesBE 48
    0x3617de4a96262c6f5d9e98bf9292dc29f8f41dbd289a147ce9da3113b5f0b8c00a60b1ce1d7e819d7a431d7c90ea0e5f) ++ bytesLE 47 0)

/-- The header of a sound image of 1,024 bytes (R389). -/
def header1 : List Byte :=
  bytesLE 512 (places [(4, 1), (6, 512), (8, 1024), (20, 1), (32, 512), (36, 64), (40, 640), (44, 64)])

/-- A Fray rule that stalls a bobbin on every second event (R530). -/
def rule1 : List Byte := bytesLE 32 (places [(0, 2), (2, 1), (3, 1), (4, 2)])

/-- The tenant with its key slots in these states. -/
def keyed (a b : KeySt) : Tenant :=
  { tenant2 with keys := [⟨a, some 1#256, some (1#256, 0), false, 0⟩, ⟨b, some 2#256, some (2#256, 0), false, 0⟩] }

/-- The tenant frozen, with the sequence of its snapshot. -/
def frozen2 : Tenant := { tenant2 with frozen := true, freezeSeq := 3 }

/-- A snapshot of that freeze. -/
def snap1 : Snap := { (default : Snap) with slot := 0, tenant := 2, handle := 0x10002001, seq := 3, fnId := f1, held := true }

/-- The device with the tenant frozen and its snapshot held. -/
def upSnap : State := { up with
  host.tenants := [(2, frozen2)]
  host.snaps := [snap1]
  host.fns := [(0, { (default : Fn) with bme := true }), (1, fn1), (7, { (default : Fn) with bme := true, msixEn := true })] }

/-- A mailbox command that has been accepted. -/
def accepted1 : MbxCmd := ⟨0x0103#16, req 0x10002001 [], 1, false, false, true, 0, true, false, 0⟩

/-- The device with another state of the twin that is not running. -/
def upTwin (st : Nat) : State := { up with hem.twinB := { up.hem.twinA with st := st } }

/-- The device with this entry granted next. -/
def grant (u : State) (e : Sqe) : State := { u with host.granted := (e.cmd.fn, (e, e.cmd.sqid)) :: u.host.granted }

/-- The same command from the admin queue. -/
def cmdA : NvmeCmd := { cmd1 with sqid := 0 }

/-- A command of the manager's function, from its admin queue. -/
def cmdM : NvmeCmd := ⟨⟨.a, 0⟩, 0, 4, 0#32, 0#2, 0#2, false, .prp 0 true⟩

/-- A submission entry. -/
def ent (c : NvmeCmd) (op : Nat) (dw10 dw11 dw12 dw13 : Nat) : Sqe :=
  ⟨c, BitVec.ofNat 8 op, BitVec.ofNat 32 dw10, BitVec.ofNat 32 dw11, BitVec.ofNat 32 dw12, BitVec.ofNat 32 dw13, 0#32, 0#32⟩

/-- The device with one command of the tenant's under way. -/
def upOut : State := { up with host.fns := [(1, { fn1 with granted := [{ (default : Outst) with sqid := 1, cid := 4 }] })] }

/-- A command waiting in a prefetch slot. -/
def fetched1 : Fetched := { (default : Fetched) with sqe := ent cmd1 2 0 0 0 0 }

/-- The device with that command in its queue's prefetch slots. -/
def upPre : State := { up with
  host.fns := [(1,
    { fn1 with sqs := [{ (default : Sq) with qid := 1, size := 64, cqid := 1, st := .active, pre := [fetched1] }] })] }

/-- An admin command on every namespace. -/
def cmdF : NvmeCmd := { cmdA with nsid := 0xFFFFFFFF#32 }

/-- The device with no submission queue, and with no queue at all. -/
def up0 : State := { up with host.fns := [(1, { fn1 with sqs := [] })] }
def up2 : State := { up with host.fns := [(1, { fn1 with sqs := [], cqs := [] })] }

/-- The device with an event held for the tenant's function. -/
def upHeld : State := { up with host.fns := [(1, { fn1 with held := [(2, 0, 4)] })] }

/-- An admin command of the tenant's on no namespace. -/
def cmd0 : NvmeCmd := { cmdA with nsid := 0#32 }

/-- The device with one fetch of four entries under way. -/
def upFetch : State := { up with
  host.fns := [(1,
    { fn1 with sqs := [{ (default : Sq) with qid := 1, size := 64, cqid := 1, st := .active, tags := 1, fetching := 2 }] })] }

/-- The device with an unsignalled completion on entry 3 of the tenant's vectors. -/
def upMsix (gap : Bool) : State := { up with
  host.fns := [(1, { fn1 with msix := [(3, { (default : MsixEntry) with unsig := 1, gap := gap })] })] }

/-- A write of the tenant's in its data stage. -/
def wr1 : Wr := { (default : Wr) with
  id := 1, fn := f1, sqid := 1, cid := 4, tenant := 2, nsid := 1, len := 1, stage := .data }

/-- The same with weighted arbitration and the queue in class High. -/
def upPre8 : State := { upPre with
  host.fns := [(1, { fn1 with
    cc := 0x801#32
    sqs := [{ (default : Sq) with qid := 1, size := 64, cqid := 1, st := .active, prio := 1, pre := [fetched1] }] })] }

/-- The device after early warning, its flush under way. -/
def upFlush : State := { up with supply.ewLatched := true, supply.flushing := true, supply.onInput := false }

/-- The device with a capacitance test waiting since the start, and with one running. -/
def upTestWait : State := { up with supply.testWait := some 0 }
def upTest : State := { up with supply.testRun := some 0 }

/-- The device in a step of a power state change. -/
def upStep (st : PowStep) : State := { up with pow.step := st, pow.target := some 3 }

/-- The device with its comparator armed. -/
def upT : State := { up with supply.armed := true }

/-- The device with port A's link lost since the start and failover allowed. -/
def upFail : State := { up with
  mbx.failover := true
  mbx.downSince := some 0
  port.a.linkUp := false
  port.b.linkUp := true }

/-- The device with its four DRAM channels running. -/
def upMem : State := { up with mem.chOk := 15#4 }

/-- A Shuttle descriptor that copies 128 bytes from the boot ROM's neighbour, scratch memory, to itself. -/
def cpy : BitVec 256 := BitVec.ofNat 256 (places [(8, 4096), (16, 128), (20, 0x44)])

/-- The device with a Shuttle channel in the middle of a descriptor. -/
def upSht (d : BitVec 256) (failed : Bool) : State := { upMem with
  mem.shuttle := [(3, { ShtCh.fresh with enable := true, running := true, desc := d, failed := failed })] }

/-- A program and erases of the Hem store. -/
def prg : HemOp := HemOp.of false (.close 5)
def ers : HemOp := HemOp.of true .rewrite
def gapErs : HemOp := HemOp.of true .gap

/-- The device with a Hem bank at work. -/
def upHem (op prog : Option HemOp) : State := { up with hem.banks := [(1, ⟨op, prog, []⟩)] }

/-- A requester of a flash channel. -/
def bus0 : BusReq := ⟨1, .high, 72, .dataOut, 9⟩

/-- A channel with nothing raised, and the device with channel 2 so. -/
def chan0 : Chan := Chan.idle 48
def upChan (x : Chan) : State := { up with chan.table := [(2, x)] }

/-- The device after an SPDM negotiation. -/
def upSpdm : State := { up with aon.spdmVersion := true, aon.spdmAlg := true }

/-- A message to bobbin 9, the owner of role 9 at epoch 1, about the role's first die. -/
def msg : BobbinMsg := ⟨9#8, 200#8, 9#7, 1#16, 6#16, 0#128⟩

/-- A request of bobbin 9's, outstanding. -/
def req9 : Req := ⟨9, 6, 1, 9, 9, 1, 0#128, false, false, 0, 0, false⟩

/-- A die with nothing to do, and the device with die 8 of channel 2 so. -/
def die0 : Die := default
def upDie (x : Die) : State := { up with dies.table := [(72, x)] }

/-- A read, an erase and a program of that die. -/
def read0 : DieRead := { (default : DieRead) with id := 6 }
def erase0 : EraseRun := { (default : EraseRun) with src := 256 }
def prog0 : ProgOp := { (default : ProgOp) with kind := .reloc }

/-- The device with that die holding a token and no program under way. -/
def upHold : State := upDie { die0 with token := true }

/-- The device with a program waiting at that die for a token. -/
def upToken : State := upDie { die0 with progs := [prog0] }

/-- The device with a read queued there by a message of endpoint 200. -/
def upCancel : State := { upDie { die0 with reads := [{ read0 with src := 200 }] } with
  eng.reqs := [{ req9 with src := 200, opId := 0, op := 6 }] }

/-- The device with role 9 at its second owner, a spare bobbin, which has not yet adopted it. -/
def upAdopt : State := { up with eng.roles := [(9, ⟨up.firstSpare, 2, .adopting, 1⟩)] }
def msgAdopt : BobbinMsg := ⟨BitVec.ofNat 8 up.firstSpare, 255#8, 9#7, 2#16, 0#16, 0#128⟩

/-- The device with a reclamation item on bolt 6. -/
def upItem (k : ItemKind) : State := { up with recl.items := [{ (default : Item) with id := 1, bolt := 6, kind := k }] }

/-- The device with a write of the tenant's in its data stage. -/
def upWr : State := { up with wr.writes := [wr1] }

/-- The same with the write ready to commit, its cap this many KiB. -/
def upReady (kib : Nat) : State := { up with
  wr.writes := [{ wr1 with prot := [0], readySeq := 1 }]
  supply.armed := true
  supply.capEffKib := kib }

/-- The device with a merge of the tenant's region 0 waiting. -/
def upMerge : State := { upItem (.merge 2 0 0) with
  host.tenants := [(2, { tenant2 with regions := [⟨0, 6⟩] })] }

/-- The device with an image in the download buffer. -/
def upDown : State := { upTwin 3 with hem.downloadHdr := up.hem.twinA, hem.download := [(0, 4096)] }

/-- The device with a bound bolt that holds one sector. -/
def upPatrol : State := { up with
  bolts.table := [(6, { (default : Bolt) with st := .bound })]
  dies.nand := [(nandKey 6 0, default)] }

/-- A Shuttle descriptor to a function that may not master the bus. -/
def bad : BitVec 256 := BitVec.ofNat 256 (places [(8, 4096), (16, 128), (20, 0x24), (22, 9)])

theorem unwraps_reqIn {s : State} {target : Nat} {ps : List (Nat × Nat)} {buf b : List Byte} (h : s.kek buf = up.kek buf)
    (hb : b = buf) (he : ephemeralOk buf = true) : s.unwrapped (reqIn target ps buf) b = some 5#256 := by
  subst hb
  unfold State.unwrapped
  show (if ephemeralOk b ∧ up.kek b = s.kek b then some 5#256 else none) = _
  rw [if_pos ⟨he, h.symm⟩]

/-! The machine's step. -/

/-- An empty queue idles. -/
theorem test_idle : step State.reset = .next State.reset := by rfl

/-! Examples that the spec works out (R58, R75, R316). -/

/-- The handles of R58: tenant slot 37 at generation 5, key slot 75 at generation 2, placement slot 2,431 at generation 1. -/
theorem test_handles :
    mkHandle 1 37 5 = 0x10025005 ∧ mkHandle 4 75 2 = 0x4004B002 ∧ mkHandle 3 2431 1 = 0x3097F001 := by decide +kernel

/-- The sector place of R75: group 5, index 1,234, offset 500,017, with 32 sectors to a program unit. -/
theorem test_place : placeOf (boltNo 5 1234) 32 500017 = ⟨29, 520, 17, 1, 0, 1⟩ := by decide +kernel

/-- The initialisation vector of R316. -/
theorem test_iv :
    sealed1.iv = [0x03#8, 0x31#8, 0xA1#8, 0x27#8, 0x00#8, 0x00#8, 0x03#8, 0x00#8, 0x00#8, 0x00#8, 0x00#8, 0x00#8] := by
  decide +kernel

/-- The key reference of R316: slot index 1, slot generation 2, version 1. -/
theorem test_key_ref : up.keyRef sealed1 = 0x2005 := by decide +kernel

/-- The address of R357, 270,336, under the three orders. -/
theorem test_dram_place :
    dramPlace 16 1 0 270336 = ⟨0, 0, 2, 1, 48⟩ ∧ dramPlace 16 1 1 270336 = ⟨0, 0, 0, 1, 10⟩ ∧
      dramPlace 16 1 2 270336 = ⟨0, 0, 3, 1, 48⟩ ∧ checkPlace 48 = (62, 0) := by decide +kernel

/-- Balls of the map: a corner of flash channel 7, a data ball of channel 29, a DRAM address ball and two rails (R536-R543). -/
theorem test_balls :
    ballName 15 14 = "T14" ∧ ballAt 15 14 = "FC7_RB_N" ∧ ballName 28 36 = "AJ36" ∧ ballAt 28 36 = "FC29_DQ[7]" ∧
      ballName 45 32 = "BG32" ∧ ballAt 45 32 = "DM2_CA[3]" ∧ ballAt 9 17 = "VSS" ∧ ballAt 9 18 = "VSRAM" := by decide +kernel

/-! Clauses with premises of their own. -/

/-- The hypotheses of `GenerationsAdvance`, clauses 2 and 4, meet: the tenant's handle. -/
theorem witness_generationsAdvance_2 : ∃ (s : State) (kind slot h o : Nat),
    slot < 65536 ∧ s.checkHandle kind h = .valid slot o ∧ s.ownerOf kind slot = some o ∧ slot < kindSlots kind ∧
      s.gen kind slot < 4096 :=
  ⟨up, 1, 2, 0x10002001, 2, by decide +kernel⟩

/-- The hypotheses of `GenerationsAdvance`, clause 3, meet: the tenant's handle while another slot's generation advances. -/
theorem witness_generationsAdvance_3 : ∃ (s : State) (kind slot kind' slot' h o : Nat),
    slot < 65536 ∧ (kind', slot') ≠ (kind, slot) ∧ s.checkHandle kind' h = .valid slot' o :=
  ⟨up, 1, 65535, 1, 2, 0x10002001, 2, by decide +kernel⟩

/-- The hypotheses of `SectorPlaces`, clause 2, meet. -/
theorem witness_sectorPlaces_2 : ∃ b u o o' : Nat, 0 < u ∧ u % 8 = 0 ∧ placeOf b u o = placeOf b u o' :=
  ⟨42194, 32, 500017, 500017, by decide +kernel⟩

/-- The hypotheses of `SectorPlaces`, clause 3, meet at the last column and sector. -/
theorem witness_sectorPlaces_3 : ∃ b u h c x : Nat,
    0 < u ∧ u % 8 = 0 ∧ h < 2 ∧ c < 16 ∧ c ≠ parityCol b ∧ x < u :=
  ⟨42194, 32, 1, 15, 31, by decide +kernel⟩

/-- The rails hold 487 balls (R544), and their regulators the codes of R466. -/
theorem test_rail_balls :
    ([Rail.vcore, .vsram, .vaon, .vioFl, .vddqDm, .vphyDm, .vpcieL, .vpcieH, .v1p8,
      .vhem].map fun r => r.figures.1).sum = 487 ∧
      Rail.vcore.range 0 false = (824500, 875500) := by decide +kernel

/-- The worked example of R336: 272.45 ms for 162,368 bound zones. -/
theorem test_crypto_erase : cryptoEraseNs 162368 = 272447808 := by decide +kernel

/-- In reset THERMTRIP_N and a flash channel's WP_N stand at their reset levels (R547). -/
theorem test_pins : State.reset.thermTripPin = .highZ ∧ State.reset.wpPin 0 = .low := by decide +kernel

/-! Ill-formed commands. -/

/-- An ill-formed term for each check on an event with a number out of range (part 1). -/
theorem test_wf_event_1 : ([
    .powerOn { (default : BootEnv) with verdictA := 10 },
    .brownOutRecovery { (default : BootEnv) with verdictA := 10 } default,
    .flushSeal ⟨0, [(⟨32, 0⟩, 0)]⟩,
    .freezeCapture 1024 default,
    .freezeTimeout 1024 default,
    .registerWrite (.bar0 ⟨.a, 1024⟩) default 32 default,
    .registerWrite default default 12 default,
    .hostDataArrival ⟨.a, 1024⟩ default default default default default,
    .hostDataArrival default 65536 default default default default,
    .hostDataArrival default default 65536 default default default,
    .seamLaneComplete 32 default,
    .dramWriteDrain 4,
    .commitPoint ⟨.a, 1024⟩ default default default,
    .commitPoint default 65536 default default,
    .commitPoint default default 65536 default,
    .spillTimerExpiry 1024 1 default,
    .spillTimerExpiry default 3 default,
    .programStatusRead ⟨32, 0⟩ default default,
    .arrayReadDone ⟨32, 0⟩,
    .dataOutDone ⟨32, 0⟩] : List Instr).all (fun i => !i.wf) = true := by decide +kernel

/-- An ill-formed term for each check on an event with a number out of range (part 2). -/
theorem test_wf_event_2 : ([
    .ldpcDecodeDone 65536 default default,
    .darnExhaustionEnd 32 default,
    .eraseMinSegmentEnd ⟨32, 0⟩,
    .bulkReadAge ⟨32, 0⟩ default,
    .bulkReadAge default 65536,
    .tokenDeferralLimit ⟨32, 0⟩,
    .boltEraseStart 262144 default,
    .eraseStatusRead ⟨32, 0⟩ default default default,
    .mergeIdleTimer 32,
    .mergeStart 1024 default,
    .relocationStart 262144 default,
    .mediaPatrolSample 262144 default,
    .probeTimeout 136 default,
    .heldInputTimeout 136 default,
    .tailorTrap 4 default default,
    .heartbeatMiss 4 default,
    .selfTestDone 4 default,
    .busArbiterDecision 32,
    .busTransactionEnd 32,
    .holdCutoff 32 default] : List Instr).all (fun i => !i.wf) = true := by decide +kernel

/-- An ill-formed term for each check on an event with a number out of range (part 3). -/
theorem test_wf_event_3 : ([
    .sqTailDoorbell ⟨.a, 1024⟩ default 32 default default,
    .sqTailDoorbell default 65536 32 default default,
    .sqTailDoorbell default default 12 default default,
    .cqHeadDoorbell ⟨.a, 1024⟩ default 32 default,
    .cqHeadDoorbell default 65536 32 default,
    .cqHeadDoorbell default default 12 default,
    .sqeArrival ⟨.a, 1024⟩ default default,
    .sqeArrival default 65536 default,
    .sqeArrival default default [⟨{ cmd1 with cid := 65536 }, 0#8, 0#32, 0#32, 0#32, 0#32, 0#32, 0#32⟩],
    .agePromotion ⟨.a, 1024⟩ default default default,
    .agePromotion default 65536 default default,
    .agePromotion default default 65536 default,
    .coalescingTimer ⟨.a, 1024⟩ default default,
    .coalescingTimer default 2048 default,
    .msixTableWrite ⟨.a, 1024⟩ default default default,
    .msixTableWrite default 2048 default default,
    .msixTableWrite default default 4 default,
    .ccEnable ⟨.a, 1024⟩ default,
    .controllerReset ⟨.a, 1024⟩,
    .shutdownNotification ⟨.a, 1024⟩ default] : List Instr).all (fun i => !i.wf) = true := by decide +kernel

/-- An ill-formed term for each check on an event with a number out of range (part 4). -/
theorem test_wf_event_4 : ([
    .flr ⟨.a, 1024⟩,
    .configRequest ⟨.a, 1024⟩ default default default default default default,
    .numvfsWrite default 65536,
    .laneFailure default 5,
    .malformedTlp default (some ⟨.a, 1024⟩),
    .hostErrorCompletion (.shuttle 64 0 []) default,
    .getCertificate 8 default default,
    .challenge 8 default,
    .getMeasurements 256 default,
    .dramCalibration 4 default,
    .dramRefresh 4 default,
    .dramRefresh default 16,
    .scrubRead default 4 default default default default,
    .scrubRead default default (.tailorTcm 4) default default default,
    .shtPtrWrite 64 default,
    .shtCtrlWrite 64 default,
    .shtRingWrite 64 default,
    .shuttleDescriptorComplete 64 default default,
    .shuttleDescriptorComplete default default (some ⟨0, .tailorTcm 4, false⟩),
    .shuttleBurstRetry 64 default default] : List Instr).all (fun i => !i.wf) = true := by decide +kernel

/-- An ill-formed term for each check on an event with a number out of range (part 5). -/
theorem test_wf_event_5 : ([
    .hemProgramComplete 4 default,
    .hemEraseComplete 4 default,
    .hemEraseSuspend 4,
    .domainStopAnswer 26 default default,
    .domainStopTimeout 26 default,
    .domainStartDone 26 default,
    .wake default default (some 1024),
    .epochClose 1024 default,
    .dieStatusTimeout ⟨32, 0⟩ default default default,
    .bobbinSelfFault 136 default default,
    .eraseSuspendLatencyEnd ⟨32, 0⟩,
    .hemSuspendWindowEnd 4,
    .completionTimeout 64 default default,
    .undefinedMailboxOpcode default { req 0 [] with slot := 64 }] : List Instr).all (fun i => !i.wf) = true := by decide +kernel

/-- An ill-formed term for each check on a mailbox command in a slot that the mailbox does not have (part 1). -/
theorem test_wf_mbx_1 : ([
    .tenantCreate { req 0 [] with slot := 64 },
    .tenantDestroy { req 0 [] with slot := 64 },
    .tenantQuery { req 0 [] with slot := 64 },
    .tenantList { req 0 [] with slot := 64 },
    .tenantSetQos { req 0 [] with slot := 64 },
    .tenantSetAtomic { req 0 [] with slot := 64 },
    .tenantQuarantine { req 0 [] with slot := 64 },
    .tenantRelease { req 0 [] with slot := 64 },
    .tenantReset { req 0 [] with slot := 64 },
    .qpairGrant { req 0 [] with slot := 64 },
    .qpairRevoke { req 0 [] with slot := 64 },
    .vectorBlockGrant { req 0 [] with slot := 64 },
    .vectorBlockRevoke { req 0 [] with slot := 64 },
    .queueQuery { req 0 [] with slot := 64 },
    .setCoalescing { req 0 [] with slot := 64 },
    .geometryQuery { req 0 [] with slot := 64 },
    .diegroupAssign { req 0 [] with slot := 64 },
    .diegroupQuery { req 0 [] with slot := 64 },
    .placementCreate { req 0 [] with slot := 64 },
    .placementDestroy { req 0 [] with slot := 64 }] : List Instr).all (fun i => !i.wf) = true := by decide +kernel

/-- An ill-formed term for each check on a mailbox command in a slot that the mailbox does not have (part 2). -/
theorem test_wf_mbx_2 : ([
    .placementQuery { req 0 [] with slot := 64 },
    .convRegionSet { req 0 [] with slot := 64 },
    .keyLoad { req 0 [] with slot := 64 },
    .keyRekeyBegin { req 0 [] with slot := 64 },
    .keyRekeyEnd { req 0 [] with slot := 64 },
    .keyDestroy { req 0 [] with slot := 64 },
    .keyQuery { req 0 [] with slot := 64 },
    .wrapKeyInfo { req 0 [] with slot := 64 },
    .tenantFreeze { req 0 [] with slot := 64 },
    .snapshotRead { req 0 [] with slot := 64 },
    .snapshotDiscard { req 0 [] with slot := 64 },
    .tenantRestore { req 0 [] with slot := 64 },
    .tenantThaw { req 0 [] with slot := 64 },
    .powerPolicy { req 0 [] with slot := 64 },
    .domainQuery { req 0 [] with slot := 64 },
    .vcorePolicy { req 0 [] with slot := 64 },
    .thermalConfig { req 0 [] with slot := 64 },
    .holdupQuery { req 0 [] with slot := 64 },
    .capacitanceTest { req 0 [] with slot := 64 },
    .exposedCapSet { req 0 [] with slot := 64 }] : List Instr).all (fun i => !i.wf) = true := by decide +kernel

/-- An ill-formed term for each check on a mailbox command in a slot that the mailbox does not have (part 3). -/
theorem test_wf_mbx_3 : ([
    .pbFreeze { req 0 [] with slot := 64 },
    .pbThaw { req 0 [] with slot := 64 },
    .pbQuery { req 0 [] with slot := 64 },
    .yardageSetEpoch { req 0 [] with slot := 64 },
    .yardageRead { req 0 [] with slot := 64 },
    .hostTimeSet { req 0 [] with slot := 64 },
    .fwStage { req 0 [] with slot := 64 },
    .fwVerify { req 0 [] with slot := 64 },
    .fwActivateNow { req 0 [] with slot := 64 },
    .fwActivateNextPowerOn { req 0 [] with slot := 64 },
    .fwRollback { req 0 [] with slot := 64 },
    .bootQuery { req 0 [] with slot := 64 },
    .managerPolicy { req 0 [] with slot := 64 },
    .sanitiseStartBlockErase { req 0 [] with slot := 64 },
    .sanitiseStartCryptoErase { req 0 [] with slot := 64 },
    .sanitiseStartExitFailure { req 0 [] with slot := 64 },
    .sanitiseStatus { req 0 [] with slot := 64 },
    .formatStart { req 0 [] with slot := 64 },
    .formatStatus { req 0 [] with slot := 64 },
    .debugAuthoriseChallenge { req 0 [] with slot := 64 }] : List Instr).all (fun i => !i.wf) = true := by decide +kernel

/-- An ill-formed term for each check on a mailbox command in a slot that the mailbox does not have (part 4). -/
theorem test_wf_mbx_4 : ([
    .debugAuthoriseToken { req 0 [] with slot := 64 },
    .debugAuthoriseRevoke { req 0 [] with slot := 64 },
    .frayArm { req 0 [] with slot := 64 },
    .frayDisarm { req 0 [] with slot := 64 },
    .selvedgeRead { req 0 [] with slot := 64 },
    .selvedgeSetThreshold { req 0 [] with slot := 64 },
    .warmReset { req 0 [] with slot := 64 }] : List Instr).all (fun i => !i.wf) = true := by decide +kernel

/-- An ill-formed term for each check on an NVMe command with a number out of range (part 1). -/
theorem test_wf_nvme_1 : ([
    .createIoSq { cmd1 with cid := 65536 } default default default default default default,
    .createIoSq cmd1 65536 default default default default default,
    .createIoSq cmd1 default 65536 default default default default,
    .createIoSq cmd1 default default default default 65536 default,
    .createIoCq { cmd1 with cid := 65536 } default default default default default default,
    .createIoCq cmd1 65536 default default default default default,
    .createIoCq cmd1 default 65536 default default default default,
    .createIoCq cmd1 default default default default default 65536,
    .deleteIoSq { cmd1 with cid := 65536 } default,
    .deleteIoSq cmd1 65536,
    .deleteIoCq { cmd1 with cid := 65536 } default,
    .deleteIoCq cmd1 65536,
    .getLogPage { cmd1 with cid := 65536 } default default default default,
    .getLogPage cmd1 256 default default default,
    .getLogPage cmd1 default 65536 default default,
    .getLogVendorEvents { cmd1 with cid := 65536 } default default default,
    .getLogVendorEvents cmd1 65536 default default,
    .identify { cmd1 with cid := 65536 } default default default,
    .identify cmd1 256 default default,
    .identify cmd1 default 256 default] : List Instr).all (fun i => !i.wf) = true := by decide +kernel

/-- An ill-formed term for each check on an NVMe command with a number out of range (part 2). -/
theorem test_wf_nvme_2 : ([
    .abort { cmd1 with cid := 65536 } default default,
    .abort cmd1 65536 default,
    .abort cmd1 default 65536,
    .setFeatures { cmd1 with cid := 65536 } default default default default default,
    .setFeatures cmd1 256 default default default default,
    .getFeatures { cmd1 with cid := 65536 } default default default default,
    .getFeatures cmd1 256 default default default,
    .getFeatures cmd1 default 8 default default,
    .setArbitration { cmd1 with cid := 65536 } default,
    .setPowerManagement { cmd1 with cid := 65536 } default,
    .setTemperatureThreshold { cmd1 with cid := 65536 } default,
    .setNumberOfQueues { cmd1 with cid := 65536 } default,
    .setInterruptCoalescing { cmd1 with cid := 65536 } default default,
    .setApst { cmd1 with cid := 65536 } default default default default,
    .setTimestamp { cmd1 with cid := 65536 } default,
    .setDarningControl { cmd1 with cid := 65536 } default default default default,
    .setReclamationControl { cmd1 with cid := 65536 } default default default default,
    .setChannelArbiterControl { cmd1 with cid := 65536 } default default default,
    .setIntakeArbitrationControl { cmd1 with cid := 65536 } default default default,
    .setVendorEventConfiguration { cmd1 with cid := 65536 } default] : List Instr).all (fun i => !i.wf) = true := by decide +kernel

/-- An ill-formed term for each check on an NVMe command with a number out of range (part 3). -/
theorem test_wf_nvme_3 : ([
    .asynchronousEventRequest { cmd1 with cid := 65536 },
    .firmwareImageDownload { cmd1 with cid := 65536 } default default,
    .firmwareCommit { cmd1 with cid := 65536 } default default default default,
    .firmwareCommit cmd1 default 8 default default,
    .firmwareCommit cmd1 default default 10 default,
    .formatNvm { cmd1 with cid := 65536 } default default default default default default,
    .sanitizeBlockErase { cmd1 with cid := 65536 } default default default,
    .sanitizeCryptoErase { cmd1 with cid := 65536 } default default default,
    .sanitizeExitFailureMode { cmd1 with cid := 65536 },
    .read { cmd1 with cid := 65536 } default,
    .read cmd1 { (default : IoArgs) with nlb := 65536 },
    .write { cmd1 with cid := 65536 } default,
    .write cmd1 { (default : IoArgs) with nlb := 65536 },
    .zoneAppend { cmd1 with cid := 65536 } default,
    .zoneAppend cmd1 { (default : IoArgs) with nlb := 65536 },
    .writeZeroes { cmd1 with cid := 65536 } default,
    .writeZeroes cmd1 { (default : IoArgs) with nlb := 65536 },
    .flush { cmd1 with cid := 65536 },
    .zoneOpen { cmd1 with cid := 65536 } default default,
    .zoneClose { cmd1 with cid := 65536 } default default] : List Instr).all (fun i => !i.wf) = true := by decide +kernel

/-- An ill-formed term for each check on an NVMe command with a number out of range (part 4). -/
theorem test_wf_nvme_4 : ([
    .zoneFinish { cmd1 with cid := 65536 } default default,
    .zoneReset { cmd1 with cid := 65536 } default default,
    .reportZones { cmd1 with cid := 65536 } default default default default default default] : List Instr).all (fun i => !i.wf) = true := by decide +kernel

/-! The premises of each statement meet. -/

/-- The hypotheses of `StepRunsFrontCommand` meet. -/
theorem witness_stepRunsFrontCommand_1 : ∃ (s : State) (c : Instr) (r : List Instr),
    s.pending = c :: r :=
  ⟨{ up with pending := [.flush cmd1] }, _, _, rfl⟩

/-- The hypotheses of `EmptyQueueIdles`, clause 1, meet. -/
theorem witness_emptyQueueIdles_1 : ∃ (s : State),
    s.pending = [] ∧
    s.mbx.portA.readyAt = none ∧
    s.mbx.portB.readyAt = none :=
  ⟨up, by decide +kernel⟩

/-- The hypotheses of `EmptyQueueIdles`, clause 2, meet. -/
theorem witness_emptyQueueIdles_2 : ∃ (s : State),
    s.pending = [] :=
  ⟨up, by decide +kernel⟩

/-- The hypotheses of `EmptyQueueIdles`, clause 3, meet. -/
theorem witness_emptyQueueIdles_3 : ∃ (s : State),
    s.pending = [] :=
  ⟨up, by decide +kernel⟩

/-- The hypotheses of `EmptyQueueIdles`, clause 4, meet. -/
theorem witness_emptyQueueIdles_4 : ∃ (s : State),
    s.pending = [] :=
  ⟨up, by decide +kernel⟩

/-- The hypotheses of `MailboxDoorbellRunsItsSlot` meet. -/
theorem witness_mailboxDoorbellRunsItsSlot_1 : ∃ (s : State) (i : Instr) (op : BitVec 16) (r : MbxReq),
    i.mailbox = some (op, r) ∧
    s.portThere r.port = true ∧
    s.therm.latch = false ∧
    r.slot < 64 ∧
    (s.mbxPort r.port).slotBusy r.slot = false ∧
    (s.mbxPort r.port).slots.wf = true :=
  ⟨up, .tenantQuery (req 0x10002001 []), 0x0103#16, req 0x10002001 [], by decide +kernel⟩

/-- The hypotheses of `GenerationsAdvance`, clause 1, meet. -/
theorem witness_generationsAdvance_1 : ∃ (slot : Nat),
    slot < 65536 :=
  ⟨65535, by decide +kernel⟩

/-- The hypotheses of `HandlesAreChecked`, clause 1, meet. -/
theorem witness_handlesAreChecked_1 : ∃ (s : State) (r : MbxReq) (i : Instr) (op : BitVec 16) (kind : Nat) (zeros : Nat × Nat),
    (i, op, kind, zeros) ∈ [(.tenantQuery r, 0x0103#16, 1, (28, 36)), (.queueQuery r, 0x0205#16, 2, (16, 48)),
      (.placementQuery r, 0x0306#16, 3, (16, 48)), (.keyQuery r, 0x0405#16, 4, (16, 48)), (.vectorBlockRevoke r, 0x0204#16,
      5, (16, 48)), (.snapshotDiscard r, 0x0503#16, 6, (16, 48))] ∧
    s.Takes r ∧
    (kind = 4 → s.cipher = true) ∧
    (r.target.toNat / 2 ^ 28 ≠ kind ∨ kindSlots kind ≤ handleSlot r.target.toNat ∨ r.target.toNat % 2 ^ 12 = 0) :=
  ⟨up, req 0x40003000 [], .keyQuery (req 0x40003000 []), 0x0405#16, 4, (16, 48), by decide +kernel,
    by unfold State.Takes State.MbxIdle State.Calm; decide +kernel, by decide +kernel⟩

/-- The hypotheses of `HandlesAreChecked`, clause 2, meet. -/
theorem witness_handlesAreChecked_2 : ∃ (s : State) (r : MbxReq) (i : Instr) (op : BitVec 16) (kind : Nat) (zeros : Nat × Nat),
    (i, op, kind, zeros) ∈ [(.tenantQuery r, 0x0103#16, 1, (28, 36)), (.queueQuery r, 0x0205#16, 2, (16, 48)),
      (.placementQuery r, 0x0306#16, 3, (16, 48)), (.keyQuery r, 0x0405#16, 4, (16, 48)), (.vectorBlockRevoke r, 0x0204#16,
      5, (16, 48)), (.snapshotDiscard r, 0x0503#16, 6, (16, 48))] ∧
    s.Takes r ∧
    (kind = 4 → s.cipher = true) ∧
    r.target.toNat / 2 ^ 28 = kind ∧
    handleSlot r.target.toNat < kindSlots kind ∧
    r.target.toNat % 2 ^ 12 ≠ 0 ∧
    (s.ownerOf kind (handleSlot r.target.toNat) = none ∨ s.gen kind (handleSlot r.target.toNat) ≠ r.target.toNat % 2 ^ 12) ∧
    r.Zero [zeros] ∧
    (kind = 1 → r.Buffer 16 24 128) :=
  ⟨up, req 0x10002FFF [(24, 128)], .tenantQuery (req 0x10002FFF [(24, 128)]), 0x0103#16, 1, (28, 36), by decide +kernel,
    by unfold State.Takes State.MbxIdle State.Calm; decide +kernel, by decide +kernel, by decide +kernel, by decide +kernel,
    by decide +kernel, by decide +kernel, by unfold MbxReq.Zero; decide +kernel, by unfold MbxReq.Buffer; decide +kernel⟩

/-- The hypotheses of `FrozenTenantsRefuse` meet. -/
theorem witness_frozenTenantsRefuse_1 : ∃ (s : State) (r : MbxReq) (i : Instr) (op : BitVec 16) (kind : Nat) (slot : Nat) (k : Nat) (t : Tenant),
    (i, op, kind) ∈ [(.tenantReset r, 0x0109#16, 1), (.qpairRevoke r, 0x0202#16, 2), (.placementQuery r, 0x0306#16, 3),
      (.keyDestroy r, 0x0404#16, 4), (.vectorBlockRevoke r, 0x0204#16, 5)] ∧
    s.Takes r ∧
    (kind = 4 → s.cipher = true) ∧
    s.Names kind r slot k t ∧
    t.frozen = true ∧
    r.Zero [(16, 48)] :=
  ⟨upWith { tenant2 with frozen := true }, req 0x10002001 [], .tenantReset (req 0x10002001 []), 0x0109#16, 1, 2, 2,
    { tenant2 with frozen := true }, by decide +kernel, by unfold State.Takes State.MbxIdle State.Calm; decide +kernel,
    by decide +kernel, by unfold State.Names; decide +kernel, by decide +kernel, by unfold MbxReq.Zero; decide +kernel⟩

/-- The hypotheses of `RejectedDoorbells`, clause 1, meet. -/
theorem witness_rejectedDoorbells_1 : ∃ (s : State) (p : Port) (v : Nat),
    s.portThere p = true ∧
    s.therm.latch = false ∧
    v < 2 ^ 32 ∧
    (s.mbxPort p).slots.wf = true ∧
    (64 ≤ v ∨ (s.mbxPort p).slotBusy v = true ∨ s.mbxReady p = false ∨ s.eng.dead = true ∨ s.mbx.manager ≠ p) :=
  ⟨up, .a, 64, by decide +kernel⟩

/-- The hypotheses of `RejectedDoorbells`, clause 2, meet. -/
theorem witness_rejectedDoorbells_2 : ∃ (s : State) (p : Port) (v : Nat),
    s.portThere p = true ∧
    s.therm.latch = false ∧
    v < 2 ^ 32 ∧
    (s.mbxPort p).slots.wf = true ∧
    v < 64 ∧
    (s.mbxPort p).slotBusy v = false :=
  ⟨up, .a, 63, by decide +kernel⟩

/-- The hypotheses of `HeadWrites`, clause 1, meet. -/
theorem witness_headWrites_1 : ∃ (s : State) (p : Port) (v : BitVec 32) (x : MbxPort) (adv : Nat),
    s.portThere p = true ∧
    s.mbx.manager = p ∧
    x = s.mbxPort p ∧
    adv = (v.toNat % 64 + 64 - x.head.toNat) % 64 ∧
    adv ≤ x.posted :=
  ⟨{ up with mbx.portA.posted := 63 }, .a, 63#32, _, _, by decide +kernel, by decide +kernel, rfl, rfl, by decide +kernel⟩

/-- The hypotheses of `HeadWrites`, clause 2, meet. -/
theorem witness_headWrites_2 : ∃ (s : State) (p : Port) (v : BitVec 32) (x : MbxPort) (adv : Nat),
    s.portThere p = true ∧
    s.mbx.manager = p ∧
    x = s.mbxPort p ∧
    adv = (v.toNat % 64 + 64 - x.head.toNat) % 64 ∧
    x.posted < adv :=
  ⟨{ up with mbx.portA.posted := 62 }, .a, 63#32, _, _, by decide +kernel, by decide +kernel, rfl, rfl, by decide +kernel⟩

/-- The hypotheses of `HeadWrites`, clause 3, meet. -/
theorem witness_headWrites_3 : ∃ (s : State) (p : Port) (v : BitVec 32) (x : MbxPort) (adv : Nat),
    s.portThere p = true ∧
    s.mbx.manager = p ∧
    x = s.mbxPort p ∧
    adv = (v.toNat % 64 + 64 - x.head.toNat) % 64 ∧
    v.toNat % 64 = x.head.toNat ∧
    x.waiting = [] ∧
    s.pow.policyDue = false :=
  ⟨{ up with mbx.portA.head := 5#6 }, .a, 5#32, _, _, by decide +kernel, by decide +kernel, rfl, rfl, rfl, by decide +kernel⟩

/-- The hypotheses of `UndefinedOpcodes`, clause 1, meet. -/
theorem witness_undefinedOpcodes_1 : ∃ (s : State) (r : MbxReq) (op : BitVec 16),
    s.Takes r ∧
    (∀ q ∈ [(1, 9), (2, 6), (3, 7), (4, 6), (5, 5), (6, 7), (7, 6), (8, 6), (9, 4), (10, 6)],
      op.toNat / 256 = q.1 → op.toNat % 256 = 0 ∨ q.2 < op.toNat % 256) :=
  ⟨up, req 0 [], 0x0B01#16, by unfold State.Takes State.MbxIdle State.Calm; decide +kernel, by decide +kernel⟩

/-- The hypotheses of `UndefinedOpcodes`, clause 2, meet. -/
theorem witness_undefinedOpcodes_2 : ∃ (s : State) (i : Instr) (op : BitVec 16) (r : MbxReq),
    s.Takes r ∧
    s.cipher = false ∧
    i.mailbox = some (op, r) ∧
    op.toNat / 256 = 4 :=
  ⟨{ up with board.part := .tmy9632n }, .keyDestroy (req 0x40002001 []), 0x0404#16, req 0x40002001 [],
    by unfold State.Takes State.MbxIdle State.Calm; decide +kernel, by decide +kernel⟩

/-- The hypotheses of `OtherFunctionWindows`, clause 1, meet. -/
theorem witness_otherFunctionWindows_1 : ∃ (s : State) (p : Port),
    s.portThere p = true ∧
    s.mbx.manager ≠ p :=
  ⟨up, .b, by decide +kernel⟩

/-- The hypotheses of `SlotAndAreaWrites`, clause 1, meet. -/
theorem witness_slotAndAreaWrites_1 : ∃ (s : State) (p : Port) (off : Nat) (width : Nat) (len : Nat),
    s.portThere p = true ∧
    s.therm.latch = false ∧
    len = width / 8 ∧
    0 < len ∧
    len ≤ 8 ∧
    off < 0x1000 ∧
    off % 64 + len ≤ 64 ∧
    (s.mbxPort p).slotBusy (off / 64) = true :=
  ⟨{ up with mbx.portA.busy := 1#64 }, .a, 60, 32, 4, by decide +kernel⟩

/-- The hypotheses of `SlotAndAreaWrites`, clause 2, meet. -/
theorem witness_slotAndAreaWrites_2 : ∃ (s : State) (p : Port) (off : Nat) (width : Nat) (len : Nat),
    s.portThere p = true ∧
    s.therm.latch = false ∧
    len = width / 8 ∧
    0 < len ∧
    len ≤ 8 ∧
    off < 0x1000 ∧
    off % 64 + len ≤ 64 ∧
    (s.mbxPort p).slotBusy (off / 64) = false :=
  ⟨up, .a, 0xFF8, 64, 8, by decide +kernel⟩

/-- The hypotheses of `SlotAndAreaWrites`, clause 3, meet. -/
theorem witness_slotAndAreaWrites_3 : ∃ (s : State) (p : Port) (off : Nat) (width : Nat) (len : Nat),
    s.portThere p = true ∧
    s.therm.latch = false ∧
    len = width / 8 ∧
    0 < len ∧
    len ≤ 8 ∧
    (0x1000 ≤ off ∧ off < 0x1800 ∨ 0x10000 ≤ off ∧ off < 0x11000) :=
  ⟨up, .a, 0x10FFF, 8, 1, by decide +kernel⟩

/-- The hypotheses of `SlotAndAreaWrites`, clause 4, meet. -/
theorem witness_slotAndAreaWrites_4 : ∃ (s : State) (p : Port) (off : Nat) (width : Nat) (len : Nat),
    s.portThere p = true ∧
    s.therm.latch = false ∧
    len = width / 8 ∧
    0 < len ∧
    len ≤ 8 ∧
    0x2000 ≤ off ∧ off < 0x2018 ∧
    (off % 4 ≠ 0 ∨ len ≠ 4) :=
  ⟨up, .a, 0x2017, 8, 1, by decide +kernel⟩

/-- The hypotheses of `CompletionRing`, clause 1, meet. -/
theorem witness_completionRing_1 : ∃ (s : State) (p : Port) (e : MbxCqe) (x : MbxPort),
    x = s.mbxPort p ∧
    x.waiting = [] ∧
    e.slot < 64 ∧
    x.posted < 64 ∧
    s.mbx.movePending = none :=
  ⟨{ up with mbx.portA.posted := 63, mbx.portA.tail := 63#6 }, .a, { (default : MbxCqe) with slot := 63 }, _, rfl,
    by decide +kernel⟩

/-- The hypotheses of `CompletionRing`, clause 2, meet. -/
theorem witness_completionRing_2 : ∃ (s : State) (p : Port) (e : MbxCqe) (x : MbxPort),
    x = s.mbxPort p ∧
    x.waiting = [] ∧
    e.slot < 64 ∧
    64 ≤ x.posted :=
  ⟨{ up with mbx.portA.posted := 64 }, .a, { (default : MbxCqe) with slot := 63 }, _, rfl, by decide +kernel⟩

/-- The hypotheses of `CompletionIsWritten`, clause 1, meet. -/
theorem witness_completionIsWritten_1 : ∃ (s : State) (c : NvmeCmd),
    s.Posts c :=
  ⟨up, cmd1, by unfold State.Posts; decide +kernel⟩

/-- The hypotheses of `CompletionIsWritten`, clause 3, meet. -/
theorem witness_completionIsWritten_3 : ∃ (s : State) (f : FnId) (id : Nat) (q : Cq),
    s.supply.portsStopped = false ∧
    s.dbg.armed = false ∧
    (s.fn f).cq id = some q ∧
    (q.hasRoom = false ∨ q.waiting ≠ []) :=
  ⟨upFull, f1, 1, _, by decide +kernel, by decide +kernel, rfl, by decide +kernel⟩

/-- The hypotheses of `CaptureQueue`, clause 1, meet. -/
theorem witness_captureQueue_1 : ∃ (s : State),
    s.selv.queue.length < 64 :=
  ⟨up, by decide +kernel⟩

/-- The hypotheses of `CaptureQueue`, clause 2, meet. -/
theorem witness_captureQueue_2 : ∃ (s : State),
    64 ≤ s.selv.queue.length ∧
    s.selv.lost < 2 ^ 32 :=
  ⟨{ up with selv.queue := List.replicate 64 default }, by decide +kernel⟩

/-- The hypotheses of `CaptureQueue`, clause 3, meet. -/
theorem witness_captureQueue_3 : ∃ (s : State),
    s.selv.queue.length ≤ 64 :=
  ⟨{ up with selv.queue := List.replicate 64 default }, by decide +kernel⟩

/-- The hypotheses of `FrayTriggers`, clause 1, meet. -/
theorem witness_frayTriggers_1 : ∃ (s : State) (r : FrayRule) (q : FrayRule) (n : Nat) (limit : Nat),
    n = fieldLE r.raw 4 4 ∧
    limit = fieldLE r.raw 8 4 ∧
    q = { r with events := r.events + 1, lfsr := BitVec.ofNat 64 (Config.freeNat s.fresh) } ∧
    limit ≠ 0 ∧
    limit ≤ r.fired :=
  ⟨up, rule 1 3 2 2, _, _, _, rfl, rfl, rfl, by decide +kernel⟩

/-- The hypotheses of `FrayTriggers`, clause 2, meet. -/
theorem witness_frayTriggers_2 : ∃ (s : State) (r : FrayRule) (q : FrayRule) (n : Nat) (limit : Nat),
    n = fieldLE r.raw 4 4 ∧
    limit = fieldLE r.raw 8 4 ∧
    q = { r with events := r.events + 1, lfsr := BitVec.ofNat 64 (Config.freeNat s.fresh) } ∧
    (limit = 0 ∨ r.fired < limit) ∧
    fieldLE r.raw 3 1 = 1 :=
  ⟨up, rule 1 3 2 1, _, _, _, rfl, rfl, rfl, by decide +kernel⟩

/-- The hypotheses of `FrayTriggers`, clause 3, meet. -/
theorem witness_frayTriggers_3 : ∃ (s : State) (r : FrayRule) (q : FrayRule) (n : Nat) (limit : Nat),
    n = fieldLE r.raw 4 4 ∧
    limit = fieldLE r.raw 8 4 ∧
    q = { r with events := r.events + 1, lfsr := BitVec.ofNat 64 (Config.freeNat s.fresh) } ∧
    (limit = 0 ∨ r.fired < limit) ∧
    fieldLE r.raw 3 1 = 2 :=
  ⟨up, rule 2 3 0 0, _, _, _, rfl, rfl, rfl, by decide +kernel⟩

/-- The hypotheses of `FrayTriggers`, clause 4, meet. -/
theorem witness_frayTriggers_4 : ∃ (s : State) (r : FrayRule) (q : FrayRule) (n : Nat) (limit : Nat),
    n = fieldLE r.raw 4 4 ∧
    limit = fieldLE r.raw 8 4 ∧
    q = { r with events := r.events + 1, lfsr := BitVec.ofNat 64 (Config.freeNat s.fresh) } ∧
    (limit = 0 ∨ r.fired < limit) ∧
    fieldLE r.raw 3 1 = 3 :=
  ⟨up, rule 3 3 0 0, _, _, _, rfl, rfl, rfl, by decide +kernel⟩

/-- The hypotheses of `FrayTriggers`, clause 5, meet. -/
theorem witness_frayTriggers_5 : ∃ (s : State) (i : Nat) (r : FrayRule) (q : FrayRule) (n : Nat) (limit : Nat),
    n = fieldLE r.raw 4 4 ∧
    limit = fieldLE r.raw 8 4 ∧
    q = { r with events := r.events + 1, lfsr := BitVec.ofNat 64 (Config.freeNat s.fresh) } ∧
    (s.frayRule i r).1 = none :=
  ⟨up, 0, rule 1 3 0 0, _, _, _, rfl, rfl, rfl, by decide +kernel⟩

/-- The hypotheses of `FrayTriggers`, clause 6, meet. -/
theorem witness_frayTriggers_6 : ∃ (s : State) (i : Nat) (r : FrayRule) (q : FrayRule) (n : Nat) (limit : Nat),
    n = fieldLE r.raw 4 4 ∧
    limit = fieldLE r.raw 8 4 ∧
    q = { r with events := r.events + 1, lfsr := BitVec.ofNat 64 (Config.freeNat s.fresh) } ∧
    (s.frayRule i r).1.isSome :=
  ⟨up, 0, { rule 1 3 0 0 with events := 2 }, _, _, _, rfl, rfl, rfl, by decide +kernel⟩

/-- The hypotheses of `DieSensorReadings`, clause 1, meet. -/
theorem witness_dieSensorReadings_1 : ∃ (s : State) (u : State) (i : Nat) (t : Nat) (v : Int) (x : Sensor),
    u = (s.atTime t).accrueHeat ∧
    x = u.sensor i ∧
    x.converting = true ∧
    (v < -160 ∨ 1120 < v) ∧
    x.discards < 2 :=
  ⟨{ up with therm.sensors := [(4, ⟨none, 1, 0, false, true, false, none⟩)] }, _, 4, 5000010, 1121, _, rfl, rfl,
    by decide +kernel⟩

/-- The hypotheses of `DieSensorReadings`, clause 2, meet. -/
theorem witness_dieSensorReadings_2 : ∃ (s : State) (u : State) (i : Nat) (t : Nat) (v : Int) (x : Sensor),
    u = (s.atTime t).accrueHeat ∧
    x = u.sensor i ∧
    x.converting = true ∧
    (v < -160 ∨ 1120 < v) ∧
    2 ≤ x.discards :=
  ⟨{ up with therm.sensors := [(4, ⟨none, 2, 0, false, true, false, none⟩)] }, _, 4, 5000010, -161, _, rfl, rfl,
    by decide +kernel⟩

/-- The hypotheses of `DieSensorReadings`, clause 3, meet. -/
theorem witness_dieSensorReadings_3 : ∃ (s : State) (i : Nat),
    (s.sensor i).failed = true :=
  ⟨{ up with therm.sensors := [(4, ⟨none, 3, 0, true, false, false, none⟩)] }, 4, by decide +kernel⟩

/-- The hypotheses of `DieSensorReadings`, clause 5, meet. -/
theorem witness_dieSensorReadings_5 : ∃ (s : State),
    ((List.range 24).filter (fun i => !(s.sensor i).failed)).length < 20 :=
  ⟨{ up with therm.sensors := (List.range 5).map (fun i => (i, ⟨none, 3, 0, true, false, false, none⟩)) }, by decide +kernel⟩

/-- The hypotheses of `SectorPlaces`, clause 1, meet. -/
theorem witness_sectorPlaces_1 : ∃ (u : Nat),
    0 < u ∧
    u % 8 = 0 :=
  ⟨32, by decide +kernel⟩

/-- The hypotheses of `SealedSectorIv`, clause 2, meet. -/
theorem witness_sealedSectorIv_2 : ∃ (x : Sealed),
    (x.nsid = 1 ∨ x.nsid = 2) ∧
    x.nsid = 1 :=
  ⟨sealed1, by decide +kernel⟩

/-- The hypotheses of `SealedSectorIv`, clause 3, meet. -/
theorem witness_sealedSectorIv_3 : ∃ (x : Sealed),
    (x.nsid = 1 ∨ x.nsid = 2) ∧
    x.nsid = 2 :=
  ⟨{ sealed1 with nsid := 2 }, by decide +kernel⟩

/-- The hypotheses of `SealedSectorIv`, clause 4, meet. -/
theorem witness_sealedSectorIv_4 : ∃ (x : Sealed) (y : Sealed),
    (x.nsid = 1 ∨ x.nsid = 2) ∧
    (y.nsid = 1 ∨ y.nsid = 2) ∧
    x.lba < 2 ^ 40 ∧
    y.lba < 2 ^ 40 ∧
    (x.gen < 2 ^ 32 ∨ x.nsid = 2 ∧ x.gen < 2 ^ 48) ∧
    (y.gen < 2 ^ 32 ∨ y.nsid = 2 ∧ y.gen < 2 ^ 48) ∧
    x.iv = y.iv :=
  ⟨sealed1, { sealed1 with keySlot := 7 }, by decide +kernel⟩

/-- The hypotheses of `TenantRecordCommands`, clause 1, meet. -/
theorem witness_tenantRecordCommands_1 : ∃ (s : State) (r : MbxReq) (slot : Nat) (block : Nat) (vf : Nat),
    s.Takes r ∧
    r.target = 0#32 ∧
    s.MayStore r ∧
    r.p 16 1 ≤ 1 ∧
    (s.host.joined = true → r.p 16 1 = 0) ∧
    1 ≤ r.p 18 2 ∧
    (r.p 18 2 ≤ 1023 ∨ r.p 18 2 = 0xFFFF) ∧
    (∀ p ∈ s.host.tenants, p.2.fn ≠ some ⟨portOf (r.p 16 1), r.p 18 2⟩) ∧
    64 ≤ r.p 20 4 ∧
    1 ≤ r.p 24 2 ∧
    r.p 24 2 ≤ 4096 ∧
    1 ≤ r.p 26 2 ∧
    r.p 26 2 ≤ 2048 ∧
    1 ≤ r.p 28 1 ∧
    r.Zero [(17, 1), (29, 35)] ∧
    s.sumOthers 1024 (·.swatchQuota) + r.p 20 4 ≤ s.hostClass ∧
    s.sumOthers 1024 (·.activeZones) + r.p 24 2 ≤ 4096 ∧
    s.sumOthers 1024 Tenant.vectors + r.p 26 2 ≤ 16384 ∧
    s.freeSlot 1 = some slot ∧
    s.freeSlot 5 = some block ∧
    s.pickVf (portOf (r.p 16 1)) (r.p 18 2) = some vf :=
  ⟨up, req 0 [(18, 0xFFFF), (20, 64), (24, 4096 - 16), (26, 1), (28, 1)], _, _, _,
    by unfold State.Takes State.MbxIdle State.Calm; decide +kernel, by decide +kernel,
    by unfold State.MayStore; decide +kernel, by decide +kernel, by decide +kernel, by decide +kernel, by decide +kernel,
    by decide +kernel, by decide +kernel, by decide +kernel, by decide +kernel, by decide +kernel, by decide +kernel,
    by decide +kernel, by unfold MbxReq.Zero; decide +kernel, by decide +kernel, by decide +kernel, by decide +kernel, rfl,
    rfl, rfl⟩

/-- The hypotheses of `TenantRecordCommands`, clause 2, meet. -/
theorem witness_tenantRecordCommands_2 : ∃ (s : State) (r : MbxReq) (k : Nat) (t : Tenant),
    s.Takes r ∧
    s.Names 1 r k k t ∧
    t.frozen = false ∧
    s.MayStore r ∧
    (r.p 16 1 = 1 ∧ 64 ≤ r.p 20 4 ∧ r.p 20 4 ≤ 16384 ∨ r.p 16 1 = 0 ∧ r.p 20 4 = 0) ∧
    r.Zero [(17, 3), (24, 40)] :=
  ⟨up, req 0x10002001 [(16, 1), (20, 16384)], 2, tenant2, by unfold State.Takes State.MbxIdle State.Calm; decide +kernel,
    by unfold State.Names; decide +kernel, by decide +kernel, by unfold State.MayStore; decide +kernel, by decide +kernel,
    by unfold MbxReq.Zero; decide +kernel⟩

/-- The hypotheses of `TenantRecordCommands`, clause 3, meet. -/
theorem witness_tenantRecordCommands_3 : ∃ (s : State) (r : MbxReq) (k : Nat) (t : Tenant),
    s.Takes r ∧
    s.Names 1 r k k t ∧
    t.frozen = false ∧
    s.MayStore r ∧
    k ≠ s.managerBase ∧
    t.quarantined = true ∧
    r.Zero [(16, 48)] :=
  ⟨upWith { tenant2 with quarantined := true }, req 0x10002001 [], 2, { tenant2 with quarantined := true },
    by unfold State.Takes State.MbxIdle State.Calm; decide +kernel, by unfold State.Names; decide +kernel, by decide +kernel,
    by unfold State.MayStore; decide +kernel, by decide +kernel, by decide +kernel, by unfold MbxReq.Zero; decide +kernel⟩

/-- The hypotheses of `TenantRecordCommands`, clause 4, meet. -/
theorem witness_tenantRecordCommands_4 : ∃ (s : State) (r : MbxReq) (k : Nat) (t : Tenant),
    s.Takes r ∧
    s.Names 1 r k k t ∧
    t.frozen = false ∧
    s.MayStore r ∧
    k ≠ s.managerBase ∧
    t.quarantined = false ∧
    r.Zero [(16, 48)] :=
  ⟨up, req 0x10002001 [], 2, tenant2, by unfold State.Takes State.MbxIdle State.Calm; decide +kernel,
    by unfold State.Names; decide +kernel, by decide +kernel, by unfold State.MayStore; decide +kernel, by decide +kernel,
    by decide +kernel, by unfold MbxReq.Zero; decide +kernel⟩

/-- The hypotheses of `TenantRecordCommands`, clause 5, meet. -/
theorem witness_tenantRecordCommands_5 : ∃ (s : State) (r : MbxReq) (slot : Nat) (k : Nat) (t : Tenant),
    s.Takes r ∧
    s.Names 5 r slot k t ∧
    t.frozen = false ∧
    s.MayStore r ∧
    r.p 17 1 < 2 ∧
    r.p 18 2 ≤ 1000 ∧
    r.Zero [(20, 44)] :=
  ⟨up, req 0x50001001 [(16, 255), (17, 1), (18, 1000)], 1, 2, tenant2,
    by unfold State.Takes State.MbxIdle State.Calm; decide +kernel, by unfold State.Names; decide +kernel, by decide +kernel,
    by unfold State.MayStore; decide +kernel, by decide +kernel, by decide +kernel, by unfold MbxReq.Zero; decide +kernel⟩

/-- The hypotheses of `TenantRecordCommands`, clause 6, meet. -/
theorem witness_tenantRecordCommands_6 : ∃ (s : State) (r : MbxReq) (k : Nat) (block : Nat) (base : Nat) (t : Tenant),
    s.Takes r ∧
    s.Names 1 r k k t ∧
    t.frozen = false ∧
    s.MayStore r ∧
    1 ≤ r.p 16 2 ∧
    r.p 16 2 ≤ 2048 ∧
    (r.p 18 2 ≤ 2047 ∧ base = r.p 18 2 ∧ base + r.p 16 2 ≤ 2048 ∧ t.overlaps base (r.p 16 2) = false ∨ r.p 18 2 = 0xFFFF ∧ t.freeRun (r.p 16 2) = some base) ∧
    t.vectors + r.p 16 2 ≤ 2048 ∧
    s.sumOthers 1024 Tenant.vectors + r.p 16 2 ≤ 16384 ∧
    s.freeSlot 5 = some block ∧
    r.Zero [(20, 44)] :=
  ⟨up, req 0x10002001 [(16, 2), (18, 2046)], 2, _, 2046, tenant2,
    by unfold State.Takes State.MbxIdle State.Calm; decide +kernel, by unfold State.Names; decide +kernel, by decide +kernel,
    by unfold State.MayStore; decide +kernel, by decide +kernel, by decide +kernel, by decide +kernel, by decide +kernel,
    by decide +kernel, rfl, by unfold MbxReq.Zero; decide +kernel⟩

/-- The hypotheses of `TenantRecordCommands`, clause 7, meet. -/
theorem witness_tenantRecordCommands_7 : ∃ (s : State) (r : MbxReq) (slot : Nat) (k : Nat) (t : Tenant) (b : VecBlock),
    s.Takes r ∧
    s.Names 5 r slot k t ∧
    t.frozen = false ∧
    s.MayStore r ∧
    b = t.blockIn slot ∧
    s.blockUsed t b = false ∧
    b.base ≠ 0 ∧
    r.Zero [(16, 48)] :=
  ⟨up, req 0x50001001 [], 1, 2, tenant2, _, by unfold State.Takes State.MbxIdle State.Calm; decide +kernel,
    by unfold State.Names; decide +kernel, by decide +kernel, by unfold State.MayStore; decide +kernel, rfl,
    by decide +kernel, by decide +kernel, by unfold MbxReq.Zero; decide +kernel⟩

/-- The hypotheses of `TenantRecordCommands`, clause 8, meet. -/
theorem witness_tenantRecordCommands_8 : ∃ (s : State) (r : MbxReq) (slot : Nat) (k : Nat) (t : Tenant),
    s.Takes r ∧
    s.Names 2 r slot k t ∧
    t.frozen = false ∧
    s.MayStore r ∧
    (∀ q ∈ t.qpairs, q.revoked = true ∨ q.qid ≤ (t.qpairIn slot).qid) ∧
    r.Zero [(16, 48)] :=
  ⟨up, req 0x20009001 [], 9, 2, tenant2, by unfold State.Takes State.MbxIdle State.Calm; decide +kernel,
    by unfold State.Names; decide +kernel, by decide +kernel, by unfold State.MayStore; decide +kernel, by decide +kernel,
    by unfold MbxReq.Zero; decide +kernel⟩

/-- The hypotheses of `TenantRecordCommands`, clause 9, meet. -/
theorem witness_tenantRecordCommands_9 : ∃ (s : State) (r : MbxReq) (k : Nat) (t : Tenant),
    s.Takes r ∧
    s.Names 1 r k k t ∧
    t.frozen = false ∧
    s.MayStore r ∧
    1 ≤ r.p 16 1 ∧
    r.p 16 1 ≤ 63 ∧
    r.p 20 4 ≠ 0 ∧
    (∀ g ∈ bitsOf (r.p 20 4) 32, g < s.groups ∧ g ∈ t.groups) ∧
    (∀ p ∈ t.placements, p.index ≠ r.p 16 1) ∧
    r.Zero [(17, 3), (24, 40)] :=
  ⟨up, req 0x10002001 [(16, 63), (20, 1)], 2, tenant2, by unfold State.Takes State.MbxIdle State.Calm; decide +kernel,
    by unfold State.Names; decide +kernel, by decide +kernel, by unfold State.MayStore; decide +kernel, by decide +kernel,
    by decide +kernel, by decide +kernel, by decide +kernel, by decide +kernel, by unfold MbxReq.Zero; decide +kernel⟩

/-- The hypotheses of `TenantRecordCommands`, clause 10, meet. -/
theorem witness_tenantRecordCommands_10 : ∃ (s : State) (r : MbxReq) (slot : Nat) (k : Nat) (t : Tenant),
    s.Takes r ∧
    s.Names 3 r slot k t ∧
    t.frozen = false ∧
    s.MayStore r ∧
    slot % 64 ≠ 0 ∧
    r.Zero [(16, 48)] :=
  ⟨up, req 0x30085001 [], 133, 2, tenant2, by unfold State.Takes State.MbxIdle State.Calm; decide +kernel,
    by unfold State.Names; decide +kernel, by decide +kernel, by unfold State.MayStore; decide +kernel, by decide +kernel,
    by unfold MbxReq.Zero; decide +kernel⟩

/-- The hypotheses of `TenantLifeCommands`, clause 1, meet. -/
theorem witness_tenantLifeCommands_1 : ∃ (s : State) (r : MbxReq) (k : Nat) (t : Tenant),
    s.Takes r ∧
    s.Names 1 r k k t ∧
    t.frozen = false ∧
    s.MayStore r ∧
    s.Rests ∧
    (r.p 16 4 = 0 ∨ r.p 24 4 ≤ r.p 16 4) ∧
    (r.p 20 4 = 0 ∨ r.p 28 4 ≤ r.p 20 4) ∧
    1 ≤ r.p 32 2 ∧
    r.p 32 2 ≤ 1000 ∧
    r.p 34 1 ≠ 0 ∧
    1 ≤ r.p 36 2 ∧
    r.p 36 2 ≤ 4096 ∧
    64 ≤ r.p 40 4 ∧
    s.qosShort k (qosOf r) (r.p 36 2) (r.p 40 4) = false ∧
    (t.zones.filter (fun z => z.2.st.active)).length ≤ r.p 36 2 ∧
    r.Zero [(35, 1), (38, 2), (44, 20)] :=
  ⟨up, req 0x10002001 [(16, 0), (32, 1000), (34, 1), (36, 4096), (40, 64)], 2, tenant2,
    by unfold State.Takes State.MbxIdle State.Calm; decide +kernel, by unfold State.Names; decide +kernel, by decide +kernel,
    by unfold State.MayStore; decide +kernel, by unfold State.Rests; decide +kernel, by decide +kernel, by decide +kernel,
    by decide +kernel, by decide +kernel, by decide +kernel, by decide +kernel, by decide +kernel, by decide +kernel,
    by decide +kernel, by decide +kernel, by unfold MbxReq.Zero; decide +kernel⟩

/-- The hypotheses of `TenantLifeCommands`, clause 2, meet. -/
theorem witness_tenantLifeCommands_2 : ∃ (s : State) (r : MbxReq) (k : Nat) (t : Tenant) (f : FnId),
    s.Takes r ∧
    s.Names 1 r k k t ∧
    t.frozen = false ∧
    s.MayStore r ∧
    t.quarantined = true ∧
    t.fn = some f ∧
    r.p 16 1 = 0 ∧
    r.Zero [(17, 47)] :=
  ⟨upWith { tenant2 with quarantined := true }, req 0x10002001 [], 2, { tenant2 with quarantined := true }, f1,
    by unfold State.Takes State.MbxIdle State.Calm; decide +kernel, by unfold State.Names; decide +kernel, by decide +kernel,
    by unfold State.MayStore; decide +kernel, by decide +kernel, by decide +kernel, by decide +kernel,
    by unfold MbxReq.Zero; decide +kernel⟩

/-- The hypotheses of `TenantLifeCommands`, clause 3, meet. -/
theorem witness_tenantLifeCommands_3 : ∃ (s : State) (r : MbxReq) (k : Nat) (t : Tenant) (f : FnId),
    s.Takes r ∧
    s.Names 1 r k k t ∧
    t.frozen = false ∧
    s.MayStore r ∧
    t.quarantined = true ∧
    t.fn = some f ∧
    r.p 16 1 = 1 ∧
    r.Zero [(17, 47)] :=
  ⟨upWith { tenant2 with quarantined := true }, req 0x10002001 [(16, 1)], 2, { tenant2 with quarantined := true }, f1,
    by unfold State.Takes State.MbxIdle State.Calm; decide +kernel, by unfold State.Names; decide +kernel, by decide +kernel,
    by unfold State.MayStore; decide +kernel, by decide +kernel, by decide +kernel, by decide +kernel,
    by unfold MbxReq.Zero; decide +kernel⟩

/-- The hypotheses of `TenantLifeCommands`, clause 4, meet. -/
theorem witness_tenantLifeCommands_4 : ∃ (s : State) (r : MbxReq) (k : Nat) (t : Tenant) (f : FnId),
    s.Takes r ∧
    s.Names 1 r k k t ∧
    t.frozen = false ∧
    t.fn = some f ∧
    ccEn (s.fn f).cc = true ∧
    r.Zero [(16, 48)] :=
  ⟨up, req 0x10002001 [], 2, tenant2, f1, by unfold State.Takes State.MbxIdle State.Calm; decide +kernel,
    by unfold State.Names; decide +kernel, by decide +kernel, by decide +kernel, by decide +kernel,
    by unfold MbxReq.Zero; decide +kernel⟩

/-- The hypotheses of `TenantLifeCommands`, clause 5, meet. -/
theorem witness_tenantLifeCommands_5 : ∃ (s : State) (r : MbxReq) (k : Nat) (t : Tenant) (f : FnId),
    s.Takes r ∧
    s.Names 1 r k k t ∧
    t.frozen = false ∧
    t.fn = some f ∧
    ccEn (s.fn f).cc = false ∧
    r.Zero [(16, 48)] :=
  ⟨{ up with host.fns := [(1, { fn1 with cc := 0#32 })] }, req 0x10002001 [], 2, tenant2, f1,
    by unfold State.Takes State.MbxIdle State.Calm; decide +kernel, by unfold State.Names; decide +kernel, by decide +kernel,
    by decide +kernel, by decide +kernel, by unfold MbxReq.Zero; decide +kernel⟩

/-- The hypotheses of `TenantLifeCommands`, clause 6, meet. -/
theorem witness_tenantLifeCommands_6 : ∃ (s : State) (r : MbxReq) (k : Nat) (t : Tenant),
    s.Takes r ∧
    s.Names 1 r k k t ∧
    s.MayStore r ∧
    1 < k ∧
    r.Zero [(16, 48)] :=
  ⟨up, req 0x10002001 [], 2, tenant2, by unfold State.Takes State.MbxIdle State.Calm; decide +kernel,
    by unfold State.Names; decide +kernel, by unfold State.MayStore; decide +kernel, by decide +kernel,
    by unfold MbxReq.Zero; decide +kernel⟩

/-- The hypotheses of `TenantLifeCommands`, clause 7, meet. -/
theorem witness_tenantLifeCommands_7 : ∃ (s : State) (r : MbxReq) (k : Nat) (t : Tenant) (qs : List Nat),
    s.Takes r ∧
    s.Names 1 r k k t ∧
    t.frozen = false ∧
    s.MayStore r ∧
    s.bme = true ∧
    r.Buffer 16 24 (4 * r.p 28 2) ∧
    1 ≤ r.p 28 2 ∧
    r.p 28 2 ≤ 64 ∧
    (∀ q ∈ t.qpairs, q.revoked = false) ∧
    t.qpairs.length + r.p 28 2 ≤ 1024 ∧
    s.sumOthers 1024 (·.qpairs.length) + r.p 28 2 ≤ 8192 ∧
    qs = freeSlots (s.host.tenants.flatMap (fun p => p.2.qpairs.map (·.slot))) (r.p 28 2) ∧
    qs ≠ [] ∧
    r.Zero [(30, 34)] :=
  ⟨up, req 0x10002001 [(24, 256), (28, 64)], 2, tenant2, _, by unfold State.Takes State.MbxIdle State.Calm; decide +kernel,
    by unfold State.Names; decide +kernel, by decide +kernel, by unfold State.MayStore; decide +kernel, by decide +kernel,
    by unfold MbxReq.Buffer; decide +kernel, by decide +kernel, by decide +kernel, by decide +kernel, by decide +kernel,
    by decide +kernel, rfl, by decide +kernel, by unfold MbxReq.Zero; decide +kernel⟩

/-- The hypotheses of `TenantLifeCommands`, clause 8, meet. -/
theorem witness_tenantLifeCommands_8 : ∃ (s : State) (r : MbxReq) (k : Nat) (t : Tenant) (f : FnId) (gs : List Nat) (ex : Bool),
    s.Takes r ∧
    s.Names 1 r k k t ∧
    t.frozen = false ∧
    s.MayStore r ∧
    s.Rests ∧
    t.fn = some f ∧
    (s.fn f).aec.getLsbD 8 = false ∧
    gs = bitsOf (r.p 16 4) 32 ∧
    (∀ g ∈ gs, g ∈ s.presentGroups) ∧
    r.p 16 4 ≠ 0 ∧
    r.p 20 1 ≤ 1 ∧
    ex = decide (r.p 20 1 = 0) ∧
    (ex = t.exclusive ∨ s.boltsOf k = []) ∧
    (∀ g ∈ t.groups, g ∈ gs ∨ s.holdsIn k g = false) ∧
    (∀ p ∈ t.placements, p.index = 0 ∨ ∀ g ∈ p.mask, g ∈ gs) ∧
    s.setClash k gs ex = false ∧
    t.quota ≤ r.p 24 4 ∧
    s.fits k { t with groups := gs, exclusive := ex, quota := r.p 24 4 } = true ∧
    r.Zero [(21, 3), (28, 36)] :=
  ⟨up, req 0x10002001 [(16, 1), (24, 8)], 2, tenant2, f1, _, _,
    by unfold State.Takes State.MbxIdle State.Calm; decide +kernel, by unfold State.Names; decide +kernel, by decide +kernel,
    by unfold State.MayStore; decide +kernel, by unfold State.Rests; decide +kernel, by decide +kernel, by decide +kernel,
    rfl, by decide +kernel, by decide +kernel, by decide +kernel, rfl, by decide +kernel, by decide +kernel,
    by decide +kernel, by decide +kernel, by decide +kernel, by decide +kernel, by unfold MbxReq.Zero; decide +kernel⟩

/-- The hypotheses of `TenantLifeCommands`, clause 9, meet. -/
theorem witness_tenantLifeCommands_9 : ∃ (s : State) (r : MbxReq) (k : Nat) (t : Tenant),
    s.Takes r ∧
    s.Names 1 r k k t ∧
    t.frozen = false ∧
    s.MayStore r ∧
    (r.p 16 4 = 0 ∨ t.groups ≠ []) ∧
    (r.p 16 4 ≤ t.conv ∨ s.sumOthers k (·.conv) + r.p 16 4 ≤ s.convLimit ∧ s.fits k { t with conv := r.p 16 4 } = true) ∧
    s.convBusy k (r.p 16 4) = false ∧
    r.Zero [(20, 44)] :=
  ⟨up, req 0x10002001 [], 2, tenant2, by unfold State.Takes State.MbxIdle State.Calm; decide +kernel,
    by unfold State.Names; decide +kernel, by decide +kernel, by unfold State.MayStore; decide +kernel, by decide +kernel,
    by decide +kernel, by decide +kernel, by unfold MbxReq.Zero; decide +kernel⟩

/-- The hypotheses of `QueryCommandsAnswer`, clause 1, meet. -/
theorem witness_queryCommandsAnswer_1 : ∃ (s : State) (r : MbxReq) (k : Nat) (t : Tenant),
    s.Takes r ∧
    s.bme = true ∧
    s.Names 1 r k k t ∧
    r.Buffer 16 24 128 ∧
    r.Zero [(28, 36)] :=
  ⟨up, req 0x10002001 [(24, 128)], 2, tenant2, by unfold State.Takes State.MbxIdle State.Calm; decide +kernel,
    by decide +kernel, by unfold State.Names; decide +kernel, by unfold MbxReq.Buffer; decide +kernel,
    by unfold MbxReq.Zero; decide +kernel⟩

/-- The hypotheses of `QueryCommandsAnswer`, clause 2, meet. -/
theorem witness_queryCommandsAnswer_2 : ∃ (s : State) (r : MbxReq),
    s.Takes r ∧
    s.bme = true ∧
    r.target = 0#32 ∧
    r.Buffer 16 24 8 ∧
    r.Zero [(28, 36)] :=
  ⟨up, req 0 [(24, 8)], by unfold State.Takes State.MbxIdle State.Calm; decide +kernel, by decide +kernel, by decide +kernel,
    by unfold MbxReq.Buffer; decide +kernel, by unfold MbxReq.Zero; decide +kernel⟩

/-- The hypotheses of `QueryCommandsAnswer`, clause 3, meet. -/
theorem witness_queryCommandsAnswer_3 : ∃ (s : State) (r : MbxReq),
    s.Takes r ∧
    s.bme = true ∧
    r.target = 0#32 ∧
    r.Buffer 16 24 128 ∧
    r.Zero [(28, 36)] :=
  ⟨up, req 0 [(24, 128)], by unfold State.Takes State.MbxIdle State.Calm; decide +kernel, by decide +kernel,
    by decide +kernel, by unfold MbxReq.Buffer; decide +kernel, by unfold MbxReq.Zero; decide +kernel⟩

/-- The hypotheses of `QueryCommandsAnswer`, clause 4, meet. -/
theorem witness_queryCommandsAnswer_4 : ∃ (s : State) (r : MbxReq),
    s.Takes r ∧
    s.bme = true ∧
    r.target = 0#32 ∧
    r.Buffer 16 24 (32 * s.groups) ∧
    r.Zero [(28, 36)] :=
  ⟨up, req 0 [(24, 1024)], by unfold State.Takes State.MbxIdle State.Calm; decide +kernel, by decide +kernel,
    by decide +kernel, by unfold MbxReq.Buffer; decide +kernel, by unfold MbxReq.Zero; decide +kernel⟩

/-- The hypotheses of `QueryCommandsAnswer`, clause 5, meet. -/
theorem witness_queryCommandsAnswer_5 : ∃ (s : State) (r : MbxReq),
    s.Takes r ∧
    s.bme = true ∧
    s.cipher = true ∧
    r.target = 0#32 ∧
    r.p 16 4 = 0 ∧
    r.Buffer 24 32 128 ∧
    r.Zero [(20, 4), (36, 28)] :=
  ⟨up, req 0 [(32, 128)], by unfold State.Takes State.MbxIdle State.Calm; decide +kernel, by decide +kernel,
    by decide +kernel, by decide +kernel, by decide +kernel, by unfold MbxReq.Buffer; decide +kernel,
    by unfold MbxReq.Zero; decide +kernel⟩

/-- The hypotheses of `QueryCommandsAnswer`, clause 6, meet. -/
theorem witness_queryCommandsAnswer_6 : ∃ (s : State) (r : MbxReq) (slot : Nat) (k : Nat) (t : Tenant),
    s.Takes r ∧
    s.bme = true ∧
    s.Names 6 r slot k t ∧
    r.Buffer 16 24 (s.snapIn slot).blobLen ∧
    r.Zero [(28, 36)] :=
  ⟨upSnap, req 0x60000001 [(24, 2 ^ 20)], 0, 2, frozen2, by unfold State.Takes State.MbxIdle State.Calm; decide +kernel,
    by decide +kernel, by unfold State.Names; decide +kernel, by unfold MbxReq.Buffer; decide +kernel,
    by unfold MbxReq.Zero; decide +kernel⟩

/-- The hypotheses of `QueryCommandsAnswer`, clause 7, meet. -/
theorem witness_queryCommandsAnswer_7 : ∃ (s : State) (r : MbxReq),
    s.Takes r ∧
    s.bme = true ∧
    r.target = 0#32 ∧
    r.Buffer 16 24 256 ∧
    r.Zero [(28, 36)] :=
  ⟨up, req 0 [(24, 256)], by unfold State.Takes State.MbxIdle State.Calm; decide +kernel, by decide +kernel,
    by decide +kernel, by unfold MbxReq.Buffer; decide +kernel, by unfold MbxReq.Zero; decide +kernel⟩

/-- The hypotheses of `QueryCommandsAnswer`, clause 8, meet. -/
theorem witness_queryCommandsAnswer_8 : ∃ (s : State) (r : MbxReq),
    s.Takes r ∧
    s.bme = true ∧
    r.target = 0#32 ∧
    r.Buffer 16 24 256 ∧
    r.Zero [(28, 36)] :=
  ⟨up, req 0 [(24, 256)], by unfold State.Takes State.MbxIdle State.Calm; decide +kernel, by decide +kernel,
    by decide +kernel, by unfold MbxReq.Buffer; decide +kernel, by unfold MbxReq.Zero; decide +kernel⟩

/-- The hypotheses of `QueryCommandsAnswer`, clause 9, meet. -/
theorem witness_queryCommandsAnswer_9 : ∃ (s : State) (r : MbxReq),
    s.Takes r ∧
    s.bme = true ∧
    r.target = 0#32 ∧
    r.Buffer 16 24 256 ∧
    r.Zero [(28, 36)] :=
  ⟨up, req 0 [(24, 256)], by unfold State.Takes State.MbxIdle State.Calm; decide +kernel, by decide +kernel,
    by decide +kernel, by unfold MbxReq.Buffer; decide +kernel, by unfold MbxReq.Zero; decide +kernel⟩

/-- The hypotheses of `QueryCommandsAnswer`, clause 10, meet. -/
theorem witness_queryCommandsAnswer_10 : ∃ (s : State) (r : MbxReq),
    s.Takes r ∧
    s.bme = true ∧
    r.target = 0#32 ∧
    r.p 16 1 = 0 ∧
    r.p 18 2 = 0 ∧
    r.p 20 4 = 0 ∧
    r.Buffer 24 32 32 ∧
    r.p 32 4 % 32 = 0 ∧
    r.Zero [(17, 1), (36, 28)] ∧
    s.selv.ring.length ≤ r.p 32 4 / 32 :=
  ⟨up, req 0 [(32, 32)], by unfold State.Takes State.MbxIdle State.Calm; decide +kernel, by decide +kernel,
    by decide +kernel, by decide +kernel, by decide +kernel, by decide +kernel, by unfold MbxReq.Buffer; decide +kernel,
    by decide +kernel, by unfold MbxReq.Zero; decide +kernel, by decide +kernel⟩

/-- The hypotheses of `QueryCommandsAnswer`, clause 11, meet. -/
theorem witness_queryCommandsAnswer_11 : ∃ (s : State) (r : MbxReq) (k : Nat) (t : Tenant),
    s.Takes r ∧
    s.bme = true ∧
    s.Names 1 r k k t ∧
    r.Buffer 16 24 128 ∧
    r.p 28 4 ≤ t.epochRange.2 ∧
    r.Zero [(32, 32)] ∧
    t.closedEpochs = [] :=
  ⟨up, req 0x10002001 [(24, 128)], 2, tenant2, by unfold State.Takes State.MbxIdle State.Calm; decide +kernel,
    by decide +kernel, by unfold State.Names; decide +kernel, by unfold MbxReq.Buffer; decide +kernel, by decide +kernel,
    by unfold MbxReq.Zero; decide +kernel, by decide +kernel⟩

/-- The hypotheses of `StatusCommandsAnswer`, clause 1, meet. -/
theorem witness_statusCommandsAnswer_1 : ∃ (s : State) (r : MbxReq) (slot : Nat) (k : Nat) (t : Tenant) (f : FnId) (q : Sq) (c : Cq),
    s.Takes r ∧
    s.Names 2 r slot k t ∧
    r.Zero [(16, 48)] ∧
    t.frozen = false ∧
    t.fn = some f ∧
    (s.fn f).sq (t.qpairIn slot).qid = some q ∧
    (s.fn f).cq (t.qpairIn slot).qid = some c ∧
    (t.qpairIn slot).revoked = false :=
  ⟨up, req 0x20009001 [], 9, 2, tenant2, f1, _, _, by unfold State.Takes State.MbxIdle State.Calm; decide +kernel,
    by unfold State.Names; decide +kernel, by unfold MbxReq.Zero; decide +kernel, by decide +kernel, by decide +kernel, rfl,
    rfl, by decide +kernel⟩

/-- The hypotheses of `StatusCommandsAnswer`, clause 2, meet. -/
theorem witness_statusCommandsAnswer_2 : ∃ (s : State) (r : MbxReq) (slot : Nat) (k : Nat) (t : Tenant) (p : Placement),
    s.Takes r ∧
    s.Names 3 r slot k t ∧
    r.Zero [(16, 48)] ∧
    t.frozen = false ∧
    t.placement (slot % 64) = some p :=
  ⟨up, req 0x30085001 [], 133, 2, tenant2, _, by unfold State.Takes State.MbxIdle State.Calm; decide +kernel,
    by unfold State.Names; decide +kernel, by unfold MbxReq.Zero; decide +kernel, by decide +kernel, rfl⟩

/-- The hypotheses of `StatusCommandsAnswer`, clause 3, meet. -/
theorem witness_statusCommandsAnswer_3 : ∃ (s : State) (r : MbxReq) (slot : Nat) (k : Nat) (t : Tenant),
    s.Takes r ∧
    s.cipher = true ∧
    s.Names 4 r slot k t ∧
    r.Zero [(16, 48)] :=
  ⟨up, req 0x40005001 [], 5, 2, tenant2, by unfold State.Takes State.MbxIdle State.Calm; decide +kernel, by decide +kernel,
    by unfold State.Names; decide +kernel, by unfold MbxReq.Zero; decide +kernel⟩

/-- The hypotheses of `StatusCommandsAnswer`, clause 4, meet. -/
theorem witness_statusCommandsAnswer_4 : ∃ (s : State) (r : MbxReq),
    s.Takes r ∧
    r.target = 0#32 ∧
    r.p 16 1 ≤ 1 ∧
    r.Zero [(17, 47)] :=
  ⟨up, req 0 [(16, 1)], by unfold State.Takes State.MbxIdle State.Calm; decide +kernel, by decide +kernel, by decide +kernel,
    by unfold MbxReq.Zero; decide +kernel⟩

/-- The hypotheses of `StatusCommandsAnswer`, clause 5, meet. -/
theorem witness_statusCommandsAnswer_5 : ∃ (s : State) (r : MbxReq) (k : Nat) (t : Tenant),
    s.Takes r ∧
    s.Names 1 r k k t ∧
    r.p 16 1 = 0 ∧
    r.Zero [(17, 47)] :=
  ⟨up, req 0x10002001 [], 2, tenant2, by unfold State.Takes State.MbxIdle State.Calm; decide +kernel,
    by unfold State.Names; decide +kernel, by decide +kernel, by unfold MbxReq.Zero; decide +kernel⟩

/-- The hypotheses of `StatusCommandsAnswer`, clause 6, meet. -/
theorem witness_statusCommandsAnswer_6 : ∃ (s : State) (r : MbxReq),
    s.Takes r ∧
    r.target = 0#32 ∧
    r.Zero [(16, 48)] :=
  ⟨up, req 0 [], by unfold State.Takes State.MbxIdle State.Calm; decide +kernel, by decide +kernel,
    by unfold MbxReq.Zero; decide +kernel⟩

/-- The hypotheses of `StatusCommandsAnswer`, clause 7, meet. -/
theorem witness_statusCommandsAnswer_7 : ∃ (s : State) (r : MbxReq) (k : Nat) (t : Tenant),
    s.Takes r ∧
    s.Names 1 r k k t ∧
    r.Zero [(16, 48)] :=
  ⟨up, req 0x10002001 [], 2, tenant2, by unfold State.Takes State.MbxIdle State.Calm; decide +kernel,
    by unfold State.Names; decide +kernel, by unfold MbxReq.Zero; decide +kernel⟩

/-- The hypotheses of `KeyCommandsAct`, clause 1, meet. -/
theorem witness_keyCommandsAct_1 : ∃ (s : State) (r : MbxReq) (slot : Nat) (k : Nat) (t : Tenant) (key : BitVec 256),
    s.Takes r ∧
    s.cipher = true ∧
    s.Names 4 r slot k t ∧
    t.frozen = false ∧
    s.MayStore r ∧
    s.bme = true ∧
    (t.key (slot % 2)).st = .empty ∧
    t.writeSlot = none ∧
    r.p 16 8 % 64 = 0 ∧
    r.p 24 4 = 160 ∧
    r.env.bufOk = true ∧
    s.blobBad (r.input 160) slot = false ∧
    s.unwrapped r (r.input 160) = some key ∧
    r.Zero [(28, 36)] :=
  ⟨upWith (keyed .empty .read), reqIn 0x40004001 [(24, 160)] (blobFor 0), 4, 2, keyed .empty .read, 5#256,
    by unfold State.Takes State.MbxIdle State.Calm; decide +kernel, by decide +kernel, by unfold State.Names; decide +kernel,
    by decide +kernel, by unfold State.MayStore; decide +kernel, by decide +kernel, by decide +kernel, by decide +kernel,
    by decide +kernel, by decide +kernel, by decide +kernel, by decide +kernel,
    unwraps_reqIn rfl (by decide +kernel) (by decide +kernel), by unfold MbxReq.Zero; decide +kernel⟩

/-- The hypotheses of `KeyCommandsAct`, clause 2, meet. -/
theorem witness_keyCommandsAct_2 : ∃ (s : State) (r : MbxReq) (slot : Nat) (k : Nat) (t : Tenant) (key : BitVec 256) (x : KeySlot),
    s.Takes r ∧
    s.cipher = true ∧
    s.Names 4 r slot k t ∧
    t.frozen = false ∧
    s.MayStore r ∧
    s.bme = true ∧
    (t.key (slot % 2)).st = .empty ∧
    x = (t.keys.set (slot % 2) ⟨.write, some key, some (key, s.hem.keyStoreKey), false, 0⟩).getD (1 - slot % 2) default ∧
    (t.key (1 - slot % 2)).st = .write ∧
    r.p 16 8 % 64 = 0 ∧
    r.p 24 4 = 160 ∧
    r.env.bufOk = true ∧
    s.blobBad (r.input 160) slot = false ∧
    s.unwrapped r (r.input 160) = some key ∧
    r.Zero [(28, 36)] :=
  ⟨upWith (keyed .write .empty), reqIn 0x40005001 [(24, 160)] (blobFor 1), 5, 2, keyed .write .empty, 5#256, _,
    by unfold State.Takes State.MbxIdle State.Calm; decide +kernel, by decide +kernel, by unfold State.Names; decide +kernel,
    by decide +kernel, by unfold State.MayStore; decide +kernel, by decide +kernel, by decide +kernel, rfl,
    by decide +kernel, by decide +kernel, by decide +kernel, by decide +kernel, by decide +kernel,
    unwraps_reqIn rfl (by decide +kernel) (by decide +kernel), by unfold MbxReq.Zero; decide +kernel⟩

/-- The hypotheses of `KeyCommandsAct`, clause 3, meet. -/
theorem witness_keyCommandsAct_3 : ∃ (s : State) (r : MbxReq) (slot : Nat) (k : Nat) (t : Tenant),
    s.Takes r ∧
    s.cipher = true ∧
    s.Names 4 r slot k t ∧
    t.frozen = false ∧
    s.MayStore r ∧
    (t.key (slot % 2)).st = .read ∧
    (r.bit 16 0 = true ∨ s.zonesOfKey k (slot % 2) = 0 ∧ (t.key (slot % 2)).conv = 0) ∧
    r.p 16 1 < 2 ∧
    r.Zero [(17, 47)] :=
  ⟨upWith (keyed .write .read), req 0x40005001 [(16, 1)], 5, 2, keyed .write .read,
    by unfold State.Takes State.MbxIdle State.Calm; decide +kernel, by decide +kernel, by unfold State.Names; decide +kernel,
    by decide +kernel, by unfold State.MayStore; decide +kernel, by decide +kernel, by decide +kernel, by decide +kernel,
    by unfold MbxReq.Zero; decide +kernel⟩

/-- The hypotheses of `KeyCommandsAct`, clause 4, meet. -/
theorem witness_keyCommandsAct_4 : ∃ (s : State) (r : MbxReq) (slot : Nat) (k : Nat) (t : Tenant),
    s.Takes r ∧
    s.cipher = true ∧
    s.Names 4 r slot k t ∧
    t.frozen = false ∧
    s.MayStore r ∧
    (t.key (slot % 2)).st ≠ .empty ∧
    r.Zero [(16, 48)] :=
  ⟨upWith (keyed .write .read), req 0x40004001 [], 4, 2, keyed .write .read,
    by unfold State.Takes State.MbxIdle State.Calm; decide +kernel, by decide +kernel, by unfold State.Names; decide +kernel,
    by decide +kernel, by unfold State.MayStore; decide +kernel, by decide +kernel, by unfold MbxReq.Zero; decide +kernel⟩

/-- The hypotheses of `FreezeCommands`, clause 1, meet. -/
theorem witness_freezeCommands_1 : ∃ (s : State) (r : MbxReq) (k : Nat) (j : Nat) (t : Tenant) (f : FnId),
    s.Takes r ∧
    s.Names 1 r k k t ∧
    t.frozen = false ∧
    s.MayStore r ∧
    1 < k ∧
    t.fn = some f ∧
    s.freeSlot 6 = some j ∧
    s.hem.actStep = 0 ∧
    (r.p 16 4 = 0 ∨ 10 ≤ r.p 16 4 ∧ r.p 16 4 ≤ 10000) ∧
    r.Zero [(20, 44)] :=
  ⟨up, req 0x10002001 [(16, 10000)], 2, 0, tenant2, f1, by unfold State.Takes State.MbxIdle State.Calm; decide +kernel,
    by unfold State.Names; decide +kernel, by decide +kernel, by unfold State.MayStore; decide +kernel, by decide +kernel,
    by decide +kernel, by decide +kernel, by decide +kernel, by decide +kernel, by unfold MbxReq.Zero; decide +kernel⟩

/-- The hypotheses of `FreezeCommands`, clause 2, meet. -/
theorem witness_freezeCommands_2 : ∃ (s : State) (u : State) (k : Nat) (j : Nat) (t : Nat) (x : Tenant) (f : FnId),
    u = s.atTime t ∧
    s.tenant k = some x ∧
    x.fn = some f ∧
    x.freezing = true ∧
    s.freeSlot 6 = some j ∧
    s.freezeDrained k f = true :=
  ⟨upWith { tenant2 with freezing := true }, _, 2, 0, 5000000, _, f1, rfl, rfl, by decide +kernel⟩

/-- The hypotheses of `FreezeCommands`, clause 3, meet. -/
theorem witness_freezeCommands_3 : ∃ (s : State) (u : State) (k : Nat) (t : Nat) (x : Tenant) (f : FnId) (c : MbxCmd),
    u = s.atTime t ∧
    s.tenant k = some x ∧
    x.fn = some f ∧
    x.freezing = true ∧
    x.freezeUs + x.freezeLimitMs * 1000 ≤ max s.now t ∧
    s.freezeDrained k f = false ∧
    x.freezeCmd = some c :=
  ⟨{ upWith { tenant2 with freezing := true, freezeLimitMs := 10, freezeCmd := some accepted1 } with host.fns := [(1, { fn1 with granted := [default] })] },
    _, 2, 5000001, _, f1, _, rfl, rfl, by decide +kernel, by decide +kernel, by decide +kernel, by decide +kernel, rfl⟩

/-- The hypotheses of `SnapshotCommands`, clause 1, meet. -/
theorem witness_snapshotCommands_1 : ∃ (s : State) (r : MbxReq) (slot : Nat) (k : Nat) (t : Tenant) (x : Snap),
    s.Takes r ∧
    s.Names 6 r slot k t ∧
    t.frozen = false ∧
    s.snapOf k = some x ∧
    r.Zero [(16, 48)] :=
  ⟨{ upSnap with host.tenants := [(2, tenant2)] }, req 0x60000001 [], 0, 2, tenant2, snap1,
    by unfold State.Takes State.MbxIdle State.Calm; decide +kernel, by unfold State.Names; decide +kernel, by decide +kernel,
    by decide +kernel, by unfold MbxReq.Zero; decide +kernel⟩

/-- The hypotheses of `SnapshotCommands`, clause 2, meet. -/
theorem witness_snapshotCommands_2 : ∃ (s : State) (r : MbxReq) (p : Port) (slot : Nat) (k : Nat) (vf : Nat) (t : Tenant) (x : Snap),
    s.Takes r ∧
    r.target = 0#32 ∧
    r.env.hemOk = true ∧
    s.supply.ewLatched = false ∧
    r.p 16 1 = 0 ∧
    r.p 17 1 ≤ 1 ∧
    p = portOf (r.p 17 1) ∧
    1 ≤ r.p 18 2 ∧
    (r.p 18 2 ≤ 1023 ∨ r.p 18 2 = 0xFFFF) ∧
    s.checkHandle 6 (r.p 20 4) = .valid slot k ∧
    r.p 24 8 = 0 ∧
    r.p 32 4 = 0 ∧
    (s.snapIn slot).tenant = k ∧
    (s.snapIn slot).seq = t.freezeSeq ∧
    s.tenant k = some t ∧
    t.frozen = true ∧
    t.freezing = false ∧
    s.pickVf p (r.p 18 2) = some vf ∧
    (s.fn ⟨p, vf⟩).bme = true ∧
    (t.vectors = 0 ∨ (s.fn ⟨p, vf⟩).msixEn = true) ∧
    (s.host.joined = true → r.p 17 1 ≠ 1) ∧
    (∀ q ∈ s.host.tenants, q.1 = k ∨ q.2.fn ≠ some ⟨p, vf⟩) ∧
    s.host.snaps.find? (fun y => decide (y.tenant = k ∧ y.seq = t.freezeSeq)) = some x ∧
    r.Zero [(36, 28)] :=
  ⟨upSnap, req 0 [(18, 7), (20, 0x60000001)], _, 0, 2, 7, frozen2, snap1,
    by unfold State.Takes State.MbxIdle State.Calm; decide +kernel, by decide +kernel, by decide +kernel, by decide +kernel,
    by decide +kernel, by decide +kernel, rfl, by decide +kernel, by decide +kernel, by decide +kernel, by decide +kernel,
    by decide +kernel, by decide +kernel, by decide +kernel, by decide +kernel, by decide +kernel, by decide +kernel,
    by decide +kernel, by decide +kernel, by decide +kernel, by decide +kernel, by decide +kernel, by decide +kernel,
    by unfold MbxReq.Zero; decide +kernel⟩

/-- The hypotheses of `SnapshotCommands`, clause 4, meet. -/
theorem witness_snapshotCommands_4 : ∃ (s : State) (r : MbxReq) (k : Nat) (t : Tenant),
    s.Takes r ∧
    s.Names 1 r k k t ∧
    t.frozen = true ∧
    s.MayStore r ∧
    r.Zero [(16, 48)] :=
  ⟨upSnap, req 0x10002001 [], 2, frozen2, by unfold State.Takes State.MbxIdle State.Calm; decide +kernel,
    by unfold State.Names; decide +kernel, by decide +kernel, by unfold State.MayStore; decide +kernel,
    by unfold MbxReq.Zero; decide +kernel⟩

/-- The hypotheses of `PolicyCommands`, clause 1, meet. -/
theorem witness_policyCommands_1 : ∃ (s : State) (u : State) (r : MbxReq),
    s.Takes r ∧
    r.target = 0#32 ∧
    (r.bit 17 3 = true → s.MayStore r) ∧
    r.p 16 1 ≤ 2 ∧
    r.p 17 1 < 32 ∧
    (r.bit 17 1 = true → r.bit 17 0 = true) ∧
    1 ≤ r.p 18 2 ∧
    r.p 18 2 ≤ 168 ∧
    (∀ o ∈ profileOffences r, o = none) ∧
    r.Zero [(20, 4), (54, 10)] ∧
    u = { s.begun 0x0601#16 r with pow.policyDue := true, pow.capState := r.p 16 1, pow.polFlags := r.p 17 1 % 8, pow.maintH := r.p 18 2, pow.profile := if r.bit 17 4 then profileOf r else s.pow.profile, pow.savedPolicy := (if r.bit 17 3 then some (r.p 16 1, (r.p 17 1 % 8, (r.p 18 2, if r.bit 17 4 then profileOf r else s.pow.profile))) else s.pow.savedPolicy) } :=
  ⟨up, _, req 0 [(16, 2), (18, 168)], by unfold State.Takes State.MbxIdle State.Calm; decide +kernel, by decide +kernel,
    by unfold State.MayStore; decide +kernel, by decide +kernel, by decide +kernel, by decide +kernel, by decide +kernel,
    by decide +kernel, by decide +kernel, by unfold MbxReq.Zero; decide +kernel, rfl⟩

/-- The hypotheses of `PolicyCommands`, clause 2, meet. -/
theorem witness_policyCommands_2 : ∃ (s : State) (v : State) (r : MbxReq),
    s.Takes r ∧
    r.target = 0#32 ∧
    s.hem.actStep = 0 ∧
    (r.bit 21 0 = true → s.MayStore r) ∧
    (∀ o ∈ levelOffences r, o = none) ∧
    r.p 21 1 < 2 ∧
    r.Zero [(22, 42)] ∧
    v = { s with pow.levels := (List.range 5).map (fun i => r.p (16 + i) 1), pow.savedLevels := if r.bit 21 0 then some ((List.range 5).map (fun i => r.p (16 + i) 1)) else s.pow.savedLevels } ∧
    v.levelOf s.pow.ps = s.pow.vid :=
  ⟨up, _, req 0 [(16, 0), (17, 1), (18, 3), (19, 3), (20, 3)],
    by unfold State.Takes State.MbxIdle State.Calm; decide +kernel, by decide +kernel, by decide +kernel,
    by unfold State.MayStore; decide +kernel, by decide +kernel, by decide +kernel, by unfold MbxReq.Zero; decide +kernel,
    rfl, by decide +kernel⟩

/-- The hypotheses of `PolicyCommands`, clause 3, meet. -/
theorem witness_policyCommands_3 : ∃ (s : State) (u : State) (r : MbxReq),
    s.Takes r ∧
    r.target = 0#32 ∧
    s.hem.actStep = 0 ∧
    (r.bit 21 0 = true → s.MayStore r) ∧
    (∀ o ∈ levelOffences r, o = none) ∧
    r.p 21 1 < 2 ∧
    r.Zero [(22, 42)] ∧
    u = { s.begun 0x0603#16 r with pow.levels := (List.range 5).map (fun i => r.p (16 + i) 1), pow.savedLevels := if r.bit 21 0 then some ((List.range 5).map (fun i => r.p (16 + i) 1)) else s.pow.savedLevels } ∧
    u.levelOf s.pow.ps ≠ s.pow.vid ∧
    s.lastCall = false ∧
    (u.moveTo s.pow.ps).pow.step ≠ .none :=
  ⟨up, _, req 0 [(16, 1), (17, 2), (18, 3), (19, 3), (20, 3)],
    by unfold State.Takes State.MbxIdle State.Calm; decide +kernel, by decide +kernel, by decide +kernel,
    by unfold State.MayStore; decide +kernel, by decide +kernel, by decide +kernel, by unfold MbxReq.Zero; decide +kernel,
    rfl, by decide +kernel⟩

/-- The hypotheses of `PolicyCommands`, clause 4, meet. -/
theorem witness_policyCommands_4 : ∃ (s : State) (v : State) (r : MbxReq),
    s.Takes r ∧
    r.target = 0#32 ∧
    (r.bit 16 3 = true → s.MayStore r) ∧
    (∀ o ∈ thermalOffences r s, o = none) ∧
    r.bit 16 2 = false ∧
    v = { s with therm.cfg := thermalApply r s.therm.cfg, therm.saved := if r.bit 16 3 then some (thermalApply r s.therm.cfg) else s.therm.saved } :=
  ⟨up, _, req 0 [], by unfold State.Takes State.MbxIdle State.Calm; decide +kernel, by decide +kernel,
    by unfold State.MayStore; decide +kernel, by decide +kernel, by decide +kernel, rfl⟩

/-- The hypotheses of `PolicyCommands`, clause 5, meet. -/
theorem witness_policyCommands_5 : ∃ (s : State) (u : State) (r : MbxReq),
    s.Takes r ∧
    r.target = 0#32 ∧
    (r.bit 16 3 = true → s.MayStore r) ∧
    (∀ o ∈ thermalOffences r s, o = none) ∧
    r.bit 16 2 = true ∧
    (r.p 32 8 ≠ 0 → s.bme = true) ∧
    u = (({ s.begun 0x0604#16 r with therm.cfg := thermalApply r s.therm.cfg, therm.saved := if r.bit 16 3 then some (thermalApply r s.therm.cfg) else s.therm.saved } : State).enableInputs (BitVec.ofNat 16 (r.p 22 2))) :=
  ⟨up, _, req 0 [(16, 4), (22, 3), (24, 10300)], by unfold State.Takes State.MbxIdle State.Calm; decide +kernel,
    by decide +kernel, by unfold State.MayStore; decide +kernel, by decide +kernel, by decide +kernel, by decide +kernel,
    rfl⟩

/-- The hypotheses of `PolicyCommands`, clause 6, meet. -/
theorem witness_policyCommands_6 : ∃ (s : State) (r : MbxReq),
    s.Takes r ∧
    r.target = 0#32 ∧
    s.supply.ewLatched = false ∧
    s.supply.testWait = none ∧
    s.supply.testRun = none ∧
    r.Zero [(16, 48)] :=
  ⟨up, req 0 [], by unfold State.Takes State.MbxIdle State.Calm; decide +kernel, by decide +kernel, by decide +kernel,
    by decide +kernel, by decide +kernel, by unfold MbxReq.Zero; decide +kernel⟩

/-- The hypotheses of `PolicyCommands`, clause 7, meet. -/
theorem witness_policyCommands_7 : ∃ (s : State) (u : State) (r : MbxReq),
    s.Takes r ∧
    r.target = 0#32 ∧
    (r.bit 20 3 = true → s.MayStore r) ∧
    (∀ o ∈ capSetOffences r, o = none) ∧
    r.p 20 1 < 16 ∧
    r.Zero [(21, 3), (42, 22)] ∧
    u = (({ s.begun 0x0607#16 r with supply.savedProf := if r.bit 20 3 then some (capSetApply r (s.supply.savedProf.getD State.reset.supply.prof)) else s.supply.savedProf, supply.prof := capSetApply r s.supply.prof, supply.capReached := if r.bit 20 0 then false else s.supply.capReached, supply.capShortUs := if r.bit 20 0 then none else s.supply.capShortUs } : State).recap.charge) :=
  ⟨up, _, req 0 [], by unfold State.Takes State.MbxIdle State.Calm; decide +kernel, by decide +kernel,
    by unfold State.MayStore; decide +kernel, by decide +kernel, by decide +kernel, by unfold MbxReq.Zero; decide +kernel,
    rfl⟩

/-- The hypotheses of `PolicyCommands`, clause 8, meet. -/
theorem witness_policyCommands_8 : ∃ (s : State) (r : MbxReq),
    s.Takes r ∧
    r.target = 0#32 ∧
    r.p 16 1 ≤ 1 ∧
    r.p 17 1 ≤ 1 ∧
    r.p 18 1 < 4 ∧
    s.aon.straps.mgrSel = 2#2 ∧
    (s.host.joined = true → r.p 16 1 = 0) ∧
    (r.bit 18 0 = true → portOf (r.p 16 1) = s.mbx.manager) ∧
    s.hem.actStep = 0 ∧
    (r.bit 18 1 = true → s.MayStore r) ∧
    r.Zero [(19, 45)] :=
  ⟨{ up with aon.straps.mgrSel := 2#2 }, req 0 [(16, 1), (17, 1)],
    by unfold State.Takes State.MbxIdle State.Calm; decide +kernel, by decide +kernel, by decide +kernel, by decide +kernel,
    by decide +kernel, by decide +kernel, by decide +kernel, by decide +kernel, by decide +kernel,
    by unfold State.MayStore; decide +kernel, by unfold MbxReq.Zero; decide +kernel⟩

/-- The hypotheses of `FirmwareCommands`, clause 1, meet. -/
theorem witness_firmwareCommands_1 : ∃ (s : State) (r : MbxReq) (xs : List Nat),
    s.Takes r ∧
    r.target = 0#32 ∧
    s.MayStore r ∧
    s.bme = true ∧
    r.Buffer 16 24 1 ∧
    s.hem.actStep = 0 ∧
    r.p 28 4 = 0 ∧
    headerBad r.env.buf = false ∧
    r.p 24 4 ≤ bufNum r.env.buf 8 4 ∧
    r.p 24 4 ≤ 8388608 ∧
    (r.p 24 4 % 4096 = 0 ∨ r.p 24 4 = bufNum r.env.buf 8 4) ∧
    (s.twin s.otherTwin).st ≠ 6 ∧
    r.Zero [(32, 32)] ∧
    xs = ((List.range ((r.p 24 4 + 4095) / 4096)).map (0 + ·)).foldl addOnce [] :=
  ⟨up, reqIn 0 [(24, 1024)] header1, _, by unfold State.Takes State.MbxIdle State.Calm; decide +kernel, by decide +kernel,
    by unfold State.MayStore; decide +kernel, by decide +kernel, by unfold MbxReq.Buffer; decide +kernel, by decide +kernel,
    by decide +kernel, by decide +kernel, by decide +kernel, by decide +kernel, by decide +kernel, by decide +kernel,
    by unfold MbxReq.Zero; decide +kernel, rfl⟩

/-- The hypotheses of `FirmwareCommands`, clause 2, meet. -/
theorem witness_firmwareCommands_2 : ∃ (s : State) (r : MbxReq) (want : Nat) (ys : List Nat) (xs : List Nat),
    s.Takes r ∧
    r.target = 0#32 ∧
    s.MayStore r ∧
    s.bme = true ∧
    r.Buffer 16 24 1 ∧
    s.hem.actStep = 0 ∧
    0 < r.p 28 4 ∧
    r.p 28 4 % 4096 = 0 ∧
    s.hem.session = some (want, ys) ∧
    r.p 28 4 + r.p 24 4 ≤ want ∧
    r.p 28 4 + r.p 24 4 ≤ 8388608 ∧
    (r.p 24 4 % 4096 = 0 ∨ r.p 28 4 + r.p 24 4 = want) ∧
    (s.twin s.otherTwin).st ≠ 6 ∧
    r.Zero [(32, 32)] ∧
    xs = ((List.range ((r.p 24 4 + 4095) / 4096)).map (r.p 28 4 / 4096 + ·)).foldl addOnce ys :=
  ⟨{ up with hem.session := some (8192, [0]) }, reqIn 0 [(24, 4096), (28, 4096)] [], 8192, [0], [0, 1],
    by unfold State.Takes State.MbxIdle State.Calm; decide +kernel, by decide +kernel,
    by unfold State.MayStore; decide +kernel, by decide +kernel, by unfold MbxReq.Buffer; decide +kernel, by decide +kernel,
    by decide +kernel, by decide +kernel, by decide +kernel, by decide +kernel, by decide +kernel, by decide +kernel,
    by decide +kernel, by unfold MbxReq.Zero; decide +kernel, by decide +kernel⟩

/-- The hypotheses of `FirmwareCommands`, clause 3, meet. -/
theorem witness_firmwareCommands_3 : ∃ (s : State) (u : State) (r : MbxReq) (x : Twin),
    s.Takes r ∧
    r.target = 0#32 ∧
    s.supply.ewLatched = false ∧
    s.hem.actStep = 0 ∧
    s.sessionFull = true ∧
    x = s.twin s.otherTwin ∧
    x.magic = true ∧
    x.headerOk = true ∧
    x.revision = 0x21 ∧
    x.parts.testBit s.board.part.no = true ∧
    s.hem.minSvn ≤ x.svn ∧
    x.keyIndex ≤ 1 ∧
    x.whole = true ∧
    (r.env.verdict < 7 ∨ 9 < r.env.verdict) ∧
    r.Zero [(16, 48)] ∧
    u = ({ s with fresh := s.fresh + 1, hem.session := none } : State).setTwin s.otherTwin { x with verdict := 0, st := 3, digest := Config.freeNat s.fresh } :=
  ⟨upTwin 1, _, req 0 [], _, by unfold State.Takes State.MbxIdle State.Calm; decide +kernel, by decide +kernel,
    by decide +kernel, by decide +kernel, by decide +kernel, rfl, by decide +kernel, by decide +kernel, by decide +kernel,
    by decide +kernel, by decide +kernel, by decide +kernel, by decide +kernel, by decide +kernel,
    by unfold MbxReq.Zero; decide +kernel, rfl⟩

/-- The hypotheses of `FirmwareCommands`, clause 4, meet. -/
theorem witness_firmwareCommands_4 : ∃ (s : State) (r : MbxReq),
    s.Takes r ∧
    r.target = 0#32 ∧
    s.MayStore r ∧
    s.hem.actStep = 0 ∧
    ((s.twin s.otherTwin).st = 3 ∨ (s.twin s.otherTwin).st = 6) ∧
    s.hem.minSvn ≤ (s.twin s.otherTwin).svn ∧
    r.p 16 1 = 1 ∧
    r.Zero [(17, 47)] :=
  ⟨upTwin 3, req 0 [(16, 1)], by unfold State.Takes State.MbxIdle State.Calm; decide +kernel, by decide +kernel,
    by unfold State.MayStore; decide +kernel, by decide +kernel, by decide +kernel, by decide +kernel, by decide +kernel,
    by unfold MbxReq.Zero; decide +kernel⟩

/-- The hypotheses of `FirmwareCommands`, clause 5, meet. -/
theorem witness_firmwareCommands_5 : ∃ (s : State) (r : MbxReq),
    s.Takes r ∧
    r.target = 0#32 ∧
    s.MayStore r ∧
    s.hem.actStep = 0 ∧
    ((s.twin s.otherTwin).st = 3 ∨ (s.twin s.otherTwin).st = 6) ∧
    s.hem.minSvn ≤ (s.twin s.otherTwin).svn ∧
    r.p 16 1 = 0 ∧
    s.resetFree = true ∧
    s.standby.isSome = true ∧
    r.Zero [(17, 47)] :=
  ⟨upTwin 3, req 0 [], by unfold State.Takes State.MbxIdle State.Calm; decide +kernel, by decide +kernel,
    by unfold State.MayStore; decide +kernel, by decide +kernel, by decide +kernel, by decide +kernel, by decide +kernel,
    by decide +kernel, by decide +kernel, by unfold MbxReq.Zero; decide +kernel⟩

/-- The hypotheses of `FirmwareCommands`, clause 6, meet. -/
theorem witness_firmwareCommands_6 : ∃ (s : State) (r : MbxReq),
    s.Takes r ∧
    r.target = 0#32 ∧
    s.MayStore r ∧
    s.hem.actStep = 0 ∧
    (s.twin s.otherTwin).st = 6 ∧
    r.Zero [(16, 48)] :=
  ⟨upTwin 6, req 0 [], by unfold State.Takes State.MbxIdle State.Calm; decide +kernel, by decide +kernel,
    by unfold State.MayStore; decide +kernel, by decide +kernel, by decide +kernel, by unfold MbxReq.Zero; decide +kernel⟩

/-- The hypotheses of `FirmwareCommands`, clause 7, meet. -/
theorem witness_firmwareCommands_7 : ∃ (s : State) (r : MbxReq),
    s.Takes r ∧
    r.target = 0#32 ∧
    s.MayStore r ∧
    s.hem.actStep = 0 ∧
    (s.twin s.otherTwin).st = 3 ∧
    s.hem.minSvn ≤ (s.twin s.otherTwin).svn ∧
    s.resetFree = true ∧
    s.standby.isSome = true ∧
    r.Zero [(16, 48)] :=
  ⟨upTwin 3, req 0 [], by unfold State.Takes State.MbxIdle State.Calm; decide +kernel, by decide +kernel,
    by unfold State.MayStore; decide +kernel, by decide +kernel, by decide +kernel, by decide +kernel, by decide +kernel,
    by decide +kernel, by unfold MbxReq.Zero; decide +kernel⟩

/-- The hypotheses of `RecordCommands`, clause 1, meet. -/
theorem witness_recordCommands_1 : ∃ (s : State) (r : MbxReq),
    s.Takes r ∧
    r.target = 0#32 ∧
    r.p 16 2 ≤ 1000 ∧
    s.pbFrozen = false ∧
    s.pb.deferred = false ∧
    r.Zero [(18, 46)] :=
  ⟨up, req 0 [(16, 1000)], by unfold State.Takes State.MbxIdle State.Calm; decide +kernel, by decide +kernel,
    by decide +kernel, by decide +kernel, by decide +kernel, by unfold MbxReq.Zero; decide +kernel⟩

/-- The hypotheses of `RecordCommands`, clause 2, meet. -/
theorem witness_recordCommands_2 : ∃ (s : State) (r : MbxReq),
    s.Takes r ∧
    r.target = 0#32 ∧
    s.pbFrozen = true ∧
    r.Zero [(16, 48)] :=
  ⟨{ up with pb.frozen := some 6000000 }, req 0 [], by unfold State.Takes State.MbxIdle State.Calm; decide +kernel,
    by decide +kernel, by decide +kernel, by unfold MbxReq.Zero; decide +kernel⟩

/-- The hypotheses of `RecordCommands`, clause 3, meet. -/
theorem witness_recordCommands_3 : ∃ (s : State) (r : MbxReq) (k : Nat) (t : Tenant),
    s.Takes r ∧
    r.target ≠ 0#32 ∧
    s.Names 1 r k k t ∧
    t.frozen = false ∧
    (r.bit 20 2 = true → s.MayStore r) ∧
    60 ≤ r.p 16 4 ∧
    r.p 16 4 ≤ 86400 ∧
    r.p 20 1 < 8 ∧
    r.bit 20 1 = false ∧
    r.Zero [(21, 43)] :=
  ⟨up, req 0x10002001 [(16, 60), (20, 5)], 2, tenant2, by unfold State.Takes State.MbxIdle State.Calm; decide +kernel,
    by decide +kernel, by unfold State.Names; decide +kernel, by decide +kernel, by unfold State.MayStore; decide +kernel,
    by decide +kernel, by decide +kernel, by decide +kernel, by decide +kernel, by unfold MbxReq.Zero; decide +kernel⟩

/-- The hypotheses of `RecordCommands`, clause 4, meet. -/
theorem witness_recordCommands_4 : ∃ (s : State) (u : State) (r : MbxReq) (k : Nat) (t : Tenant),
    s.Takes r ∧
    r.target ≠ 0#32 ∧
    s.Names 1 r k k t ∧
    t.frozen = false ∧
    (r.bit 20 2 = true → s.MayStore r) ∧
    60 ≤ r.p 16 4 ∧
    r.p 16 4 ≤ 86400 ∧
    r.p 20 1 < 8 ∧
    r.bit 20 1 = true ∧
    r.Zero [(21, 43)] ∧
    u = ((s.begun 0x0704#16 r).setTenant k { t with nextLenS := r.p 16 4, nextAlign := r.bit 20 0, savedEpoch := if r.bit 20 2 then some (r.p 16 4, r.bit 20 0) else t.savedEpoch }).closeEpoch k 2 :=
  ⟨up, _, req 0x10002001 [(16, 86400), (20, 2)], 2, tenant2, by unfold State.Takes State.MbxIdle State.Calm; decide +kernel,
    by decide +kernel, by unfold State.Names; decide +kernel, by decide +kernel, by unfold State.MayStore; decide +kernel,
    by decide +kernel, by decide +kernel, by decide +kernel, by decide +kernel, by unfold MbxReq.Zero; decide +kernel, rfl⟩

/-- The hypotheses of `RecordCommands`, clause 5, meet. -/
theorem witness_recordCommands_5 : ∃ (s : State) (u : State) (r : MbxReq),
    s.Takes r ∧
    r.target = 0#32 ∧
    (r.bit 20 2 = true → s.MayStore r) ∧
    60 ≤ r.p 16 4 ∧
    r.p 16 4 ≤ 86400 ∧
    r.p 20 1 < 8 ∧
    r.Zero [(21, 43)] ∧
    u = ((s.host.tenants.filter (fun p => !p.2.frozen)).map (·.1)).foldl (fun s k => s.setEpoch k (r.p 16 4) (r.bit 20 0) (r.bit 20 1) (r.bit 20 2)) (s.begun 0x0704#16 r) :=
  ⟨up, _, req 0 [(16, 60), (20, 7)], by unfold State.Takes State.MbxIdle State.Calm; decide +kernel, by decide +kernel,
    by unfold State.MayStore; decide +kernel, by decide +kernel, by decide +kernel, by decide +kernel,
    by unfold MbxReq.Zero; decide +kernel, rfl⟩

/-- The hypotheses of `RecordCommands`, clause 6, meet. -/
theorem witness_recordCommands_6 : ∃ (s : State) (u : State) (r : MbxReq),
    s.Takes r ∧
    r.target = 0#32 ∧
    r.env.hemOk = true ∧
    s.supply.ewLatched = false ∧
    r.p 16 8 ≠ 0 ∧
    r.Zero [(24, 40)] ∧
    u = { s.begun 0x0706#16 r with yard.offset := (r.p 16 8 : Int) - (s.now / 1000 : Nat), yard.stale := false } :=
  ⟨up, _, req 0 [(16, 1)], by unfold State.Takes State.MbxIdle State.Calm; decide +kernel, by decide +kernel,
    by decide +kernel, by decide +kernel, by decide +kernel, by unfold MbxReq.Zero; decide +kernel, rfl⟩

/-- The hypotheses of `RecordCommands`, clause 7, meet. -/
theorem witness_recordCommands_7 : ∃ (s : State) (r : MbxReq) (k : Nat) (t : Tenant),
    s.Takes r ∧
    r.target ≠ 0#32 ∧
    s.Names 1 r k k t ∧
    t.frozen = false ∧
    s.MayStore r ∧
    s.overThreshold k { t with threshold := r.p 16 2 } = false ∧
    r.p 18 1 = 0 ∧
    r.Zero [(19, 45)] :=
  ⟨up, req 0x10002001 [(16, 1)], 2, tenant2, by unfold State.Takes State.MbxIdle State.Calm; decide +kernel,
    by decide +kernel, by unfold State.Names; decide +kernel, by decide +kernel, by unfold State.MayStore; decide +kernel,
    by decide +kernel, by decide +kernel, by unfold MbxReq.Zero; decide +kernel⟩

/-- The hypotheses of `RecordCommands`, clause 8, meet. -/
theorem witness_recordCommands_8 : ∃ (s : State) (r : MbxReq) (k : Nat) (t : Tenant),
    s.Takes r ∧
    r.target ≠ 0#32 ∧
    s.Names 1 r k k t ∧
    t.frozen = false ∧
    s.MayStore r ∧
    s.overThreshold k { t with threshold := r.p 16 2 } = true ∧
    t.quarantined = false ∧
    r.p 18 1 = 0 ∧
    r.Zero [(19, 45)] :=
  ⟨upWith { tenant2 with violations := 4 }, req 0x10002001 [(16, 4)], 2, { tenant2 with violations := 4 },
    by unfold State.Takes State.MbxIdle State.Calm; decide +kernel, by decide +kernel, by unfold State.Names; decide +kernel,
    by decide +kernel, by unfold State.MayStore; decide +kernel, by decide +kernel, by decide +kernel, by decide +kernel,
    by unfold MbxReq.Zero; decide +kernel⟩

/-- The hypotheses of `RecordCommands`, clause 9, meet. -/
theorem witness_recordCommands_9 : ∃ (s : State) (u : State) (r : MbxReq),
    s.Takes r ∧
    r.target = 0#32 ∧
    s.MayStore r ∧
    r.p 18 1 < 2 ∧
    r.Zero [(19, 45)] ∧
    u = { s.begun 0x0A05#16 r with selv.threshold := r.p 16 2 } :=
  ⟨up, _, req 0 [(16, 65535), (18, 1)], by unfold State.Takes State.MbxIdle State.Calm; decide +kernel, by decide +kernel,
    by unfold State.MayStore; decide +kernel, by decide +kernel, by unfold MbxReq.Zero; decide +kernel, rfl⟩

/-- The hypotheses of `SanitiseCommands`, clause 1, meet. -/
theorem witness_sanitiseCommands_1 : ∃ (s : State) (r : MbxReq) (q : MbxReq),
    q = withAction r 1 ∧
    s.Takes q ∧
    q.target = 0#32 ∧
    s.supply.ewLatched = false ∧
    s.hem.actStep = 0 ∧
    (∀ p ∈ s.host.tenants, p.2.formatting ≠ 1) ∧
    ¬ (s.san.s.failMode = true ∧ s.san.s.failRestricted = true ∧ q.bit 17 0 = true) ∧
    q.p 17 1 < 2 ∧
    q.Zero [(18, 46)] :=
  ⟨up, req 0 [(17, 1)], _, rfl, by unfold State.Takes State.MbxIdle State.Calm; decide +kernel, by decide +kernel,
    by decide +kernel, by decide +kernel, by decide +kernel, by decide +kernel, by decide +kernel,
    by unfold MbxReq.Zero; decide +kernel⟩

/-- The hypotheses of `SanitiseCommands`, clause 2, meet. -/
theorem witness_sanitiseCommands_2 : ∃ (s : State) (r : MbxReq) (q : MbxReq),
    q = withAction r 2 ∧
    s.Takes q ∧
    q.target = 0#32 ∧
    s.cipher = true ∧
    s.supply.ewLatched = false ∧
    s.hem.actStep = 0 ∧
    (∀ p ∈ s.host.tenants, p.2.formatting ≠ 1) ∧
    ¬ (s.san.s.failMode = true ∧ s.san.s.failRestricted = true ∧ q.bit 17 0 = true) ∧
    q.p 17 1 < 2 ∧
    q.Zero [(18, 46)] :=
  ⟨up, req 0 [], _, rfl, by unfold State.Takes State.MbxIdle State.Calm; decide +kernel, by decide +kernel,
    by decide +kernel, by decide +kernel, by decide +kernel, by decide +kernel, by decide +kernel, by decide +kernel,
    by unfold MbxReq.Zero; decide +kernel⟩

/-- The hypotheses of `SanitiseCommands`, clause 3, meet. -/
theorem witness_sanitiseCommands_3 : ∃ (s : State) (r : MbxReq) (q : MbxReq),
    q = withAction r 3 ∧
    s.Takes q ∧
    q.target = 0#32 ∧
    s.supply.ewLatched = false ∧
    s.hem.actStep = 0 ∧
    (∀ p ∈ s.host.tenants, p.2.formatting ≠ 1) ∧
    s.san.s.failMode = true ∧
    s.san.s.failRestricted = false ∧
    q.p 17 1 < 2 ∧
    q.Zero [(18, 46)] :=
  ⟨{ up with san.s.failMode := true }, req 0 [], _, rfl, by unfold State.Takes State.MbxIdle State.Calm; decide +kernel,
    by decide +kernel, by decide +kernel, by decide +kernel, by decide +kernel, by decide +kernel, by decide +kernel,
    by decide +kernel, by unfold MbxReq.Zero; decide +kernel⟩

/-- The hypotheses of `SanitiseCommands`, clause 4, meet. -/
theorem witness_sanitiseCommands_4 : ∃ (s : State) (r : MbxReq) (k : Nat) (t : Tenant),
    s.Takes r ∧
    s.Names 1 r k k t ∧
    t.frozen = false ∧
    s.supply.ewLatched = false ∧
    1 ≤ r.p 16 1 ∧
    r.p 16 1 ≤ 3 ∧
    r.p 17 1 ≤ 2 ∧
    (r.p 17 1 = 2 → s.cipher = true) ∧
    r.p 18 1 ≤ 1 ∧
    (nsHas (r.p 16 1) 1 = true → s.nsze t 1 ≠ 0) ∧
    (nsHas (r.p 16 1) 2 = true → s.nsze t 2 ≠ 0) ∧
    r.Zero [(19, 45)] :=
  ⟨up, req 0x10002001 [(16, 1), (17, 2), (18, 1)], 2, tenant2,
    by unfold State.Takes State.MbxIdle State.Calm; decide +kernel, by unfold State.Names; decide +kernel, by decide +kernel,
    by decide +kernel, by decide +kernel, by decide +kernel, by decide +kernel, by decide +kernel, by decide +kernel,
    by decide +kernel, by decide +kernel, by unfold MbxReq.Zero; decide +kernel⟩

/-- The hypotheses of `DebugCommands`, clause 1, meet. -/
theorem witness_debugCommands_1 : ∃ (s : State) (u : State) (r : MbxReq),
    s.Takes r ∧
    r.target = 0#32 ∧
    s.bme = true ∧
    s.supply.ewLatched = false ∧
    r.p 16 1 = 0 ∧
    r.Buffer 24 32 80 ∧
    r.Zero [(17, 7), (36, 28)] ∧
    u = r.output { s.begun 0x0A01#16 r with fresh := s.fresh + 1, dbg.nonce := some (s.fresh, s.now), dbg.nonces := s.dbg.nonces + 1 } 24 32 (bytesLE 32 (Config.freeNat s.fresh) ++ bytesLE 48 Config.deviceId) :=
  ⟨up, _, req 0 [(24, 64), (32, 80)], by unfold State.Takes State.MbxIdle State.Calm; decide +kernel, by decide +kernel,
    by decide +kernel, by decide +kernel, by decide +kernel, by unfold MbxReq.Buffer; decide +kernel,
    by unfold MbxReq.Zero; decide +kernel, rfl⟩

/-- The hypotheses of `DebugCommands`, clause 3, meet. -/
theorem witness_debugCommands_3 : ∃ (s : State) (u : State) (r : MbxReq),
    s.Takes r ∧
    r.target = 0#32 ∧
    s.supply.ewLatched = false ∧
    r.p 16 1 = 2 ∧
    r.p 32 4 = 0 ∧
    r.Zero [(17, 7), (36, 28)] ∧
    u = (s.begun 0x0A01#16 r).endAuth 2 :=
  ⟨up, _, req 0 [(16, 2)], by unfold State.Takes State.MbxIdle State.Calm; decide +kernel, by decide +kernel,
    by decide +kernel, by decide +kernel, by decide +kernel, by unfold MbxReq.Zero; decide +kernel, rfl⟩

/-- The hypotheses of `DebugCommands`, clause 4, meet. -/
theorem witness_debugCommands_4 : ∃ (s : State) (u : State) (r : MbxReq) (bs : List (List Byte)),
    s.Takes r ∧
    r.target = 0#32 ∧
    s.bme = true ∧
    s.supply.ewLatched = false ∧
    1 ≤ r.p 16 1 ∧
    r.p 16 1 ≤ 16 ∧
    r.p 17 1 < 2 ∧
    r.p 24 8 % 64 = 0 ∧
    r.p 32 4 = 32 * r.p 16 1 ∧
    r.env.bufOk = true ∧
    bs = (List.range (r.p 16 1)).map (fun i => ((r.input (32 * r.p 16 1)).drop (32 * i)).take 32) ∧
    (∀ b ∈ bs, s.frayRuleOk b = true) ∧
    s.authorised = true ∧
    s.dbg.perms.getLsbD 0 = true ∧
    r.Zero [(18, 6), (36, 28)] ∧
    u = ({ s.begun 0x0A02#16 r with dbg.armed := true, dbg.trigOut := r.bit 17 0, dbg.rules := bs.map frayRuleOf } : State).selvedge { source := 5, code := 0x62, detail := 1, answer := 5 } :=
  ⟨{ up with dbg.authUntil := some 9000000, dbg.perms := 1#8 }, _, reqIn 0 [(16, 1), (32, 32)] rule1, _,
    by unfold State.Takes State.MbxIdle State.Calm; decide +kernel, by decide +kernel, by decide +kernel, by decide +kernel,
    by decide +kernel, by decide +kernel, by decide +kernel, by decide +kernel, by decide +kernel, by decide +kernel, rfl,
    by decide +kernel, by decide +kernel, by decide +kernel, by unfold MbxReq.Zero; decide +kernel, rfl⟩

/-- The hypotheses of `DebugCommands`, clause 5, meet. -/
theorem witness_debugCommands_5 : ∃ (s : State) (r : MbxReq),
    ({ s with dbg.armed := false } : State).Takes r ∧
    r.target = 0#32 ∧
    s.supply.ewLatched = false ∧
    r.Zero [(16, 48)] :=
  ⟨{ up with dbg.armed := true }, req 0 [], by unfold State.Takes State.MbxIdle State.Calm; decide +kernel,
    by decide +kernel, by decide +kernel, by unfold MbxReq.Zero; decide +kernel⟩

/-- The hypotheses of `QueuedStartAndWarmReset`, clause 1, meet. -/
theorem witness_queuedStartAndWarmReset_1 : ∃ (s : State) (r : MbxReq),
    s.Takes r ∧
    r.target = 0#32 ∧
    s.supply.ewLatched = false ∧
    r.Zero [(16, 48)] :=
  ⟨up, req 0 [], by unfold State.Takes State.MbxIdle State.Calm; decide +kernel, by decide +kernel, by decide +kernel,
    by unfold MbxReq.Zero; decide +kernel⟩

/-- The hypotheses of `QueuedStartAndWarmReset`, clause 2, meet. -/
theorem witness_queuedStartAndWarmReset_2 : ∃ (s : State) (c : MbxCmd),
    c ∈ s.mbx.accepted ∧
    s.mbxMayStart c = true ∧
    (∀ d ∈ s.mbx.accepted, s.mbxMayStart d = true → d = c ∨ c.seq < d.seq) :=
  ⟨{ up with mbx.accepted := [accepted1] }, accepted1, by decide +kernel⟩

/-- The hypotheses of `IoCommands`, clause 1, meet. -/
theorem witness_ioCommands_1 : ∃ (s : State) (u : State) (c : NvmeCmd) (e : Sqe) (io : IoArgs) (slot : Nat) (n : Nat) (t : Tenant) (o : Outst),
    s.Granted c e 0x02#8 u ∧
    ioInEntry io e = true ∧
    u.tenantOf c.fn = some slot ∧
    t = u.tenantD slot ∧
    u.outstAt c.fn c.sqid c.cid = some o ∧
    n = io.nlb + 1 ∧
    io.slba + n ≤ u.nsze t c.nsid.toNat ∧
    dataFaults c io.mptr t.lbaf = [] :=
  ⟨grant upOut (ent cmd1 2 0 0 65535 0), upOut, cmd1, ent cmd1 2 0 0 65535 0, ⟨0, 65535, 0#4, 0#16, 0⟩, 2, 65536, tenant2, _,
    by unfold State.Granted; exact ⟨by decide +kernel, rfl, by decide +kernel, rfl, rfl⟩, by decide +kernel,
    by decide +kernel, by decide +kernel, rfl, by decide +kernel⟩

/-- The hypotheses of `IoCommands`, clause 2, meet. -/
theorem witness_ioCommands_2 : ∃ (s : State) (u : State) (c : NvmeCmd) (e : Sqe) (io : IoArgs) (slot : Nat) (n : Nat) (t : Tenant),
    s.Granted c e 0x01#8 u ∧
    ioInEntry io e = true ∧
    u.tenantOf c.fn = some slot ∧
    t = u.tenantD slot ∧
    n = io.nlb + 1 ∧
    (if c.nsid.toNat = 1 then io.slba + 1 else io.slba + n) ≤ u.nsze t c.nsid.toNat :=
  ⟨grant up (ent cmd1 1 8 0 7 0), up, cmd1, ent cmd1 1 8 0 7 0, ⟨8, 7, 0#4, 0#16, 0⟩, 2, 8, tenant2,
    by unfold State.Granted; exact ⟨by decide +kernel, rfl, by decide +kernel, rfl, rfl⟩, by decide +kernel⟩

/-- The hypotheses of `IoCommands`, clause 3, meet. -/
theorem witness_ioCommands_3 : ∃ (s : State) (u : State) (c : NvmeCmd) (e : Sqe) (io : IoArgs) (slot : Nat) (n : Nat) (t : Tenant),
    s.Granted c e 0x7D#8 u ∧
    ioInEntry io e = true ∧
    u.tenantOf c.fn = some slot ∧
    t = u.tenantD slot ∧
    n = io.nlb + 1 ∧
    c.nsid = 1#32 ∧
    io.slba + 1 ≤ u.nsze t 1 :=
  ⟨grant up (ent cmd1 0x7D 8 0 7 0), up, cmd1, ent cmd1 0x7D 8 0 7 0, ⟨8, 7, 0#4, 0#16, 0⟩, 2, 8, tenant2,
    by unfold State.Granted; exact ⟨by decide +kernel, rfl, by decide +kernel, rfl, rfl⟩, by decide +kernel⟩

/-- The hypotheses of `IoCommands`, clause 4, meet. -/
theorem witness_ioCommands_4 : ∃ (s : State) (u : State) (c : NvmeCmd) (e : Sqe) (io : IoArgs) (slot : Nat) (n : Nat) (t : Tenant),
    s.Granted c e 0x08#8 u ∧
    ioInEntry io e = true ∧
    u.tenantOf c.fn = some slot ∧
    t = u.tenantD slot ∧
    n = io.nlb + 1 ∧
    (if c.nsid.toNat = 1 then io.slba + 1 else io.slba + n) ≤ u.nsze t c.nsid.toNat :=
  ⟨grant up (ent cmd1 8 8 0 7 0), up, cmd1, ent cmd1 8 8 0 7 0, ⟨8, 7, 0#4, 0#16, 0⟩, 2, 8, tenant2,
    by unfold State.Granted; exact ⟨by decide +kernel, rfl, by decide +kernel, rfl, rfl⟩, by decide +kernel⟩

/-- The hypotheses of `IoCommands`, clause 5, meet. -/
theorem witness_ioCommands_5 : ∃ (s : State) (u : State) (c : NvmeCmd) (e : Sqe),
    s.Granted c e 0x00#8 u :=
  ⟨grant up (ent cmd1 0 0 0 0 0), up, cmd1, ent cmd1 0 0 0 0 0, by unfold State.Granted; exact ⟨by decide +kernel, rfl,
    by decide +kernel, rfl, rfl⟩⟩

/-- The hypotheses of `IoCommands`, clause 6, meet. -/
theorem witness_ioCommands_6 : ∃ (s : State) (u : State) (c : NvmeCmd) (e : Sqe) (slot : Nat) (slba : Nat) (action : Nat) (all : Bool),
    s.Granted c e 0x79#8 u ∧
    isSend action slba all e = true ∧
    u.tenantOf c.fn = some slot ∧
    (all = true ∨ slba < u.nsze (u.tenantD slot) 1 ∧ slba % max 1 u.zsize = 0) ∧
    action = 3 :=
  ⟨grant up (ent cmd1 0x79 0 0 0 0x103), up, cmd1, ent cmd1 0x79 0 0 0 0x103, 2, 0, 3, true,
    by unfold State.Granted; exact ⟨by decide +kernel, rfl, by decide +kernel, rfl, rfl⟩, by decide +kernel⟩

/-- The hypotheses of `IoCommands`, clause 7, meet. -/
theorem witness_ioCommands_7 : ∃ (s : State) (u : State) (c : NvmeCmd) (e : Sqe) (slot : Nat) (slba : Nat) (action : Nat) (all : Bool),
    s.Granted c e 0x79#8 u ∧
    isSend action slba all e = true ∧
    u.tenantOf c.fn = some slot ∧
    (all = true ∨ slba < u.nsze (u.tenantD slot) 1 ∧ slba % max 1 u.zsize = 0) ∧
    action = 1 :=
  ⟨grant up (ent cmd1 0x79 0 0 0 1), up, cmd1, ent cmd1 0x79 0 0 0 1, 2, 0, 1, false,
    by unfold State.Granted; exact ⟨by decide +kernel, rfl, by decide +kernel, rfl, rfl⟩, by decide +kernel⟩

/-- The hypotheses of `IoCommands`, clause 8, meet. -/
theorem witness_ioCommands_8 : ∃ (s : State) (u : State) (c : NvmeCmd) (e : Sqe) (slot : Nat) (slba : Nat) (action : Nat) (all : Bool),
    s.Granted c e 0x79#8 u ∧
    isSend action slba all e = true ∧
    u.tenantOf c.fn = some slot ∧
    (all = true ∨ slba < u.nsze (u.tenantD slot) 1 ∧ slba % max 1 u.zsize = 0) ∧
    action = 2 :=
  ⟨grant up (ent cmd1 0x79 0 0 0 2), up, cmd1, ent cmd1 0x79 0 0 0 2, 2, 0, 2, false,
    by unfold State.Granted; exact ⟨by decide +kernel, rfl, by decide +kernel, rfl, rfl⟩, by decide +kernel⟩

/-- The hypotheses of `IoCommands`, clause 9, meet. -/
theorem witness_ioCommands_9 : ∃ (s : State) (u : State) (c : NvmeCmd) (e : Sqe) (slot : Nat) (slba : Nat) (action : Nat) (all : Bool),
    s.Granted c e 0x79#8 u ∧
    isSend action slba all e = true ∧
    u.tenantOf c.fn = some slot ∧
    (all = true ∨ slba < u.nsze (u.tenantD slot) 1 ∧ slba % max 1 u.zsize = 0) ∧
    action = 4 :=
  ⟨grant up (ent cmd1 0x79 0 0 0 4), up, cmd1, ent cmd1 0x79 0 0 0 4, 2, 0, 4, false,
    by unfold State.Granted; exact ⟨by decide +kernel, rfl, by decide +kernel, rfl, rfl⟩, by decide +kernel⟩

/-- The hypotheses of `IoCommands`, clause 10, meet. -/
theorem witness_ioCommands_10 : ∃ (s : State) (u : State) (c : NvmeCmd) (e : Sqe) (slot : Nat) (slba : Nat) (zrasf : Nat) (z0 : Nat) (t : Tenant) (zs : List Nat),
    s.Granted c e 0x7A#8 u ∧
    slba = e.dw10.toNat + e.dw11.toNat * 2 ^ 32 ∧
    u.tenantOf c.fn = some slot ∧
    t = u.tenantD slot ∧
    zrasf < 8 ∧
    slba < u.nsze t 1 ∧
    dataFaults c 0 0 = [] ∧
    z0 = slba / max 1 u.zsize ∧
    zs = ((List.range (t.quota - z0)).map (fun j => z0 + j)).filter (fun z => zrasfTakes zrasf (t.zone z).st) :=
  ⟨grant up (ent cmd1 0x7A 0 0 0 0), up, cmd1, ent cmd1 0x7A 0 0 0 0, 2, 0, 7, _, tenant2, _,
    by unfold State.Granted; exact ⟨by decide +kernel, rfl, by decide +kernel, rfl, rfl⟩, by decide +kernel,
    by decide +kernel, by decide +kernel, by decide +kernel, by decide +kernel, by decide +kernel, rfl, rfl⟩

/-- The hypotheses of `AdminMediaCommands`, clause 1, meet. -/
theorem witness_adminMediaCommands_1 : ∃ (s : State) (u : State) (c : NvmeCmd) (e : Sqe) (ofst : Nat) (data : List Byte),
    s.Granted c e 0x11#8 u ∧
    e.dw11.toNat * 4 = ofst ∧
    (e.dw10.toNat + 1) * 4 = data.length ∧
    ofst % 4096 = 0 ∧
    data.length % 4096 = 0 ∧
    ofst + data.length ≤ 8388608 ∧
    (∀ p ∈ u.hem.download, ofst + data.length ≤ p.1 * 4096 ∨ (p.1 + p.2) * 4096 ≤ ofst) ∧
    dataFaults c 0 0 = [] :=
  ⟨grant up (ent cmdM 0x11 1023 (2047 * 1024) 0 0), up, cmdM, ent cmdM 0x11 1023 (2047 * 1024) 0 0, 2047 * 4096,
    List.replicate 4096 0#8, by unfold State.Granted; exact ⟨by decide +kernel, rfl, by decide +kernel, rfl, rfl⟩,
    by decide +kernel, by rw [List.length_replicate]; decide +kernel, by decide +kernel, by rw [List.length_replicate],
    by rw [List.length_replicate], (by intro p h; cases h), by decide +kernel⟩

/-- The hypotheses of `AdminMediaCommands`, clause 2, meet. -/
theorem witness_adminMediaCommands_2 : ∃ (s : State) (u : State) (v : State) (c : NvmeCmd) (e : Sqe) (ca : BitVec 3) (fs : Nat) (slot : Nat),
    s.Granted c e 0x10#8 u ∧
    s.hem.actStep = 0 ∧
    e.dw10.toNat % 8 = fs ∧
    e.dw10.extractLsb' 3 3 = ca ∧
    fs ≤ 2 ∧
    slot = (if fs = 0 then u.otherTwin else fs) ∧
    v = { u with hem.download := [], hem.downloadHdr := (default : Twin) } ∧
    u.supply.ewLatched = false ∧
    slot ≠ u.hem.running ∧
    ca = 2#3 ∧
    ((u.twin slot).st = 3 ∨ (u.twin slot).st = 6) ∧
    u.hem.minSvn ≤ (u.twin slot).svn :=
  ⟨grant (upTwin 3) (ent cmdM 0x10 16 0 0 0), upTwin 3, _, cmdM, ent cmdM 0x10 16 0 0 0, 2#3, 0, 2,
    by unfold State.Granted; exact ⟨by decide +kernel, rfl, by decide +kernel, rfl, rfl⟩, by decide +kernel,
    by decide +kernel, by decide +kernel, by decide +kernel, by decide +kernel, rfl, by decide +kernel⟩

/-- The hypotheses of `AdminMediaCommands`, clause 3, meet. -/
theorem witness_adminMediaCommands_3 : ∃ (s : State) (u : State) (v : State) (c : NvmeCmd) (e : Sqe) (ca : BitVec 3) (fs : Nat) (slot : Nat),
    s.Granted c e 0x10#8 u ∧
    s.hem.actStep = 0 ∧
    e.dw10.toNat % 8 = fs ∧
    e.dw10.extractLsb' 3 3 = ca ∧
    fs ≤ 2 ∧
    slot = (if fs = 0 then u.otherTwin else fs) ∧
    v = { u with hem.download := [], hem.downloadHdr := (default : Twin) } ∧
    u.supply.ewLatched = false ∧
    slot ≠ u.hem.running ∧
    ca = 3#3 ∧
    ((u.twin slot).st = 3 ∨ (u.twin slot).st = 6) ∧
    u.hem.minSvn ≤ (u.twin slot).svn ∧
    v.resetFree = true ∧
    v.standby.isSome = true :=
  ⟨grant (upTwin 3) (ent cmdM 0x10 24 0 0 0), upTwin 3, _, cmdM, ent cmdM 0x10 24 0 0 0, 3#3, 0, 2,
    by unfold State.Granted; exact ⟨by decide +kernel, rfl, by decide +kernel, rfl, rfl⟩, by decide +kernel,
    by decide +kernel, by decide +kernel, by decide +kernel, by decide +kernel, rfl, by decide +kernel⟩

/-- The hypotheses of `AdminMediaCommands`, clause 4, meet. -/
theorem witness_adminMediaCommands_4 : ∃ (s : State) (u : State) (v : State) (w : State) (c : NvmeCmd) (e : Sqe) (ca : BitVec 3) (fs : Nat) (slot : Nat) (verdict : Nat),
    s.Granted c e 0x10#8 u ∧
    s.hem.actStep = 0 ∧
    e.dw10.toNat % 8 = fs ∧
    e.dw10.extractLsb' 3 3 = ca ∧
    fs ≤ 2 ∧
    slot = (if fs = 0 then u.otherTwin else fs) ∧
    v = { u with hem.download := [], hem.downloadHdr := (default : Twin), hem.session := none } ∧
    u.supply.ewLatched = false ∧
    slot ≠ u.hem.running ∧
    ca.toNat ≤ 1 ∧
    (v.setTwin slot { u.hem.downloadHdr with st := 1, whole := u.downloadFull }).verifyTwin slot u.downloadFull verdict = (0,
      w) :=
  ⟨grant upDown (ent cmdM 0x10 10 0 0 0), upDown, _,
    ((({ upDown with hem.download := [], hem.downloadHdr := (default : Twin), hem.session := none } : State).setTwin 2 { upDown.hem.downloadHdr with st := 1, whole := upDown.downloadFull }).verifyTwin 2 upDown.downloadFull 0).2,
    cmdM, ent cmdM 0x10 10 0 0 0, 1#3, 2, 2, 0, by unfold State.Granted; exact ⟨by decide +kernel, rfl, by decide +kernel,
    rfl, rfl⟩, by decide +kernel, by decide +kernel, by decide +kernel, by decide +kernel, by decide +kernel, rfl,
    by decide +kernel, by decide +kernel, by decide +kernel, Prod.ext (by decide +kernel) rfl⟩

/-- The hypotheses of `AdminMediaCommands`, clause 5, meet. -/
theorem witness_adminMediaCommands_5 : ∃ (s : State) (u : State) (c : NvmeCmd) (e : Sqe) (lbaf : Nat) (ses : Nat) (slot : Nat) (ns : Nat),
    s.Granted c e 0x80#8 u ∧
    e.dw10.toNat % 16 = lbaf ∧
    e.dw10.toNat / 512 % 8 = ses ∧
    e.dw10.getLsbD 4 = false ∧
    e.dw10.toNat / 32 % 8 = 0 ∧
    e.dw10.getLsbD 8 = false ∧
    lbaf ≤ 1 ∧
    ses ≤ 2 ∧
    (ses = 2 → u.cipher = true) ∧
    u.tenantOf c.fn = some slot ∧
    ns = (if c.nsid = 0xFFFFFFFF#32 then (if u.nsze (u.tenantD slot) 1 = 0 then 0 else 1) + (if u.nsze (u.tenantD slot) 2 = 0 then 0 else 2) else c.nsid.toNat) ∧
    (u.tenantD slot).formatting ≠ 1 ∧
    u.supply.ewLatched = false :=
  ⟨grant up (ent cmdF 0x80 0x401 0 0 0), up, cmdF, ent cmdF 0x80 0x401 0 0 0, 1, 2, 2, _,
    by unfold State.Granted; exact ⟨by decide +kernel, rfl, by decide +kernel, rfl, rfl⟩, by decide +kernel,
    by decide +kernel, by decide +kernel, by decide +kernel, by decide +kernel, by decide +kernel, by decide +kernel,
    by decide +kernel, by decide +kernel, rfl, by decide +kernel⟩

/-- The hypotheses of `AdminMediaCommands`, clause 6, meet. -/
theorem witness_adminMediaCommands_6 : ∃ (s : State) (u : State) (c : NvmeCmd) (e : Sqe) (ause : Bool),
    s.Granted c e 0x84#8 u ∧
    isSanitize 2 ause false e = true ∧
    u.san.s.running = false ∧
    (u.san.s.failMode && u.san.s.failRestricted && ause) = false ∧
    u.hem.actStep = 0 ∧
    (∀ p ∈ u.host.tenants, p.2.formatting ≠ 1) ∧
    u.supply.ewLatched = false :=
  ⟨grant up (ent cmdM 0x84 10 0 0 0), up, cmdM, ent cmdM 0x84 10 0 0 0, true,
    by unfold State.Granted; exact ⟨by decide +kernel, rfl, by decide +kernel, rfl, rfl⟩, by decide +kernel⟩

/-- The hypotheses of `AdminMediaCommands`, clause 7, meet. -/
theorem witness_adminMediaCommands_7 : ∃ (s : State) (u : State) (c : NvmeCmd) (e : Sqe) (ause : Bool),
    s.Granted c e 0x84#8 u ∧
    isSanitize 4 ause false e = true ∧
    u.cipher = true ∧
    u.san.s.running = false ∧
    (u.san.s.failMode && u.san.s.failRestricted && ause) = false ∧
    u.hem.actStep = 0 ∧
    (∀ p ∈ u.host.tenants, p.2.formatting ≠ 1) ∧
    u.supply.ewLatched = false :=
  ⟨grant up (ent cmdM 0x84 4 0 0 0), up, cmdM, ent cmdM 0x84 4 0 0 0, false,
    by unfold State.Granted; exact ⟨by decide +kernel, rfl, by decide +kernel, rfl, rfl⟩, by decide +kernel⟩

/-- The hypotheses of `AdminMediaCommands`, clause 8, meet. -/
theorem witness_adminMediaCommands_8 : ∃ (s : State) (u : State) (c : NvmeCmd) (e : Sqe),
    s.Granted c e 0x84#8 u ∧
    e.dw10.toNat % 8 = 1 ∧
    u.san.s.running = false ∧
    (u.san.s.failMode && u.san.s.failRestricted) = false :=
  ⟨grant up (ent cmdM 0x84 1 0 0 0), up, cmdM, ent cmdM 0x84 1 0 0 0, by unfold State.Granted; exact ⟨by decide +kernel, rfl,
    by decide +kernel, rfl, rfl⟩, by decide +kernel⟩

/-- The hypotheses of `QueueCreation`, clause 1, meet. -/
theorem witness_queueCreation_1 : ∃ (s : State) (u : State) (c : NvmeCmd) (e : Sqe) (qid : Nat) (qsize : Nat) (prp1 : Nat) (cqid : Nat) (qprio : BitVec 2),
    s.Granted c e 0x01#8 u ∧
    e.dw10.toNat = qid + qsize * 65536 ∧
    e.dw11.getLsbD 0 = true ∧
    e.dw11.extractLsb' 1 2 = qprio ∧
    e.dw11.toNat / 65536 = cqid ∧
    1 ≤ qid ∧
    qid ≤ (u.tenantD ((u.tenantOf c.fn).getD 1024)).pairsInForce ∧
    ((u.fn c.fn).sq qid).isSome = false ∧
    1 ≤ qsize ∧
    qsize ≤ 4095 ∧
    prp1 % 4096 = 0 ∧
    cqid ≠ 0 ∧
    ((u.fn c.fn).cq cqid).isSome = true :=
  ⟨grant up0 (ent cmdA 1 (1 + 4095 * 65536) (1 + 65536) 0 0), up0, cmdA, ent cmdA 1 (1 + 4095 * 65536) (1 + 65536) 0 0, 1,
    4095, 4096, 1, _, by unfold State.Granted; exact ⟨by decide +kernel, rfl, by decide +kernel, rfl, rfl⟩,
    by decide +kernel, by decide +kernel, rfl, by decide +kernel⟩

/-- The hypotheses of `QueueCreation`, clause 2, meet. -/
theorem witness_queueCreation_2 : ∃ (s : State) (u : State) (c : NvmeCmd) (e : Sqe) (qid : Nat) (qsize : Nat) (prp1 : Nat) (iv : Nat) (ien : Bool),
    s.Granted c e 0x05#8 u ∧
    e.dw10.toNat = qid + qsize * 65536 ∧
    e.dw11.getLsbD 0 = true ∧
    e.dw11.getLsbD 1 = ien ∧
    e.dw11.toNat / 65536 = iv ∧
    1 ≤ qid ∧
    qid ≤ (u.tenantD ((u.tenantOf c.fn).getD 1024)).pairsInForce ∧
    ((u.fn c.fn).cq qid).isSome = false ∧
    1 ≤ qsize ∧
    qsize ≤ 4095 ∧
    prp1 % 4096 = 0 ∧
    (ien = false ∨ (u.blockOf c.fn iv).isSome = true) :=
  ⟨grant up2 (ent cmdA 5 (1 + 65536) 3 0 0), up2, cmdA, ent cmdA 5 (1 + 65536) 3 0 0, 1, 1, 0, 0, true,
    by unfold State.Granted; exact ⟨by decide +kernel, rfl, by decide +kernel, rfl, rfl⟩, by decide +kernel⟩

/-- The hypotheses of `QueueCreation`, clause 3, meet. -/
theorem witness_queueCreation_3 : ∃ (s : State) (u : State) (c : NvmeCmd) (e : Sqe) (qid : Nat) (q : Sq),
    s.Granted c e 0x00#8 u ∧
    e.dw10.toNat % 65536 = qid ∧
    qid ≠ 0 ∧
    (u.fn c.fn).sq qid = some q ∧
    q.st = .active :=
  ⟨grant up (ent cmdA 0 1 0 0 0), up, cmdA, ent cmdA 0 1 0 0 0, 1, _, by unfold State.Granted; exact ⟨by decide +kernel, rfl,
    by decide +kernel, rfl, rfl⟩, by decide +kernel, by decide +kernel, rfl, by decide +kernel⟩

/-- The hypotheses of `QueueCreation`, clause 4, meet. -/
theorem witness_queueCreation_4 : ∃ (s : State) (u : State) (c : NvmeCmd) (e : Sqe) (qid : Nat),
    s.Granted c e 0x04#8 u ∧
    e.dw10.toNat % 65536 = qid ∧
    qid ≠ 0 ∧
    ((u.fn c.fn).cq qid).isSome = true ∧
    (u.fn c.fn).sqs.any (fun q => decide (q.cqid = qid)) = false :=
  ⟨grant up0 (ent cmdA 4 1 0 0 0), up0, cmdA, ent cmdA 4 1 0 0 0, 1, by unfold State.Granted; exact ⟨by decide +kernel, rfl,
    by decide +kernel, rfl, rfl⟩, by decide +kernel⟩

/-- The hypotheses of `FeatureCommands`, clause 1, meet. -/
theorem witness_featureCommands_1 : ∃ (s : State) (u : State) (c : NvmeCmd) (e : Sqe) (dw11 : BitVec 32) (dw12 : BitVec 32) (data : List Byte) (fid : Nat) (g : Fn → Fn),
    s.Granted c e 0x09#8 u ∧
    setInEntry fid dw11 e = true ∧
    e.dw12 = dw12 ∧
    svOf e = false ∧
    (c.nsid = 0#32 ∨ c.nsid = 0xFFFFFFFF#32) ∧
    (fid = 0x05 ∧ dw11.toNat < 65536 ∧ (g = fun x => { x with tler := dw11.extractLsb' 0 16 }) ∨ fid = 0x0B ∧ dw11 &&& ~~~0x080003FF#32 = 0#32 ∧ (g = fun x => { x with aec := dw11 }) ∨ fid = 0x16 ∧ dw11 = 0#32 ∧ (data.headD 0#8).toNat ≤ 1 ∧ dataFaults c 0 0 = [] ∧ (g = fun x => { x with acre := decide (data.headD 0#8 = 1#8) }) ∨ fid = 0x1D ∧ dw12 = 1#32 ∧ g = id) :=
  ⟨grant up (ent cmdM 9 0x0B 134218751 0 0), up, cmdM, ent cmdM 9 0x0B 134218751 0 0, 134218751#32, 0#32, [], 0x0B,
    fun x => { x with aec := 0x080003FF#32 }, by unfold State.Granted; exact ⟨by decide +kernel, rfl, by decide +kernel, rfl,
    rfl⟩, by decide +kernel, by decide +kernel, by decide +kernel, by decide +kernel,
    Or.inr (Or.inl (And.intro rfl (And.intro rfl rfl)))⟩

/-- The hypotheses of `FeatureCommands`, clause 2, meet. -/
theorem witness_featureCommands_2 : ∃ (s : State) (u : State) (c : NvmeCmd) (e : Sqe) (fid : Nat) (sel : Nat) (dw11 : BitVec 32),
    s.Granted c e 0x0A#8 u ∧
    setInEntry fid dw11 e = true ∧
    e.dw10.toNat / 256 % 8 = sel ∧
    featureIds.contains fid = true ∧
    sel ≤ 2 ∧
    (fid = 0x04 → fieldLE dw11 2 1 % 16 ≤ 2 ∧ fieldLE dw11 2 1 / 16 % 4 ≤ 1) ∧
    fid ≠ 0x0C ∧
    fid ≠ 0x0E ∧
    fid ≠ 0x16 :=
  ⟨grant up (ent cmdM 10 516 1179648 0 0), up, cmdM, ent cmdM 10 516 1179648 0 0, 4, 2, 1179648#32,
    by unfold State.Granted; exact ⟨by decide +kernel, rfl, by decide +kernel, rfl, rfl⟩, by decide +kernel⟩

/-- The hypotheses of `FeatureCommands`, clause 3, meet. -/
theorem witness_featureCommands_3 : ∃ (s : State) (u : State) (c : NvmeCmd) (e : Sqe) (sel : Nat) (dw11 : BitVec 32),
    s.Granted c e 0x0A#8 u ∧
    setInEntry 0x0C dw11 e = true ∧
    e.dw10.toNat / 256 % 8 = sel ∧
    sel ≤ 2 ∧
    dataFaults c 0 0 = [] :=
  ⟨grant up (ent cmdM 10 524 0 0 0), up, cmdM, ent cmdM 10 524 0 0 0, 2, 0#32,
    by unfold State.Granted; exact ⟨by decide +kernel, rfl, by decide +kernel, rfl, rfl⟩, by decide +kernel⟩

/-- The hypotheses of `FeatureCommands`, clause 4, meet. -/
theorem witness_featureCommands_4 : ∃ (s : State) (u : State) (c : NvmeCmd) (e : Sqe) (fid : Nat) (dw11 : BitVec 32),
    s.Granted c e 0x0A#8 u ∧
    setInEntry fid dw11 e = true ∧
    e.dw10.toNat / 256 % 8 = 3 ∧
    featureIds.contains fid = true ∧
    (fid = 0x04 → fieldLE dw11 2 1 % 16 ≤ 2 ∧ fieldLE dw11 2 1 / 16 % 4 ≤ 1) :=
  ⟨grant up (ent cmdM 10 769 0 0 0), up, cmdM, ent cmdM 10 769 0 0 0, 1, 0#32,
    by unfold State.Granted; exact ⟨by decide +kernel, rfl, by decide +kernel, rfl, rfl⟩, by decide +kernel⟩

/-- The hypotheses of `FeatureCommands`, clause 5, meet. -/
theorem witness_featureCommands_5 : ∃ (s : State) (u : State) (c : NvmeCmd) (e : Sqe) (dw11 : BitVec 32),
    s.Granted c e 0x09#8 u ∧
    setInEntry 0x01 dw11 e = true ∧
    svOf e = false ∧
    (c.nsid = 0#32 ∨ c.nsid = 0xFFFFFFFF#32) ∧
    dw11.toNat / 8 % 32 = 0 :=
  ⟨grant up (ent cmdM 9 1 0xFFFFFF07 0 0), up, cmdM, ent cmdM 9 1 0xFFFFFF07 0 0, 0xFFFFFF07#32,
    by unfold State.Granted; exact ⟨by decide +kernel, rfl, by decide +kernel, rfl, rfl⟩, by decide +kernel⟩

/-- The hypotheses of `FeatureCommands`, clause 6, meet. -/
theorem witness_featureCommands_6 : ∃ (s : State) (u : State) (c : NvmeCmd) (e : Sqe) (dw11 : BitVec 32),
    s.Granted c e 0x09#8 u ∧
    setInEntry 0x02 dw11 e = true ∧
    svOf e = false ∧
    (c.nsid = 0#32 ∨ c.nsid = 0xFFFFFFFF#32) ∧
    u.isManager c.fn = true ∧
    s.pow.step = .none ∧
    dw11.toNat ≤ 2 ∧
    ({ u with pow.opPs := dw11.toNat, pow.target := none, pow.attempts := 0, pow.held := none, pow.step := .none } : State).opState = s.pow.ps :=
  ⟨grant up (ent cmdM 9 2 0 0 0), up, cmdM, ent cmdM 9 2 0 0 0, 0#32, by unfold State.Granted; exact ⟨by decide +kernel, rfl,
    by decide +kernel, rfl, rfl⟩, by decide +kernel⟩

/-- The hypotheses of `FeatureCommands`, clause 7, meet. -/
theorem witness_featureCommands_7 : ∃ (s : State) (u : State) (v : State) (c : NvmeCmd) (e : Sqe) (dw11 : BitVec 32),
    s.Granted c e 0x09#8 u ∧
    setInEntry 0x02 dw11 e = true ∧
    svOf e = false ∧
    (c.nsid = 0#32 ∨ c.nsid = 0xFFFFFFFF#32) ∧
    u.isManager c.fn = true ∧
    s.pow.step = .none ∧
    dw11.toNat ≤ 2 ∧
    v = { u with pow.opPs := dw11.toNat, pow.target := none, pow.attempts := 0, pow.held := none, pow.step := .none } ∧
    v.opState ≠ s.pow.ps :=
  ⟨grant up (ent cmdM 9 2 2 0 0), up, _, cmdM, ent cmdM 9 2 2 0 0, 2#32, by unfold State.Granted; exact ⟨by decide +kernel,
    rfl, by decide +kernel, rfl, rfl⟩, by decide +kernel, by decide +kernel, by decide +kernel, by decide +kernel,
    by decide +kernel, by decide +kernel, rfl, by decide +kernel⟩

/-- The hypotheses of `FeatureCommands`, clause 8, meet. -/
theorem witness_featureCommands_8 : ∃ (s : State) (u : State) (c : NvmeCmd) (e : Sqe) (dw11 : BitVec 32),
    s.Granted c e 0x09#8 u ∧
    setInEntry 0x02 dw11 e = true ∧
    svOf e = false ∧
    (c.nsid = 0#32 ∨ c.nsid = 0xFFFFFFFF#32) ∧
    u.isManager c.fn = true ∧
    s.pow.step = .none ∧
    (dw11.toNat = 3 ∧ u.pow.polFlags % 2 = 1 ∨ dw11.toNat = 4 ∧ u.pow.polFlags / 2 % 2 = 1) :=
  ⟨grant up (ent cmdM 9 2 4 0 0), up, cmdM, ent cmdM 9 2 4 0 0, 4#32, by unfold State.Granted; exact ⟨by decide +kernel, rfl,
    by decide +kernel, rfl, rfl⟩, by decide +kernel⟩

/-- The hypotheses of `FeatureCommands`, clause 9, meet. -/
theorem witness_featureCommands_9 : ∃ (s : State) (u : State) (c : NvmeCmd) (e : Sqe) (sel : Nat) (k : Nat) (dw11 : BitVec 32),
    s.Granted c e 0x09#8 u ∧
    setInEntry 0x04 dw11 e = true ∧
    svOf e = false ∧
    (c.nsid = 0#32 ∨ c.nsid = 0xFFFFFFFF#32) ∧
    u.isManager c.fn = true ∧
    dw11.toNat < 2 ^ 22 ∧
    sel = fieldLE dw11 2 1 % 16 ∧
    sel ≤ 2 ∧
    fieldLE dw11 2 1 / 16 % 4 = 0 ∧
    k = fieldLE dw11 0 2 :=
  ⟨grant up (ent cmdM 9 4 0x02FFFF 0 0), up, cmdM, ent cmdM 9 4 0x02FFFF 0 0, _, _, 0x02FFFF#32,
    by unfold State.Granted; exact ⟨by decide +kernel, rfl, by decide +kernel, rfl, rfl⟩, by decide +kernel,
    by decide +kernel, by decide +kernel, by decide +kernel, by decide +kernel, rfl, by decide +kernel, by decide +kernel,
    rfl⟩

/-- The hypotheses of `FeatureCommands`, clause 10, meet. -/
theorem witness_featureCommands_10 : ∃ (s : State) (u : State) (c : NvmeCmd) (e : Sqe) (sel : Nat) (k : Nat) (dw11 : BitVec 32),
    s.Granted c e 0x09#8 u ∧
    setInEntry 0x04 dw11 e = true ∧
    svOf e = false ∧
    (c.nsid = 0#32 ∨ c.nsid = 0xFFFFFFFF#32) ∧
    u.isManager c.fn = true ∧
    dw11.toNat < 2 ^ 22 ∧
    sel = fieldLE dw11 2 1 % 16 ∧
    sel ≤ 2 ∧
    fieldLE dw11 2 1 / 16 % 4 = 1 ∧
    k = fieldLE dw11 0 2 :=
  ⟨grant up (ent cmdM 9 4 0x120000 0 0), up, cmdM, ent cmdM 9 4 0x120000 0 0, _, _, 0x120000#32,
    by unfold State.Granted; exact ⟨by decide +kernel, rfl, by decide +kernel, rfl, rfl⟩, by decide +kernel,
    by decide +kernel, by decide +kernel, by decide +kernel, by decide +kernel, rfl, by decide +kernel, by decide +kernel,
    rfl⟩

/-- The hypotheses of `FeatureCommands`, clause 11, meet. -/
theorem witness_featureCommands_11 : ∃ (s : State) (u : State) (c : NvmeCmd) (e : Sqe) (dw11 : BitVec 32),
    s.Granted c e 0x09#8 u ∧
    setInEntry 0x07 dw11 e = true ∧
    svOf e = false ∧
    (c.nsid = 0#32 ∨ c.nsid = 0xFFFFFFFF#32) ∧
    (∀ q ∈ (u.fn c.fn).sqs, q.qid = 0) ∧
    (∀ q ∈ (u.fn c.fn).cqs, q.qid = 0) :=
  ⟨grant up2 (ent cmd0 9 7 0 0 0), up2, cmd0, ent cmd0 9 7 0 0 0, 0#32, by unfold State.Granted; exact ⟨by decide +kernel,
    rfl, by decide +kernel, rfl, rfl⟩, by decide +kernel⟩

/-- The hypotheses of `FeatureCommands`, clause 12, meet. -/
theorem witness_featureCommands_12 : ∃ (s : State) (u : State) (c : NvmeCmd) (e : Sqe) (dw11 : BitVec 32),
    s.Granted c e 0x09#8 u ∧
    setInEntry 0x08 dw11 e = true ∧
    svOf e = false ∧
    (c.nsid = 0#32 ∨ c.nsid = 0xFFFFFFFF#32) ∧
    dw11.toNat < 2 ^ 16 :=
  ⟨grant up (ent cmd0 9 8 65535 0 0), up, cmd0, ent cmd0 9 8 65535 0 0, 65535#32,
    by unfold State.Granted; exact ⟨by decide +kernel, rfl, by decide +kernel, rfl, rfl⟩, by decide +kernel⟩

/-- The hypotheses of `FeatureCommands`, clause 13, meet. -/
theorem witness_featureCommands_13 : ∃ (s : State) (u : State) (c : NvmeCmd) (e : Sqe) (v : Nat) (dw11 : BitVec 32),
    s.Granted c e 0x09#8 u ∧
    setInEntry 0x09 dw11 e = true ∧
    svOf e = false ∧
    (c.nsid = 0#32 ∨ c.nsid = 0xFFFFFFFF#32) ∧
    dw11.toNat < 2 ^ 17 ∧
    v = dw11.toNat % 65536 ∧
    (u.blockOf c.fn v).isSome = true :=
  ⟨grant up (ent cmd0 9 9 0x1001F 0 0), up, cmd0, ent cmd0 9 9 0x1001F 0 0, _, 0x1001F#32,
    by unfold State.Granted; exact ⟨by decide +kernel, rfl, by decide +kernel, rfl, rfl⟩, by decide +kernel,
    by decide +kernel, by decide +kernel, by decide +kernel, rfl, by decide +kernel⟩

/-- The hypotheses of `FeatureCommands`, clause 14, meet. -/
theorem witness_featureCommands_14 : ∃ (s : State) (u : State) (c : NvmeCmd) (e : Sqe) (sv : Bool) (hemOk : Bool) (dw11 : BitVec 32) (table : List (BitVec 64)),
    s.Granted c e 0x09#8 u ∧
    setInEntry 0x0C dw11 e = true ∧
    svOf e = sv ∧
    (c.nsid = 0#32 ∨ c.nsid = 0xFFFFFFFF#32) ∧
    u.isManager c.fn = true ∧
    dw11.toNat < 2 ∧
    (table.take 32).zipIdx.all (apstEntryOk u.pow.polFlags) = true ∧
    dataFaults c 0 0 = [] ∧
    (sv = true → u.supply.ewLatched = false ∧ hemOk = true) :=
  ⟨grant up (ent cmdM 9 0x8000000C 1 0 0), up, cmdM, ent cmdM 9 0x8000000C 1 0 0, true, true, 1#32, [],
    by unfold State.Granted; exact ⟨by decide +kernel, rfl, by decide +kernel, rfl, rfl⟩, by decide +kernel⟩

/-- The hypotheses of `FeatureCommands`, clause 15, meet. -/
theorem witness_featureCommands_15 : ∃ (s : State) (u : State) (c : NvmeCmd) (e : Sqe),
    s.Granted c e 0x09#8 u ∧
    e.dw10.toNat % 256 = 0x0E ∧
    svOf e = false ∧
    (c.nsid = 0#32 ∨ c.nsid = 0xFFFFFFFF#32) ∧
    dataFaults c 0 0 = [] :=
  ⟨grant up (ent cmdM 9 0x0E 0 0 0), up, cmdM, ent cmdM 9 0x0E 0 0 0, by unfold State.Granted; exact ⟨by decide +kernel, rfl,
    by decide +kernel, rfl, rfl⟩, by decide +kernel⟩

/-- The hypotheses of `FeatureCommands`, clause 16, meet. -/
theorem witness_featureCommands_16 : ∃ (s : State) (u : State) (c : NvmeCmd) (e : Sqe) (sv : Bool) (hemOk : Bool) (dw11 : BitVec 32) (dw12 : BitVec 32),
    s.Granted c e 0x09#8 u ∧
    setInEntry 0xC2 dw11 e = true ∧
    e.dw12 = dw12 ∧
    svOf e = sv ∧
    (c.nsid = 0#32 ∨ c.nsid = 0xFFFFFFFF#32) ∧
    u.isManager c.fn = true ∧
    (sv = true → u.supply.ewLatched = false ∧ hemOk = true) ∧
    50 ≤ fieldLE dw11 0 2 ∧
    fieldLE dw11 0 2 ≤ 2000 ∧
    1 ≤ dw11.toNat / 65536 % 32 ∧
    dw11.toNat / 65536 % 32 ≤ 25 ∧
    dw11.toNat < 2 ^ 21 ∧
    240 ≤ fieldLE dw12 0 2 ∧
    fieldLE dw12 0 2 ≤ 7680 ∧
    dw12.toNat < 2 ^ 16 :=
  ⟨grant up (ent cmdM 9 0x800000C2 0x1907D0 0x1E00 0), up, cmdM, ent cmdM 9 0x800000C2 0x1907D0 0x1E00 0, true, true,
    0x1907D0#32, 0x1E00#32, by unfold State.Granted; exact ⟨by decide +kernel, rfl, by decide +kernel, rfl, rfl⟩,
    by decide +kernel⟩

/-- The hypotheses of `FeatureCommands`, clause 17, meet. -/
theorem witness_featureCommands_17 : ∃ (s : State) (u : State) (c : NvmeCmd) (e : Sqe) (sv : Bool) (hemOk : Bool) (dw11 : BitVec 32) (dw12 : BitVec 32),
    s.Granted c e 0x09#8 u ∧
    setInEntry 0xC3 dw11 e = true ∧
    e.dw12 = dw12 ∧
    svOf e = sv ∧
    (c.nsid = 0#32 ∨ c.nsid = 0xFFFFFFFF#32) ∧
    u.isManager c.fn = true ∧
    (sv = true → u.supply.ewLatched = false ∧ hemOk = true) ∧
    8 ≤ fieldLE dw11 0 1 ∧
    fieldLE dw11 0 1 ≤ 64 ∧
    fieldLE dw11 0 1 + 8 ≤ fieldLE dw11 1 1 ∧
    fieldLE dw11 1 1 ≤ 128 ∧
    1 ≤ fieldLE dw11 2 1 ∧
    fieldLE dw11 2 1 ≤ 32 ∧
    fieldLE dw11 2 1 + 1 ≤ fieldLE dw11 3 1 ∧
    fieldLE dw11 3 1 ≤ 64 ∧
    40 ≤ fieldLE dw12 0 1 ∧
    fieldLE dw12 0 1 ≤ 180 ∧
    1 ≤ fieldLE dw12 1 1 ∧
    fieldLE dw12 1 1 ≤ 100 ∧
    1 ≤ fieldLE dw12 2 2 ∧
    fieldLE dw12 2 2 ≤ 3600 :=
  ⟨grant up (ent cmdM 9 0xC3 0x40208040 0x0E1064B4 0), up, cmdM, ent cmdM 9 0xC3 0x40208040 0x0E1064B4 0, false, true,
    0x40208040#32, 0x0E1064B4#32, by unfold State.Granted; exact ⟨by decide +kernel, rfl, by decide +kernel, rfl, rfl⟩,
    by decide +kernel⟩

/-- The hypotheses of `FeatureCommands`, clause 18, meet. -/
theorem witness_featureCommands_18 : ∃ (s : State) (u : State) (c : NvmeCmd) (e : Sqe) (sv : Bool) (hemOk : Bool) (dw11 : BitVec 32),
    s.Granted c e 0x09#8 u ∧
    setInEntry 0xC4 dw11 e = true ∧
    svOf e = sv ∧
    (c.nsid = 0#32 ∨ c.nsid = 0xFFFFFFFF#32) ∧
    u.isManager c.fn = true ∧
    (sv = true → u.supply.ewLatched = false ∧ hemOk = true) ∧
    32 ≤ fieldLE dw11 0 1 ∧
    fieldLE dw11 0 1 ≤ 60 ∧
    12 ≤ fieldLE dw11 1 1 ∧
    fieldLE dw11 1 1 ≤ 64 ∧
    dw11.toNat < 2 ^ 16 :=
  ⟨grant up (ent cmdM 9 0xC4 0x403C 0 0), up, cmdM, ent cmdM 9 0xC4 0x403C 0 0, false, true, 0x403C#32,
    by unfold State.Granted; exact ⟨by decide +kernel, rfl, by decide +kernel, rfl, rfl⟩, by decide +kernel⟩

/-- The hypotheses of `FeatureCommands`, clause 19, meet. -/
theorem witness_featureCommands_19 : ∃ (s : State) (u : State) (c : NvmeCmd) (e : Sqe) (sv : Bool) (hemOk : Bool) (dw11 : BitVec 32),
    s.Granted c e 0x09#8 u ∧
    setInEntry 0xC5 dw11 e = true ∧
    svOf e = sv ∧
    (c.nsid = 0#32 ∨ c.nsid = 0xFFFFFFFF#32) ∧
    u.isManager c.fn = true ∧
    (sv = true → u.supply.ewLatched = false ∧ hemOk = true) ∧
    8 ≤ fieldLE dw11 0 1 ∧
    fieldLE dw11 0 1 ≤ 255 ∧
    fieldLE dw11 1 1 = 0 ∧
    1 ≤ fieldLE dw11 2 2 ∧
    fieldLE dw11 2 2 ≤ 1000 :=
  ⟨grant up (ent cmdM 9 0xC5 0x03E800FF 0 0), up, cmdM, ent cmdM 9 0xC5 0x03E800FF 0 0, false, true, 0x03E800FF#32,
    by unfold State.Granted; exact ⟨by decide +kernel, rfl, by decide +kernel, rfl, rfl⟩, by decide +kernel⟩

/-- The hypotheses of `FeatureCommands`, clause 20, meet. -/
theorem witness_featureCommands_20 : ∃ (s : State) (u : State) (c : NvmeCmd) (e : Sqe) (dw11 : BitVec 32),
    s.Granted c e 0x09#8 u ∧
    setInEntry 0xC6 dw11 e = true ∧
    svOf e = false ∧
    (c.nsid = 0#32 ∨ c.nsid = 0xFFFFFFFF#32) ∧
    dw11.toNat < 8 ∧
    (dw11.getLsbD 0 = true → u.isManager c.fn = true) :=
  ⟨grant up (ent cmdM 9 0xC6 7 0 0), up, cmdM, ent cmdM 9 0xC6 7 0 0, 7#32,
    by unfold State.Granted; exact ⟨by decide +kernel, rfl, by decide +kernel, rfl, rfl⟩, by decide +kernel⟩

/-- The hypotheses of `LogCommands`, clause 1, meet. -/
theorem witness_logCommands_1 : ∃ (s : State) (u : State) (c : NvmeCmd) (e : Sqe) (lid : Nat) (lsi : Nat) (off : Nat) (rae : Bool) (page : List Byte),
    s.Granted c e 0x02#8 u ∧
    logInEntry lid lsi rae e = true ∧
    (lid = 0x02 → u.composite ≠ none) ∧
    u.logData c.fn lid lsi 0 = .inr page ∧
    off = e.dw12.toNat + e.dw13.toNat * 2 ^ 32 ∧
    off % 4 = 0 ∧
    off ≤ page.length ∧
    dataFaults c 0 0 = [] :=
  ⟨grant up (ent cmdA 2 1 0 16384 0), up, cmdA, ent cmdA 2 1 0 16384 0, 1, 0, 16384, false, _,
    by unfold State.Granted; exact ⟨by decide +kernel, rfl, by decide +kernel, rfl, rfl⟩, by decide +kernel,
    by decide +kernel, rfl, by decide +kernel⟩

/-- The hypotheses of `LogCommands`, clause 2, meet. -/
theorem witness_logCommands_2 : ∃ (s : State) (u : State) (c : NvmeCmd) (e : Sqe) (lsi : Nat) (off : Nat) (rae : Bool) (page : List Byte),
    s.Granted c e 0x02#8 u ∧
    logInEntry 0xC7 lsi rae e = true ∧
    u.logData c.fn 0xC7 lsi 0 = .inr page ∧
    off = e.dw12.toNat + e.dw13.toNat * 2 ^ 32 ∧
    off % 4 = 0 ∧
    off ≤ page.length ∧
    dataFaults c 0 0 = [] :=
  ⟨grant up (ent cmdA 2 0xC7 0 0 0), up, cmdA, ent cmdA 2 0xC7 0 0 0, 0, 0, false, _,
    by unfold State.Granted; exact ⟨by decide +kernel, rfl, by decide +kernel, rfl, rfl⟩, by decide +kernel, rfl,
    by decide +kernel⟩

/-- The hypotheses of `LogCommands`, clause 3, meet. -/
theorem witness_logCommands_3 : ∃ (s : State) (u : State) (c : NvmeCmd) (e : Sqe) (cns : Nat) (csi : Nat) (page : List Byte),
    s.Granted c e 0x06#8 u ∧
    e.dw10.toNat % 256 = cns ∧
    e.dw11.toNat / 2 ^ 24 = csi ∧
    u.identifyData c.fn cns csi c.nsid.toNat = .inr page ∧
    dataFaults c 0 0 = [] :=
  ⟨grant up (ent cmdA 6 1 0 0 0), up, cmdA, ent cmdA 6 1 0 0 0, 1, 0, _, by unfold State.Granted; exact ⟨by decide +kernel,
    rfl, by decide +kernel, rfl, rfl⟩, by decide +kernel, by decide +kernel, rfl, by decide +kernel⟩

/-- The hypotheses of `LogCommands`, clause 4, meet. -/
theorem witness_logCommands_4 : ∃ (s : State) (u : State) (c : NvmeCmd) (e : Sqe) (sqid : Nat) (acid : Nat),
    s.Granted c e 0x08#8 u ∧
    e.dw10.toNat = sqid + acid * 65536 ∧
    u.host.granted = [] ∧
    (sqid = 0 ∨ ∀ q, (u.fn c.fn).sq sqid = some q → q.pre.find? (fun x => decide (x.sqe.cmd.cid = acid)) = none) :=
  ⟨grant up (ent cmdA 8 (1 + 9 * 65536) 0 0 0), up, cmdA, ent cmdA 8 (1 + 9 * 65536) 0 0 0, 1, 9,
    by unfold State.Granted; exact ⟨by decide +kernel, rfl, by decide +kernel, rfl, rfl⟩, by decide +kernel,
    by decide +kernel, Or.inr (by intro q h; cases h; rfl)⟩

/-- The hypotheses of `LogCommands`, clause 5, meet. -/
theorem witness_logCommands_5 : ∃ (s : State) (u : State) (c : NvmeCmd) (e : Sqe) (sqid : Nat) (acid : Nat) (q : Sq) (x : Fetched),
    s.Granted c e 0x08#8 u ∧
    e.dw10.toNat = sqid + acid * 65536 ∧
    u.host.granted = [] ∧
    sqid ≠ 0 ∧
    (u.fn c.fn).sq sqid = some q ∧
    q.pre.find? (fun x => decide (x.sqe.cmd.cid = acid)) = some x :=
  ⟨grant upPre (ent cmdA 8 (1 + 4 * 65536) 0 0 0), upPre, cmdA, ent cmdA 8 (1 + 4 * 65536) 0 0 0, 1, 4, _, _,
    by unfold State.Granted; exact ⟨by decide +kernel, rfl, by decide +kernel, rfl, rfl⟩, by decide +kernel,
    by decide +kernel, by decide +kernel, rfl, rfl⟩

/-- The hypotheses of `LogCommands`, clause 6, meet. -/
theorem witness_logCommands_6 : ∃ (s : State) (u : State) (c : NvmeCmd) (e : Sqe) (x : Nat × Nat × Nat) (r : List (Nat × Nat × Nat)),
    s.Granted c e 0x0C#8 u ∧
    (u.fn c.fn).aers.length < 4 ∧
    (u.fn c.fn).held = x :: r :=
  ⟨grant upHeld (ent cmdA 12 0 0 0 0), upHeld, cmdA, ent cmdA 12 0 0 0 0, (2, 0, 4), [],
    by unfold State.Granted; exact ⟨by decide +kernel, rfl, by decide +kernel, rfl, rfl⟩, by decide +kernel⟩

/-- The hypotheses of `LogCommands`, clause 7, meet. -/
theorem witness_logCommands_7 : ∃ (s : State) (u : State) (c : NvmeCmd) (e : Sqe),
    s.Granted c e 0x0C#8 u ∧
    (u.fn c.fn).aers.length < 4 ∧
    (u.fn c.fn).held = [] :=
  ⟨grant up (ent cmdA 12 0 0 0 0), up, cmdA, ent cmdA 12 0 0 0 0, by unfold State.Granted; exact ⟨by decide +kernel, rfl,
    by decide +kernel, rfl, rfl⟩, by decide +kernel⟩

/-- The hypotheses of `IntakeEvents`, clause 1, meet. -/
theorem witness_intakeEvents_1 : ∃ (s : State) (u : State) (f : FnId) (qid : Nat) (slot : Nat) (t : Nat) (n : Nat) (v : BitVec 32) (q : Sq),
    (s.atTime t).fnExists f = true ∧
    (s.atTime t).tenantOf f = some slot ∧
    u = (s.atTime t).wakeUp 1 slot ∧
    (u.fn f).sq qid = some q ∧
    q.st ≠ .deleting ∧
    v.toNat < q.size ∧
    v.toNat ≠ q.tail ∧
    n = (v.toNat + q.size - q.tail) % q.size :=
  ⟨up, _, f1, 1, 2, 5000000, _, 63#32, _, by decide +kernel, by decide +kernel, rfl, rfl, by decide +kernel,
    by decide +kernel, by decide +kernel, rfl⟩

/-- The hypotheses of `IntakeEvents`, clause 2, meet. -/
theorem witness_intakeEvents_2 : ∃ (s : State) (u : State) (f : FnId) (qid : Nat) (slot : Nat) (t : Nat) (v : BitVec 32) (q : Sq),
    (s.atTime t).fnExists f = true ∧
    (s.atTime t).tenantOf f = some slot ∧
    u = (s.atTime t).wakeUp 1 slot ∧
    (u.fn f).sq qid = some q ∧
    q.st ≠ .deleting ∧
    q.size ≤ v.toNat :=
  ⟨up, _, f1, 1, 2, 5000000, 64#32, _, by decide +kernel, by decide +kernel, rfl, rfl, by decide +kernel⟩

/-- The hypotheses of `IntakeEvents`, clause 3, meet. -/
theorem witness_intakeEvents_3 : ∃ (s : State) (u : State) (w : State) (f : FnId) (qid : Nat) (slot : Nat) (v : BitVec 32) (q : Cq),
    s.fnExists f = true ∧
    s.tenantOf f = some slot ∧
    u = s.wakeUp 1 slot ∧
    (u.fn f).cq qid = some q ∧
    v.toNat < q.size ∧
    (v.toNat + q.size - q.head) % q.size ≤ q.used ∧
    w = ((u.updFn f (fun x => x.updCq qid (fun (q : Cq) => { q with head := v.toNat }))).drainCq q.waiting.length f qid).settleDeletes f :=
  ⟨up, _, _, f1, 1, 2, 0#32, _, by decide +kernel, by decide +kernel, rfl, rfl, by decide +kernel, by decide +kernel, rfl⟩

/-- The hypotheses of `IntakeEvents`, clause 4, meet. -/
theorem witness_intakeEvents_4 : ∃ (s : State) (u : State) (f : FnId) (qid : Nat) (slot : Nat),
    s.fnExists f = true ∧
    s.tenantOf f = some slot ∧
    u = s.wakeUp 1 slot ∧
    (u.fn f).cq qid = none :=
  ⟨up, _, f1, 9, 2, by decide +kernel, by decide +kernel, rfl, by decide +kernel⟩

/-- The hypotheses of `IntakeEvents`, clause 5, meet. -/
theorem witness_intakeEvents_5 : ∃ (s : State) (u : State) (f : FnId) (qid : Nat) (es : List Sqe) (q : Sq),
    (s.fn f).sq qid = some q ∧
    q.tags ≠ 0 ∧
    q.stale = 0 ∧
    es ≠ [] ∧
    es.length + (q.tags - 1) ≤ q.fetching ∧
    (q.tags = 1 → es.length = q.fetching) ∧
    (∀ e ∈ es, e.cmd.fn = f ∧ e.cmd.sqid = qid) ∧
    u = (s.setTags f.port (s.fetchTags f.port - 1)).updFn f (fun x => x.updSq qid (fun (q : Sq) => { q with tags := q.tags - 1, asked := q.asked.drop 1, stale := q.stale - 1 })) :=
  ⟨upFetch, _, f1, 1, [ent cmd1 2 0 0 0 0, ent cmd1 0 0 0 0 0], _, rfl, by decide +kernel, by decide +kernel,
    by decide +kernel, by decide +kernel, by decide +kernel, by decide +kernel, rfl⟩

/-- The hypotheses of `IntakeEvents`, clause 6, meet. -/
theorem witness_intakeEvents_6 : ∃ (s : State) (u : State) (t : Nat) (left : Option (List Nat)) (h : Head),
    u = s.atTime t ∧
    u.longestNext = false ∧
    u.mayGrant = true ∧
    u.pickGrant = some (h, left) :=
  ⟨upPre, _, 5000000, _, _, rfl, by decide +kernel, by decide +kernel, rfl⟩

/-- The hypotheses of `IntakeEvents`, clause 7, meet. -/
theorem witness_intakeEvents_7 : ∃ (s : State) (u : State) (t : Nat) (h : Head),
    u = s.atTime t ∧
    u.longestNext = true ∧
    u.mayGrant = true ∧
    u.pickOldest = some h :=
  ⟨{ upPre with host.nth := 1 }, _, 5000000, _, rfl, by decide +kernel, by decide +kernel, rfl⟩

/-- The hypotheses of `IntakeEvents`, clause 8, meet. -/
theorem witness_intakeEvents_8 : ∃ (s : State) (u : State) (f : FnId) (sqid : Nat) (cid : Nat) (slot : Nat) (t : Nat) (q : Sq) (isIt : Fetched → Bool),
    u = s.atTime t ∧
    u.tenantOf f = some slot ∧
    (u.fn f).sq sqid = some q ∧
    sqid ≠ 0 ∧
    (isIt = fun (e : Fetched) => decide (e.sqe.cmd.cid = cid) && !e.urgent && decide (e.landedUs + u.ageUs ≤ u.now)) ∧
    q.pre.any isIt = true ∧
    queueClass (ccAms (u.fn f).cc) q.prio ≠ 0 :=
  ⟨upPre8, _, f1, 1, 4, 2, 5000000, _, _, rfl, by decide +kernel, rfl, by decide +kernel, rfl, by decide +kernel⟩

/-- The hypotheses of `IntakeEvents`, clause 9, meet. -/
theorem witness_intakeEvents_9 : ∃ (s : State) (u : State) (f : FnId) (v : Nat) (t : Nat),
    u = s.atTime t ∧
    ((u.fn f).entry v).gap = true ∧
    u.gapOver f v = true :=
  ⟨upMsix true, _, f1, 3, 5000000, rfl, by decide +kernel⟩

/-- The hypotheses of `IntakeEvents`, clause 10, meet. -/
theorem witness_intakeEvents_10 : ∃ (s : State) (u : State) (f : FnId) (v : Nat) (t : Nat),
    u = s.atTime t ∧
    ((u.fn f).entry v).gap = false ∧
    ((u.fn f).entry v).unsig ≠ 0 ∧
    ((u.fn f).entry v).firstUs + u.aggTime f v ≤ u.now :=
  ⟨upMsix false, _, f1, 3, 5000000, rfl, by decide +kernel⟩

/-- The hypotheses of `IntakeEvents`, clause 11, meet. -/
theorem witness_intakeEvents_11 : ∃ (s : State) (f : FnId) (entry : Nat) (dword : Nat),
    s.fnExists f = true ∧
    dword < 4 ∧
    (s.blockOf f entry).isSome = true :=
  ⟨up, f1, 31, 3, by decide +kernel⟩

/-- The hypotheses of `IntakeEvents`, clause 12, meet. -/
theorem witness_intakeEvents_12 : ∃ (s : State) (f : FnId) (entry : Nat),
    s.blockOf f entry = none :=
  ⟨up, f1, 32, by decide +kernel⟩

/-- The hypotheses of `ResetEvents`, clause 1, meet. -/
theorem witness_resetEvents_1 : ∃ (s : State) (f : FnId) (v : BitVec 32),
    s.fnExists f = true ∧
    ccEn v = true ∧
    ccEn (s.fn f).cc = false :=
  ⟨{ up with host.fns := [] }, f1, 1#32, by decide +kernel⟩

/-- The hypotheses of `ResetEvents`, clause 2, meet. -/
theorem witness_resetEvents_2 : ∃ (s : State) (f : FnId),
    s.fnExists f = true ∧
    ccEn (s.fn f).cc = true :=
  ⟨up, f1, by decide +kernel⟩

/-- The hypotheses of `ResetEvents`, clause 3, meet. -/
theorem witness_resetEvents_3 : ∃ (s : State) (f : FnId) (shn : BitVec 2),
    s.fnExists f = true ∧
    (shn = 1#2 ∨ shn = 2#2) :=
  ⟨up, f1, 2#2, by decide +kernel⟩

/-- The hypotheses of `ResetEvents`, clause 4, meet. -/
theorem witness_resetEvents_4 : ∃ (s : State) (f : FnId),
    s.fnExists f = true ∧
    (s.wakeUp 3 65535).supply.ewLatched = false :=
  ⟨up, f1, by decide +kernel⟩

/-- The hypotheses of `ResetEvents`, clause 5, meet. -/
theorem witness_resetEvents_5 : ∃ (s : State) (f : FnId),
    s.fnExists f = true ∧
    (s.wakeUp 3 65535).supply.ewLatched = true :=
  ⟨{ up with supply.ewLatched := true }, f1, by decide +kernel⟩

/-- The hypotheses of `ResetEvents`, clause 6, meet. -/
theorem witness_resetEvents_6 : ∃ (s : State) (u : State) (p : Port) (w : Nat),
    2100 ≤ w ∧
    (s.portSt p).perst = false ∧
    u = (s.updPort p (fun x => { x with perst := true, domainOn := false })).linkLost p ∧
    u.supply.ewLatched = false :=
  ⟨up, _, .a, 2100, by decide +kernel, by decide +kernel, rfl, by decide +kernel⟩

/-- The hypotheses of `ResetEvents`, clause 7, meet. -/
theorem witness_resetEvents_7 : ∃ (w : Nat),
    w < 1900 :=
  ⟨1899, by decide +kernel⟩

/-- The hypotheses of `ResetEvents`, clause 8, meet. -/
theorem witness_resetEvents_8 : ∃ (s : State) (u : State) (p : Port) (t : Nat),
    (s.portSt p).perst = true ∧
    u = s.atTime t :=
  ⟨{ up with port.a.perst := true }, _, .a, 5000000, by decide +kernel, rfl⟩

/-- The hypotheses of `ResetEvents`, clause 9, meet. -/
theorem witness_resetEvents_9 : ∃ (s : State) (u : State) (v : State) (f : FnId) (bme : Bool) (mse : Bool) (me : Bool) (fm : Bool) (t : Nat),
    (s.atTime t).portThere f.port = true ∧
    ((s.atTime t).portSt f.port).perst = false ∧
    u = (s.atTime t).wakeUp 3 65535 ∧
    u.fnExists f = true ∧
    u.configServed f.port = true ∧
    v = u.updFn f (fun x => { x with bme := bme, mse := mse, msixEn := me, fmask := fm }) :=
  ⟨up, _, _, f1, true, true, true, false, 5000000, by decide +kernel, by decide +kernel, rfl, by decide +kernel,
    by decide +kernel, rfl⟩

/-- The hypotheses of `ResetEvents`, clause 10, meet. -/
theorem witness_resetEvents_10 : ∃ (s : State) (f : FnId) (t : Nat),
    (s.atTime t).portThere f.port = true ∧
    ((s.atTime t).portSt f.port).perst = false :=
  ⟨up, f1, 5000000, by decide +kernel⟩

/-- The hypotheses of `ResetEvents`, clause 11, meet. -/
theorem witness_resetEvents_11 : ∃ (s : State) (u : State) (p : Port) (n : Nat),
    s.portThere p = true ∧
    s.configServed p = true ∧
    n ≤ 1023 ∧
    u = s.wakeUp 3 65535 ∧
    u.supply.ewLatched = false :=
  ⟨up, _, .a, 1023, by decide +kernel, by decide +kernel, by decide +kernel, rfl, by decide +kernel⟩

/-- The hypotheses of `ResetEvents`, clause 12, meet. -/
theorem witness_resetEvents_12 : ∃ (s : State) (p : Port),
    s.configServed p = false :=
  ⟨up, .b, by decide +kernel⟩

/-- The hypotheses of `LinkEvents`, clause 1, meet. -/
theorem witness_linkEvents_1 : ∃ (s : State) (u : State) (p : Port) (t : Nat),
    (s.portSt p).perst = false ∧
    (s.portSt p).refclk = true ∧
    (s.portSt p).linkUp = false ∧
    s.portThere p = true ∧
    s.supply.portsStopped = false ∧
    u = s.atTime t ∧
    p = u.mbx.manager :=
  ⟨{ up with port.a.linkUp := false }, _, .a, 5000000, by decide +kernel, by decide +kernel, by decide +kernel,
    by decide +kernel, by decide +kernel, rfl, rfl⟩

/-- The hypotheses of `LinkEvents`, clause 2, meet. -/
theorem witness_linkEvents_2 : ∃ (s : State) (u : State) (p : Port) (t : Nat),
    (s.portSt p).perst = false ∧
    (s.portSt p).refclk = true ∧
    (s.portSt p).linkUp = false ∧
    s.portThere p = true ∧
    s.supply.portsStopped = false ∧
    u = (s.atTime t).updPort p (fun x => { x with linkUp := true, l12 := false, width := (s.atTime t).lanes }) ∧
    p ≠ u.mbx.manager :=
  ⟨{ up with port.b.perst := false }, _, .b, 5000000, by decide +kernel, by decide +kernel, by decide +kernel,
    by decide +kernel, by decide +kernel, rfl, by decide +kernel⟩

/-- The hypotheses of `LinkEvents`, clause 3, meet. -/
theorem witness_linkEvents_3 : ∃ (s : State) (u : State) (p : Port) (t : Nat),
    (s.portSt p).linkUp = true ∧
    u = (s.atTime t).updPort p (fun x => { x with linkUp := false, l12 := false }) ∧
    p = u.mbx.manager ∧
    u.mbx.downSince = none ∧
    u.mbxReady p = true :=
  ⟨up, _, .a, 5000000, by decide +kernel, rfl, rfl, by decide +kernel⟩

/-- The hypotheses of `LinkEvents`, clause 4, meet. -/
theorem witness_linkEvents_4 : ∃ (s : State) (u : State) (p : Port) (t : Nat),
    (s.portSt p).linkUp = true ∧
    u = (s.atTime t).updPort p (fun x => { x with linkUp := false, l12 := false }) ∧
    p ≠ u.mbx.manager :=
  ⟨{ up with port.b.linkUp := true }, _, .b, 5000000, by decide +kernel, rfl, by decide +kernel⟩

/-- The hypotheses of `LinkEvents`, clause 5, meet. -/
theorem witness_linkEvents_5 : ∃ (s : State) (p : Port) (w : Nat),
    (s.portSt p).linkUp = true ∧
    (w = 1 ∨ w = 2 ∨ w = 4) ∧
    w < (s.portSt p).width :=
  ⟨up, .a, 2, by decide +kernel⟩

/-- The hypotheses of `LinkEvents`, clause 7, meet. -/
theorem witness_linkEvents_7 : ∃ (s : State) (u : State) (f : FnId),
    s.fnExists f = true ∧
    u = s.emit (.aer f.port (some f)) ∧
    (u.tenantOf f).isSome = true :=
  ⟨up, _, f1, by decide +kernel, rfl, by decide +kernel⟩

/-- The hypotheses of `LinkEvents`, clause 9, meet. -/
theorem witness_linkEvents_9 : ∃ (s : State) (f : FnId) (sqid : Nat) (cid : Nat) (w : Wr),
    s.writeOf f sqid cid = some w ∧
    w.stage = .data ∧
    w.kind ≠ .zeroes ∧
    w.arrived.length < w.len :=
  ⟨{ up with wr.writes := [wr1] }, f1, 1, 4, _, rfl, by decide +kernel⟩

/-- The hypotheses of `LinkEvents`, clause 11, meet. -/
theorem witness_linkEvents_11 : ∃ (s : State) (u : State) (p : Port) (t : Nat),
    (s.portSt p).refclk = true ∧
    (s.portSt p).linkUp = true ∧
    u = (s.atTime t).updPort p (fun x => { x with refclk := false }) :=
  ⟨up, _, .a, 5000000, by decide +kernel, by decide +kernel, rfl⟩

/-- The hypotheses of `LinkEvents`, clause 12, meet. -/
theorem witness_linkEvents_12 : ∃ (s : State) (u : State) (p : Port) (t : Nat),
    (s.portSt p).refclk = true ∧
    (s.portSt p).linkUp = false ∧
    u = (s.atTime t).updPort p (fun x => { x with refclk := false }) :=
  ⟨{ up with port.a.linkUp := false }, _, .a, 5000000, by decide +kernel, by decide +kernel, rfl⟩

/-- The hypotheses of `LinkEvents`, clause 13, meet. -/
theorem witness_linkEvents_13 : ∃ (s : State) (p : Port),
    (s.portSt p).refclk = false :=
  ⟨{ up with port.a.refclk := false }, .a, by decide +kernel⟩

/-- The hypotheses of `LinkEvents`, clause 15, meet. -/
theorem witness_linkEvents_15 : ∃ (s : State) (u : State) (t : Nat),
    u = s.atTime t ∧
    u.therm.latch = false :=
  ⟨up, _, 5000000, rfl, by decide +kernel⟩

/-- The hypotheses of `BootEvents`, clause 2, meet. -/
theorem witness_bootEvents_2 : ∃ (us : Nat),
    0 < us :=
  ⟨1, by decide +kernel⟩

/-- The hypotheses of `BootEvents`, clause 3, meet. -/
theorem witness_bootEvents_3 : ∃ (s : State) (n : Nat),
    s.clk.src = .rcQualify ∧
    (n < 994 ∨ 1054 < n) :=
  ⟨State.reset, 993, by decide +kernel⟩

/-- The hypotheses of `BootEvents`, clause 4, meet. -/
theorem witness_bootEvents_4 : ∃ (s : State) (n : Nat),
    s.clk.src = .rcQualify ∧
    994 ≤ n ∧
    n ≤ 1054 ∧
    s.clk.run < 7 :=
  ⟨State.reset, 1054, by decide +kernel⟩

/-- The hypotheses of `BootEvents`, clause 5, meet. -/
theorem witness_bootEvents_5 : ∃ (s : State) (n : Nat),
    s.clk.src = .rcQualify ∧
    994 ≤ n ∧
    n ≤ 1054 ∧
    s.clk.run = 7 :=
  ⟨{ State.reset with clk.run := 7 }, 994, by decide +kernel⟩

/-- The hypotheses of `BootEvents`, clause 6, meet. -/
theorem witness_bootEvents_6 : ∃ (s : State) (n : Nat),
    s.clk.src = .crystal ∧
    (n < 994 ∨ 1054 < n) ∧
    s.clk.bad = 1 :=
  ⟨{ up with clk.bad := 1 }, 1055, by decide +kernel⟩

/-- The hypotheses of `BootEvents`, clause 7, meet. -/
theorem witness_bootEvents_7 : ∃ (s : State),
    s.clk.src = .rcQualify :=
  ⟨State.reset, by decide +kernel⟩

/-- The hypotheses of `BootEvents`, clause 8, meet. -/
theorem witness_bootEvents_8 : ∃ (s : State),
    s.aon.coreReset = true ∧
    s.aon.lastReset ≠ 0 ∧
    s.aon.testHold = false ∧
    s.clk.src ≠ .rcQualify :=
  ⟨{ up with aon.coreReset := true, aon.lastReset := 1 }, by decide +kernel⟩

/-- The hypotheses of `BootEvents`, clause 9, meet. -/
theorem witness_bootEvents_9 : ∃ (s : State) (vcore : Bool) (vsram : Bool),
    (s.aon.testHold = true ∨ s.clk.src = .rcQualify ∨ vcore = false ∨ vsram = false) :=
  ⟨State.reset, true, true, by decide +kernel⟩

/-- The hypotheses of `BootEvents`, clause 10, meet. -/
theorem witness_bootEvents_10 : ∃ (s : State) (u : State) (t : Nat),
    u = s.atTime t ∧
    u.supply.ewLatched = true ∧
    u.therm.latch = false ∧
    u.supply.flushing = false ∧
    u.supply.prof.minMv ≤ u.supply.bankMv ∧
    u.supply.prof.ewMv + 200 ≤ u.supply.vinMv :=
  ⟨{ up with supply.ewLatched := true, supply.bankMv := 40000, supply.vinMv := 12000 }, _, 5000001, rfl, by decide +kernel⟩

/-- The hypotheses of `BootEvents`, clause 11, meet. -/
theorem witness_bootEvents_11 : ∃ (s : State) (u : State) (t : Nat),
    u = s.atTime t ∧
    (u.therm.latch = true ∨ u.supply.ewLatched = false) :=
  ⟨up, _, 5000001, rfl, by decide +kernel⟩

/-- The hypotheses of `SupplyEvents`, clause 1, meet. -/
theorem witness_supplyEvents_1 : ∃ (s : State) (u : State) (t : Nat),
    u = s.atTime t ∧
    u.supply.armed = true ∧
    u.supply.ewLatched = false :=
  ⟨{ up with supply.armed := true }, _, 5000000, rfl, by decide +kernel⟩

/-- The hypotheses of `SupplyEvents`, clause 2, meet. -/
theorem witness_supplyEvents_2 : ∃ (s : State) (u : State) (t : Nat),
    u = s.atTime t ∧
    (u.supply.armed = false ∨ u.supply.ewLatched = true) :=
  ⟨{ up with supply.armed := false }, _, 5000000, rfl, by decide +kernel⟩

/-- The hypotheses of `SupplyEvents`, clause 3, meet. -/
theorem witness_supplyEvents_3 : ∃ (s : State) (u : State) (t : Nat) (vinMv : Nat),
    u = s.atTime t ∧
    u.supply.ewLatched = true ∧
    vinMv < u.supply.prof.hardMv ∧
    u.supply.flushSealed = false ∧
    u.supply.holdEn = true :=
  ⟨{ upFlush with supply.holdEn := true }, _, 5000000, 9000, rfl, by decide +kernel⟩

/-- The hypotheses of `SupplyEvents`, clause 4, meet. -/
theorem witness_supplyEvents_4 : ∃ (s : State) (u : State) (t : Nat) (vinMv : Nat),
    u = s.atTime t ∧
    u.supply.ewLatched = true ∧
    vinMv < u.supply.prof.hardMv ∧
    u.supply.flushSealed = false ∧
    u.supply.holdEn = false :=
  ⟨{ upFlush with supply.holdEn := false }, _, 5000000, 9000, rfl, by decide +kernel⟩

/-- The hypotheses of `SupplyEvents`, clause 5, meet. -/
theorem witness_supplyEvents_5 : ∃ (s : State) (u : State) (e : FlushEnd),
    u = s.atTime e.us ∧
    u.supply.flushing = true ∧
    u.therm.shutDue = false :=
  ⟨upFlush, _, ⟨5000000, [(⟨2, 8⟩, 1)]⟩, rfl, by decide +kernel⟩

/-- The hypotheses of `SupplyEvents`, clause 6, meet. -/
theorem witness_supplyEvents_6 : ∃ (s : State) (u : State) (e : FlushEnd),
    u = s.atTime e.us ∧
    u.supply.flushing = true ∧
    u.therm.shutDue = true :=
  ⟨{ upFlush with therm.shutDue := true }, _, ⟨5000000, []⟩, rfl, by decide +kernel⟩

/-- The hypotheses of `SupplyEvents`, clause 7, meet. -/
theorem witness_supplyEvents_7 : ∃ (s : State) (vinMv : Nat),
    s.Calm ∧
    s.supply.holdEn = true ∧
    s.supply.prof.ewMv + 200 ≤ vinMv :=
  ⟨{ up with supply.holdEn := true }, 20000, by unfold State.Calm; decide +kernel, by decide +kernel⟩

/-- The hypotheses of `SupplyEvents`, clause 8, meet. -/
theorem witness_supplyEvents_8 : ∃ (s : State) (u : State) (t : Nat) (bankMv : Nat) (vinMv : Nat),
    u = s.atTime t ∧
    u.supply.flushing = true ∧
    u.supply.onInput = false ∧
    bankMv < u.supply.prof.minMv ∧
    u.supply.prof.ewMv + 200 ≤ vinMv :=
  ⟨upFlush, _, 5000000, 0, 20000, rfl, by decide +kernel⟩

/-- The hypotheses of `SupplyEvents`, clause 9, meet. -/
theorem witness_supplyEvents_9 : ∃ (s : State) (u : State) (v : State) (t : Nat) (bankMv : Nat) (vinMv : Nat),
    u = s.atTime t ∧
    u.supply.flushing = true ∧
    u.supply.onInput = false ∧
    bankMv < u.supply.prof.minMv ∧
    vinMv < u.supply.prof.ewMv + 200 ∧
    v = { u with supply.bankMv := bankMv, supply.vinMv := vinMv } :=
  ⟨upFlush, _, _, 5000000, 0, 0, rfl, by decide +kernel, by decide +kernel, by decide +kernel, by decide +kernel, rfl⟩

/-- The hypotheses of `SupplyEvents`, clause 10, meet. -/
theorem witness_supplyEvents_10 : ∃ (s : State) (vinMv : Nat),
    s.supply.armed = false ∧
    s.supply.prof.ewMv + 200 ≤ vinMv :=
  ⟨{ up with supply.armed := false }, 20000, by decide +kernel⟩

/-- The hypotheses of `SupplyEvents`, clause 12, meet. -/
theorem witness_supplyEvents_12 : ∃ (s : State) (u : State) (t : Nat) (bankMv : Nat) (dq : Int),
    u = ({ s.atTime t with supply.bankMv := bankMv, supply.qUc := s.supply.qUc + dq } : State).gaugeTick :=
  ⟨up, _, 5000000, 30000, 5, rfl⟩

/-- The hypotheses of `SupplyEvents`, clause 14, meet. -/
theorem witness_supplyEvents_14 : ∃ (s : State) (u : State) (t : Nat) (y : Nat) (v : Nat),
    u = s.atTime t ∧
    u.supply.capNext = some (y, v) ∧
    v + 100000 ≤ u.now :=
  ⟨{ up with supply.capNext := some (4096, 4900000) }, _, 5000000, _, _, rfl, rfl, by decide +kernel⟩

/-- The hypotheses of `SupplyEvents`, clause 15, meet. -/
theorem witness_supplyEvents_15 : ∃ (s : State) (u : State) (t : Nat),
    u = s.atTime t ∧
    u.testFree = true ∧
    u.pow.ps < 3 ∧
    u.supply.testRetry = none ∧
    u.supply.lastTestUs + u.supply.prof.testPeriodH * 3600000000 ≤ u.now :=
  ⟨{ upT with aon.us := 700000000000 }, _, 700000000000, rfl, by decide +kernel⟩

/-- The hypotheses of `SupplyEvents`, clause 16, meet. -/
theorem witness_supplyEvents_16 : ∃ (s : State) (u : State) (t : Nat) (v : Nat),
    u = s.atTime t ∧
    u.testFree = true ∧
    u.supply.testRetry = some v ∧
    v + 60000000 ≤ u.now :=
  ⟨{ upT with supply.testRetry := some 0 }, _, 60000000, _, rfl, by decide +kernel, rfl, by decide +kernel⟩

/-- The hypotheses of `SupplyEvents`, clause 17, meet. -/
theorem witness_supplyEvents_17 : ∃ (s : State) (u : State) (t : Nat) (v : Nat),
    u = s.atTime t ∧
    u.supply.testWait = some v ∧
    v + 1000000 ≤ u.now ∧
    u.supply.testCmd = none :=
  ⟨upTestWait, _, 5000000, _, rfl, rfl, by decide +kernel⟩

/-- The hypotheses of `SupplyEvents`, clause 18, meet. -/
theorem witness_supplyEvents_18 : ∃ (s : State) (u : State) (t : Nat) (v : Nat) (c : MbxCmd),
    u = s.atTime t ∧
    u.supply.testWait = some v ∧
    v + 1000000 ≤ u.now ∧
    u.supply.testCmd = some c :=
  ⟨{ upTestWait with supply.testCmd := some accepted1 }, _, 5000000, _, _, rfl, rfl, by decide +kernel, rfl⟩

/-- The hypotheses of `SupplyEvents`, clause 19, meet. -/
theorem witness_supplyEvents_19 : ∃ (s : State) (u : State) (v : State) (t : Nat) (dq : Nat) (dv : Nat) (c : Nat) (res : Nat) (timedOut : Bool),
    u = s.atTime t ∧
    u.supply.testRun ≠ none ∧
    c = (if dv = 0 then 0 else dq * 1000 / dv) ∧
    (res = (if timedOut = true ∨ 2 * c < u.supply.prof.cRatedUf then 3 else if 10 * c < 8 * u.supply.prof.cRatedUf then 2 else 1)) ∧
    v = ({ u with supply.cMeasUf := c, supply.cTested := true, supply.lastTest := res, supply.lastTestUs := u.now, supply.backupFailed := decide (res = 3) || (u.supply.backupFailed && decide (res ≠ 1)), supply.noSealWarn := u.supply.noSealWarn && decide (res ≠ 1) } : State).pbExtreme 16 c :=
  ⟨upTest, _, _, 5000000, 100, 7, _, _, false, rfl, by decide +kernel, rfl, rfl, rfl⟩

/-- The hypotheses of `PowerEvents`, clause 1, meet. -/
theorem witness_powerEvents_1 : ∃ (s : State) (u : State) (t : Nat) (itps : Nat) (itpt : Nat),
    u = s.atTime t ∧
    u.apstOf u.pow.ps = (itps, itpt) ∧
    u.pow.apste = true ∧
    u.idle = true ∧
    3 ≤ itps ∧
    itps ≤ 4 ∧
    u.pow.ps < itps ∧
    u.psPermitted itps = true ∧
    u.pow.step = .none ∧
    u.lastCall = false ∧
    u.pow.idleUs + itpt * 1000 ≤ u.now :=
  ⟨{ up with pow.apste := true, pow.apst := [0x218#64] }, _, 5000000, _, _, rfl, rfl, by decide +kernel⟩

/-- The hypotheses of `PowerEvents`, clause 2, meet. -/
theorem witness_powerEvents_2 : ∃ (s : State) (u : State) (t : Nat),
    u = s.atTime t ∧
    u.pow.apste = false :=
  ⟨up, _, 5000000, rfl, by decide +kernel⟩

/-- The hypotheses of `PowerEvents`, clause 3, meet. -/
theorem witness_powerEvents_3 : ∃ (s : State) (u : State) (t : Nat),
    u = s.atTime t ∧
    u.pow.step = .drain ∧
    u.drained = true :=
  ⟨upStep .drain, _, 5000000, rfl, by decide +kernel⟩

/-- The hypotheses of `PowerEvents`, clause 4, meet. -/
theorem witness_powerEvents_4 : ∃ (s : State) (u : State) (t : Nat),
    u = s.atTime t ∧
    u.pow.step = .drain ∧
    u.drained = false :=
  ⟨{ upStep .drain with wr.writes := [wr1] }, _, 5000000, rfl, by decide +kernel⟩

/-- The hypotheses of `PowerEvents`, clause 5, meet. -/
theorem witness_powerEvents_5 : ∃ (s : State) (u : State) (d : Nat) (t : Nat),
    u = s.atTime t ∧
    u.asked = some d ∧
    u.stopCond d = true :=
  ⟨{ upStep .stops with pow.toStop := [2], port.a.l12 := true }, _, _, 5000000, rfl, rfl, by decide +kernel⟩

/-- The hypotheses of `PowerEvents`, clause 6, meet. -/
theorem witness_powerEvents_6 : ∃ (s : State) (u : State) (d : Nat) (t : Nat) (a : Bool),
    u = s.atTime t ∧
    u.asked = some d ∧
    (a = false ∨ u.stopCond d = false) :=
  ⟨{ upStep .stops with pow.toStop := [2] }, _, _, 5000000, true, rfl, rfl, by decide +kernel⟩

/-- The hypotheses of `PowerEvents`, clause 7, meet. -/
theorem witness_powerEvents_7 : ∃ (s : State) (u : State) (d : Nat) (t : Nat),
    u = s.atTime t ∧
    u.asked = some d :=
  ⟨{ upStep .stops with pow.toStop := [2] }, _, _, 5000000, rfl, rfl⟩

/-- The hypotheses of `PowerEvents`, clause 8, meet. -/
theorem witness_powerEvents_8 : ∃ (s : State) (u : State) (t : Nat) (n : Nat),
    u = s.atTime t ∧
    u.pow.step = .retryWait ∧
    u.pow.target = some n :=
  ⟨upStep .retryWait, _, 5000000, _, rfl, by decide +kernel, rfl⟩

/-- The hypotheses of `PowerEvents`, clause 9, meet. -/
theorem witness_powerEvents_9 : ∃ (s : State) (u : State) (t : Nat) (n : Nat),
    u = s.atTime t ∧
    u.pow.step = .retryWait ∧
    u.pow.target = none ∧
    u.pow.pendPs = some n :=
  ⟨{ up with pow.step := .retryWait, pow.pendPs := some 1 }, _, 5000000, _, rfl, by decide +kernel, by decide +kernel, rfl⟩

/-- The hypotheses of `PowerEvents`, clause 10, meet. -/
theorem witness_powerEvents_10 : ∃ (s : State) (u : State) (v : State) (d : Nat) (t : Nat),
    u = s.atTime t ∧
    u.pow.toStart.head? = some d ∧
    u.pow.settling = false ∧
    v = { u.startDomain d with pow.toStart := (u.startDomain d).pow.toStart.tail } ∧
    v.pow.toStart ≠ [] :=
  ⟨{ upStep .starts with pow.toStart := [2, 3] }, _, _, _, 5000000, rfl, rfl, by decide +kernel, rfl, by decide +kernel⟩

/-- The hypotheses of `PowerEvents`, clause 11, meet. -/
theorem witness_powerEvents_11 : ∃ (s : State) (u : State) (v : State) (d : Nat) (t : Nat),
    u = s.atTime t ∧
    u.pow.toStart.head? = some d ∧
    u.pow.settling = false ∧
    v = { u.startDomain d with pow.toStart := (u.startDomain d).pow.toStart.tail } ∧
    v.pow.toStart = [] ∧
    v.pow.step = .starts :=
  ⟨{ upStep .starts with pow.toStart := [2] }, _, _, _, 5000000, rfl, rfl, by decide +kernel, rfl, by decide +kernel⟩

/-- The hypotheses of `PowerEvents`, clause 12, meet. -/
theorem witness_powerEvents_12 : ∃ (s : State) (u : State) (v : State) (d : Nat) (t : Nat),
    u = s.atTime t ∧
    u.pow.toStart.head? = some d ∧
    u.pow.settling = false ∧
    v = { u.startDomain d with pow.toStart := (u.startDomain d).pow.toStart.tail } ∧
    v.pow.toStart = [] ∧
    v.pow.step = .rollback :=
  ⟨{ upStep .rollback with pow.toStart := [2] }, _, _, _, 5000000, rfl, rfl, by decide +kernel, rfl, by decide +kernel⟩

/-- The hypotheses of `PowerEvents`, clause 13, meet. -/
theorem witness_powerEvents_13 : ∃ (s : State) (u : State) (source : Nat) (t : Nat),
    u = s.atTime t ∧
    1 ≤ source ∧
    source ≤ 7 ∧
    u.therm.latch = false :=
  ⟨up, _, 7, 5000000, rfl, by decide +kernel⟩

/-- The hypotheses of `PowerEvents`, clause 14, meet. -/
theorem witness_powerEvents_14 : ∃ (s : State) (u : State) (t : Nat),
    u = s.atTime t ∧
    u.therm.latch = true :=
  ⟨{ up with therm.latch := true }, _, 5000000, rfl, by decide +kernel⟩

/-- The hypotheses of `PowerEvents`, clause 15, meet. -/
theorem witness_powerEvents_15 : ∃ (s : State) (u : State) (v : State) (p : Port) (t : Nat),
    u = s.atTime t ∧
    v = u.updPort p (fun x => { x with l12 := false }) ∧
    (u.portSt p).l12 = true ∧
    v.pow.stopped.contains (2 + portNo p) = true ∧
    v.therm.latch = false :=
  ⟨{ up with port.a.l12 := true, pow.stopped := [2] }, _, _, .a, 5000000, rfl, rfl, by decide +kernel⟩

/-- The hypotheses of `PowerEvents`, clause 16, meet. -/
theorem witness_powerEvents_16 : ∃ (s : State) (u : State) (v : State) (p : Port) (t : Nat),
    u = s.atTime t ∧
    v = u.updPort p (fun x => { x with l12 := false }) ∧
    v.pow.stopped.contains (2 + portNo p) = false :=
  ⟨up, _, _, .b, 5000000, rfl, rfl, by decide +kernel⟩

/-- The hypotheses of `PowerEvents`, clause 17, meet. -/
theorem witness_powerEvents_17 : ∃ (s : State) (u : State) (v : State) (t : Nat),
    u = s.atTime t ∧
    u.pow.settling = true ∧
    v = { u with pow.settling := false, pow.vcore := u.pow.vid, pow.settledUs := u.now } ∧
    v.pow.step = .vcoreDown :=
  ⟨{ upStep .vcoreDown with pow.settling := true }, _, _, 5000000, rfl, by decide +kernel, rfl, by decide +kernel⟩

/-- The hypotheses of `PowerEvents`, clause 18, meet. -/
theorem witness_powerEvents_18 : ∃ (s : State) (u : State) (v : State) (t : Nat),
    u = s.atTime t ∧
    u.pow.settling = true ∧
    v = { u with pow.settling := false, pow.vcore := u.pow.vid, pow.settledUs := u.now } ∧
    v.pow.step = .vcoreUp :=
  ⟨{ upStep .vcoreUp with pow.settling := true }, _, _, 5000000, rfl, by decide +kernel, rfl, by decide +kernel⟩

/-- The hypotheses of `PowerEvents`, clause 19, meet. -/
theorem witness_powerEvents_19 : ∃ (s : State) (u : State) (v : State) (t : Nat),
    u = s.atTime t ∧
    u.pow.settling = true ∧
    v = { u with pow.settling := false, pow.vcore := u.pow.vid, pow.settledUs := u.now } ∧
    v.pow.step = .moving ∧
    v.supply.ewLatched = false :=
  ⟨{ upStep .moving with pow.settling := true }, _, _, 5000000, rfl, by decide +kernel, rfl, by decide +kernel⟩

/-- The hypotheses of `PowerEvents`, clause 20, meet. -/
theorem witness_powerEvents_20 : ∃ (s : State) (u : State) (v : State) (t : Nat),
    u = s.atTime t ∧
    u.pow.settling = true ∧
    v = { u with pow.settling := false, pow.vcore := u.pow.vid, pow.settledUs := u.now } ∧
    v.pow.step = .none :=
  ⟨{ up with pow.settling := true }, _, _, 5000000, rfl, by decide +kernel, rfl, by decide +kernel⟩

/-- The hypotheses of `PowerEvents`, clause 21, meet. -/
theorem witness_powerEvents_21 : ∃ (s : State) (u : State) (t : Nat),
    u = s.atTime t ∧
    3 ≤ u.pow.ps ∧
    u.pow.psUs + u.pow.maintH * 3600000000 ≤ u.now ∧
    u.therm.latch = false :=
  ⟨{ up with pow.ps := 4, aon.us := 86400000000 }, _, 86400000000, rfl, by decide +kernel⟩

/-- The hypotheses of `PowerEvents`, clause 22, meet. -/
theorem witness_powerEvents_22 : ∃ (s : State) (u : State) (t : Nat),
    u = s.atTime t ∧
    u.pow.ps < 3 :=
  ⟨up, _, 5000000, rfl, by decide +kernel⟩

/-- The hypotheses of `ThermalEvents`, clause 1, meet. -/
theorem witness_thermalEvents_1 : ∃ (s : State) (u : State) (reading : Nat) (t : Nat),
    u = (s.atTime t).gaugeHold ∧
    1 ≤ reading ∧
    reading ≤ 2500 :=
  ⟨up, _, 2500, 5000000, rfl, by decide +kernel⟩

/-- The hypotheses of `ThermalEvents`, clause 2, meet. -/
theorem witness_thermalEvents_2 : ∃ (s : State) (u : State) (reading : Nat) (t : Nat),
    u = (s.atTime t).gaugeHold ∧
    (reading = 0 ∨ 2500 < reading) :=
  ⟨up, _, 2501, 5000000, rfl, by decide +kernel⟩

/-- The hypotheses of `ThermalEvents`, clause 3, meet. -/
theorem witness_thermalEvents_3 : ∃ (s : State) (u : State) (i : Nat) (t : Nat),
    u = s.atTime t ∧
    i < 16 ∧
    (u.remote i).enabled = true ∧
    (u.remote i).converting = false ∧
    u.mayConvert true i (u.remote i).startUs = true :=
  ⟨{ up with therm.remotes := [(15, { (default : Remote) with enabled := true })] }, _, 15, 5000000, rfl, by decide +kernel⟩

/-- The hypotheses of `ThermalEvents`, clause 4, meet. -/
theorem witness_thermalEvents_4 : ∃ (s : State) (u : State) (i : Nat) (t : Nat),
    u = s.atTime t ∧
    i < 24 ∧
    (u.sensor i).failed = false ∧
    (u.sensor i).converting = false ∧
    u.mayConvert false i (u.sensor i).startUs = true :=
  ⟨up, _, 23, 5000000, rfl, by decide +kernel⟩

/-- The hypotheses of `ThermalEvents`, clause 5, meet. -/
theorem witness_thermalEvents_5 : ∃ (s : State) (u : State) (i : Nat) (t : Nat),
    u = (s.atTime t).accrueHeat ∧
    (u.remote i).converting = true :=
  ⟨{ up with therm.remotes := [(15, { (default : Remote) with enabled := true, converting := true })] }, _, 15, 5000000, rfl,
    by decide +kernel⟩

/-- The hypotheses of `ThermalEvents`, clause 6, meet. -/
theorem witness_thermalEvents_6 : ∃ (s : State) (u : State) (i : Nat) (t : Nat),
    u = (s.atTime t).accrueHeat ∧
    (u.sensor i).converting = true :=
  ⟨{ up with therm.sensors := [(23, ⟨none, 0, 0, false, true, false, none⟩)] }, _, 23, 5000000, rfl, by decide +kernel⟩

/-- The hypotheses of `ThermalEvents`, clause 7, meet. -/
theorem witness_thermalEvents_7 : ∃ (s : State) (u : State) (t : Nat) (l : Nat) (lower : Option Nat),
    u = (s.atTime t).accrueHeat ∧
    fallOf u.therm.ld u.dieTarget u.therm.ldLower u.now = (l, lower) :=
  ⟨up, _, 5000000, _, _, rfl, rfl⟩

/-- The hypotheses of `ThermalEvents`, clause 8, meet. -/
theorem witness_thermalEvents_8 : ∃ (s : State) (u : State) (t : Nat) (v : Nat),
    u = (s.atTime t).accrueHeat ∧
    u.therm.l15Us = some v ∧
    v + 100000 ≤ u.now ∧
    u.therm.hold = false :=
  ⟨{ up with therm.l15Us := some 4900000 }, _, 5000000, _, rfl, rfl, by decide +kernel⟩

/-- The hypotheses of `ThermalEvents`, clause 9, meet. -/
theorem witness_thermalEvents_9 : ∃ (s : State) (u : State) (t : Nat) (v : Nat),
    u = (s.atTime t).accrueHeat ∧
    u.therm.l15Us = some v ∧
    (u.now < v + 100000 ∨ u.therm.hold = true) :=
  ⟨{ up with therm.l15Us := some 4900001 }, _, 5000000, _, rfl, rfl, by decide +kernel⟩

/-- The hypotheses of `RecordEvents`, clause 1, meet. -/
theorem witness_recordEvents_1 : ∃ (s : State) (u : State) (t : Nat),
    u = s.atTime t ∧
    u.pb.msUs + 1000 ≤ u.now ∧
    u.now < u.pb.secUs + 1000000 ∧
    u.gauge.now ≠ 0 ∧
    u.gauge.fault = false :=
  ⟨{ up with pb.msUs := 4999000, pb.secUs := 4000001, gauge.now := 1000 }, _, 5000000, rfl, by decide +kernel⟩

/-- The hypotheses of `RecordEvents`, clause 2, meet. -/
theorem witness_recordEvents_2 : ∃ (s : State) (u : State) (t : Nat),
    u = s.atTime t ∧
    u.now < u.pb.msUs + 1000 ∧
    u.pb.secUs + 1000000 ≤ u.now :=
  ⟨{ up with pb.msUs := 4999001, pb.secUs := 4000000 }, _, 5000000, rfl, by decide +kernel⟩

/-- The hypotheses of `RecordEvents`, clause 3, meet. -/
theorem witness_recordEvents_3 : ∃ (s : State) (u : State) (t : Nat),
    u = s.atTime t ∧
    u.ckptDue = true ∧
    u.supply.ewLatched = false ∧
    u.pbFrozen = false :=
  ⟨{ up with pb.ckptDue := true }, _, 5000000, rfl, by decide +kernel⟩

/-- The hypotheses of `RecordEvents`, clause 4, meet. -/
theorem witness_recordEvents_4 : ∃ (s : State) (u : State) (t : Nat),
    u = s.atTime t ∧
    u.ckptDue = true ∧
    u.supply.ewLatched = false ∧
    u.pbFrozen = true :=
  ⟨{ up with pb.ckptDue := true, pb.frozen := some 5000001 }, _, 5000000, rfl, by decide +kernel⟩

/-- The hypotheses of `RecordEvents`, clause 5, meet. -/
theorem witness_recordEvents_5 : ∃ (s : State) (u : State) (t : Nat) (e : Nat),
    u = s.atTime t ∧
    u.pb.frozen = some e ∧
    e ≤ u.now :=
  ⟨{ up with pb.frozen := some 5000000 }, _, 5000000, _, rfl, rfl, by decide +kernel⟩

/-- The hypotheses of `RecordEvents`, clause 6, meet. -/
theorem witness_recordEvents_6 : ∃ (s : State) (u : State) (t : Nat) (e : Nat),
    u = s.atTime t ∧
    u.pb.frozen = some e ∧
    u.now < e :=
  ⟨{ up with pb.frozen := some 5000001 }, _, 5000000, _, rfl, rfl, by decide +kernel⟩

/-- The hypotheses of `RecordEvents`, clause 7, meet. -/
theorem witness_recordEvents_7 : ∃ (s : State) (u : State) (k : Nat) (t : Nat) (x : Tenant),
    u = s.atTime t ∧
    u.tenant k = some x ∧
    x.epochEndUs ≤ u.now :=
  ⟨upWith { tenant2 with epochEndUs := 5000000 }, _, 2, 5000000, _, rfl, rfl, by decide +kernel⟩

/-- The hypotheses of `RecordEvents`, clause 8, meet. -/
theorem witness_recordEvents_8 : ∃ (s : State) (u : State) (k : Nat) (t : Nat) (x : Tenant),
    u = s.atTime t ∧
    u.tenant k = some x ∧
    u.now < x.epochEndUs :=
  ⟨upWith { tenant2 with epochEndUs := 5000001 }, _, 2, 5000000, _, rfl, rfl, by decide +kernel⟩

/-- The hypotheses of `RecordEvents`, clause 9, meet. -/
theorem witness_recordEvents_9 : ∃ (s : State) (u : State) (t : Nat),
    u = s.atTime t ∧
    u.supply.ewLatched = false :=
  ⟨up, _, 5000000, rfl, by decide +kernel⟩

/-- The hypotheses of `RecordEvents`, clause 10, meet. -/
theorem witness_recordEvents_10 : ∃ (s : State) (e : SelvEntry) (q : List SelvEntry),
    s.selv.queue = e :: q ∧
    s.drains = true :=
  ⟨{ up with selv.queue := [default] }, _, _, rfl, by decide +kernel⟩

/-- The hypotheses of `RecordEvents`, clause 11, meet. -/
theorem witness_recordEvents_11 : ∃ (s : State) (u : State) (t : Nat),
    u = s.atTime t ∧
    u.supply.ewLatched = false ∧
    u.selv.unflushed ≠ 0 ∧
    u.selv.lastFlushUs + 100000 ≤ u.now :=
  ⟨{ up with selv.unflushed := 1, selv.lastFlushUs := 4900000 }, _, 5000000, rfl, by decide +kernel⟩

/-- The hypotheses of `RecordEvents`, clause 12, meet. -/
theorem witness_recordEvents_12 : ∃ (s : State) (u : State) (t : Nat),
    u = s.atTime t ∧
    (u.supply.ewLatched = true ∨ u.selv.unflushed = 0 ∨ u.now < u.selv.lastFlushUs + 100000) :=
  ⟨{ up with selv.unflushed := 1, selv.lastFlushUs := 4900001 }, _, 5000000, rfl, by decide +kernel⟩

/-- The hypotheses of `ManagerEvents`, clause 1, meet. -/
theorem witness_managerEvents_1 : ∃ (s : State) (u : State) (t : Nat),
    u = s.atTime t ∧
    u.hem.actStep ≠ 0 ∧
    u.hem.actStep ≠ 9 ∧
    u.hem.actUs + 1000000 ≤ u.now :=
  ⟨{ up with hem.actStep := 2, hem.actUs := 3000000 }, _, 5000000, rfl, by decide +kernel⟩

/-- The hypotheses of `ManagerEvents`, clause 2, meet. -/
theorem witness_managerEvents_2 : ∃ (s : State) (u : State) (t : Nat) (d : Nat),
    u = s.atTime t ∧
    u.mbx.failover = true ∧
    u.mbx.downSince = some d ∧
    d + 2000000 ≤ u.now ∧
    (u.portSt u.mbx.manager).linkUp = false ∧
    (u.portSt (otherPort u.mbx.manager)).linkUp = true ∧
    u.pow.policyDue = false :=
  ⟨upFail, _, 5000000, _, rfl, by decide +kernel, rfl, by decide +kernel⟩

/-- The hypotheses of `ManagerEvents`, clause 3, meet. -/
theorem witness_managerEvents_3 : ∃ (s : State) (u : State) (t : Nat) (d : Nat),
    u = s.atTime t ∧
    u.mbx.failover = true ∧
    u.mbx.downSince = some d ∧
    d + 2000000 ≤ u.now ∧
    (u.portSt u.mbx.manager).linkUp = false ∧
    (u.portSt (otherPort u.mbx.manager)).linkUp = true ∧
    u.pow.policyDue = false :=
  ⟨upFail, _, 5000000, _, rfl, by decide +kernel, rfl, by decide +kernel⟩

/-- The hypotheses of `ManagerEvents`, clause 4, meet. -/
theorem witness_managerEvents_4 : ∃ (s : State) (u : State) (t : Nat) (e : Nat),
    u = s.atTime t ∧
    u.dbg.authUntil = some e ∧
    e ≤ u.now :=
  ⟨{ up with dbg.authUntil := some 4000000 }, _, 5000000, _, rfl, rfl, by decide +kernel⟩

/-- The hypotheses of `ManagerEvents`, clause 5, meet. -/
theorem witness_managerEvents_5 : ∃ (s : State) (u : State) (t : Nat) (n : Nat) (e : Nat),
    u = s.atTime t ∧
    u.dbg.nonce = some (n, e) ∧
    e + 600000000 ≤ u.now :=
  ⟨{ up with dbg.nonce := some (1, 0) }, _, 600000000, _, _, rfl, rfl, by decide +kernel⟩

/-- The hypotheses of `ManagerEvents`, clause 6, meet. -/
theorem witness_managerEvents_6 : ∃ (s : State),
    s.aon.ledHold = true ∧
    s.aon.ledActive = false :=
  ⟨{ up with aon.ledHold := true }, by decide +kernel⟩

/-- The hypotheses of `ManagerEvents`, clause 7, meet. -/
theorem witness_managerEvents_7 : ∃ (s : State) (p : Port) (value : BitVec 32) (h : BitVec 6),
    s.portThere p = true ∧
    s.mbx.manager = p ∧
    h = value.extractLsb' 0 6 ∧
    (h - (s.mbxPort p).head).toNat ≤ (s.mbxPort p).posted :=
  ⟨{ up with mbx.portA.posted := 3 }, .a, 3, _, by decide +kernel, by decide +kernel, rfl, by decide +kernel⟩

/-- The hypotheses of `ManagerEvents`, clause 8, meet. -/
theorem witness_managerEvents_8 : ∃ (s : State) (p : Port) (value : BitVec 32),
    s.portThere p = true ∧
    (s.mbx.manager ≠ p ∨ (s.mbxPort p).posted < (value.extractLsb' 0 6 - (s.mbxPort p).head).toNat) :=
  ⟨up, .a, 5, by decide +kernel⟩

/-- The hypotheses of `ManagerEvents`, clause 9, meet. -/
theorem witness_managerEvents_9 : ∃ (s : State),
    s.mem.lock = false :=
  ⟨up, by decide +kernel⟩

/-- The hypotheses of `ManagerEvents`, clause 10, meet. -/
theorem witness_managerEvents_10 : ∃ (s : State),
    s.mem.lock = true :=
  ⟨{ up with mem.lock := true }, by decide +kernel⟩

/-- The hypotheses of `ManagerEvents`, clause 11, meet. -/
theorem witness_managerEvents_11 : ∃ (s : State) (p : Port),
    s.portThere p = true ∧
    s.therm.latch = false :=
  ⟨up, .a, by decide +kernel⟩

/-- The hypotheses of `ManagerEvents`, clause 12, meet. -/
theorem witness_managerEvents_12 : ∃ (s : State) (p : Port) (value : BitVec 64),
    s.portThere p = true ∧
    s.therm.latch = false ∧
    (value.toNat % 2 ^ 32).testBit 4 = true :=
  ⟨up, .a, 16, by decide +kernel⟩

/-- The hypotheses of `ManagerEvents`, clause 13, meet. -/
theorem witness_managerEvents_13 : ∃ (s : State) (p : Port),
    s.portThere p = true ∧
    s.therm.latch = false :=
  ⟨up, .a, by decide +kernel⟩

/-- The hypotheses of `ManagerEvents`, clause 14, meet. -/
theorem witness_managerEvents_14 : ∃ (s : State) (off : Nat) (width : Nat),
    s.portThere .a = true ∧
    s.therm.latch = false ∧
    0x1000 ≤ off ∧
    off < 0x2000 ∧
    8 ≤ width :=
  ⟨up, 0x1FF8, 32, by decide +kernel⟩

/-- The hypotheses of `ManagerEvents`, clause 15, meet. -/
theorem witness_managerEvents_15 : ∃ (s : State) (f : FnId) (x : Fn),
    s.fnExists f = true ∧
    (s.tenantOf f).isSome = true ∧
    x = s.fn f :=
  ⟨up, f1, _, by decide +kernel, by decide +kernel, rfl⟩

/-- The hypotheses of `ManagerEvents`, clause 16, meet. -/
theorem witness_managerEvents_16 : ∃ (s : State) (value : BitVec 64),
    s.pow.vid = 3 ∧
    value.toNat % 2 = 0 :=
  ⟨{ up with pow.vid := 3 }, 2, by decide +kernel⟩

/-- The hypotheses of `ManagerEvents`, clause 17, meet. -/
theorem witness_managerEvents_17 : ∃ (s : State),
    s.pow.vid ≠ 3 ∧
    s.pow.settling = false :=
  ⟨{ up with pow.vid := 1 }, by decide +kernel⟩

/-- The hypotheses of `ManagerEvents`, clause 18, meet. -/
theorem witness_managerEvents_18 : ∃ (s : State) (value : BitVec 64),
    value.toNat % 4 = 3 ∧
    s.flashFast = true :=
  ⟨{ up with pow.flashSlow := false }, 3, by decide +kernel⟩

/-- The hypotheses of `ManagerEvents`, clause 19, meet. -/
theorem witness_managerEvents_19 : ∃ (s : State) (value : BitVec 64),
    (value.toNat % 4 ≠ 3 ∨ s.flashFast = false) :=
  ⟨up, 0, by decide +kernel⟩

/-- The hypotheses of `MemoryEvents`, clause 1, meet. -/
theorem witness_memoryEvents_1 : ∃ (s : State) (u : State) (c : Nat) (t : Nat),
    u = s.atTime t ∧
    u.dramRuns c = true :=
  ⟨upMem, _, 3, 5000000, rfl, by decide +kernel⟩

/-- The hypotheses of `MemoryEvents`, clause 2, meet. -/
theorem witness_memoryEvents_2 : ∃ (s : State) (c : Nat) (bank : Nat),
    s.dramRuns c = true ∧
    bank < 16 :=
  ⟨upMem, 3, 15, by decide +kernel⟩

/-- The hypotheses of `MemoryEvents`, clause 3, meet. -/
theorem witness_memoryEvents_3 : ∃ (s : State) (c : Nat) (bank : Nat),
    (s.dramRuns c = false ∨ 16 ≤ bank) :=
  ⟨upMem, 3, 16, by decide +kernel⟩

/-- The hypotheses of `MemoryEvents`, clause 4, meet. -/
theorem witness_memoryEvents_4 : ∃ (s : State) (u : State) (t : Nat) (region : EccRegion) (result : EccResult),
    u = (s.atTime t).scrubResult false region (frayRead result []) :=
  ⟨upMem, _, 5000000, .readStaging 4 0, .clean, rfl⟩

/-- The hypotheses of `MemoryEvents`, clause 5, meet. -/
theorem witness_memoryEvents_5 : ∃ (s : State) (u : State) (v : State) (c : Nat) (t : Nat) (region : EccRegion) (result : EccResult),
    u = (s.atTime t).scrubWait c region ∧
    (s.atTime t).dramRuns c = true ∧
    v = (u.frayScrub c).2.scrubResult true region (frayRead result (u.frayScrub c).1) :=
  ⟨upMem, _, _, 3, 5000000, .readStaging 4 0, .corrected, rfl, by decide +kernel, rfl⟩

/-- The hypotheses of `MemoryEvents`, clause 6, meet. -/
theorem witness_memoryEvents_6 : ∃ (c : Nat),
    c < 64 :=
  ⟨3, by decide +kernel⟩

/-- The hypotheses of `MemoryEvents`, clause 7, meet. -/
theorem witness_memoryEvents_7 : ∃ (c : Nat),
    c < 64 :=
  ⟨3, by decide +kernel⟩

/-- The hypotheses of `MemoryEvents`, clause 8, meet. -/
theorem witness_memoryEvents_8 : ∃ (s : State) (c : Nat) (v : BitVec 32),
    c < 64 ∧
    (s.shtCh c).enable = false ∧
    2 ≤ v.toNat / 2 ^ 20 % 128 ∧
    v.toNat / 2 ^ 20 % 128 ≤ 64 :=
  ⟨upMem, 3, 0x4000000, by decide +kernel⟩

/-- The hypotheses of `MemoryEvents`, clause 9, meet. -/
theorem witness_memoryEvents_9 : ∃ (s : State) (c : Nat),
    c < 64 ∧
    (s.shtCh c).enable = true :=
  ⟨upSht cpy false, 3, by decide +kernel⟩

/-- The hypotheses of `MemoryEvents`, clause 10, meet. -/
theorem witness_memoryEvents_10 : ∃ (c : Nat),
    64 ≤ c :=
  ⟨64, by decide +kernel⟩

/-- The hypotheses of `MemoryEvents`, clause 11, meet. -/
theorem witness_memoryEvents_11 : ∃ (s : State) (c : Nat) (x : ShtCh),
    x = s.shtCh c ∧
    x.running = true ∧
    x.failed = false ∧
    s.descRefused x = false ∧
    s.descStopped x = none :=
  ⟨upSht cpy false, 3, _, rfl, by decide +kernel⟩

/-- The hypotheses of `MemoryEvents`, clause 12, meet. -/
theorem witness_memoryEvents_12 : ∃ (s : State) (c : Nat) (x : ShtCh),
    x = s.shtCh c ∧
    x.running = true ∧
    x.failed = false ∧
    s.descRefused x = false ∧
    s.descStopped x = none ∧
    spacePort x.srcSpace = none :=
  ⟨upSht cpy false, 3, _, rfl, by decide +kernel⟩

/-- The hypotheses of `MemoryEvents`, clause 13, meet. -/
theorem witness_memoryEvents_13 : ∃ (s : State) (c : Nat) (x : ShtCh),
    x = s.shtCh c ∧
    x.running = true ∧
    x.failed = false ∧
    s.descRefused x = true :=
  ⟨upSht bad false, 3, _, rfl, by decide +kernel⟩

/-- The hypotheses of `MemoryEvents`, clause 14, meet. -/
theorem witness_memoryEvents_14 : ∃ (s : State) (u : State) (c : Nat) (n : Nat) (x : ShtCh) (y : ShtCh),
    x = s.shtCh c ∧
    x.running = true ∧
    x.failed = true ∧
    y = { x with failed := false, retries := min (x.retries + 1) 255, burstTries := x.burstTries + 1 } ∧
    u = ({ s with mem.shuttleRetries := s.mem.shuttleRetries + 1 } : State).setShtCh c y ∧
    u.descStopped y = none ∧
    n = min 64 (y.len - y.done) :=
  ⟨upSht cpy true, _, 3, _, _, _, rfl, by decide +kernel, by decide +kernel, rfl, rfl, by decide +kernel, rfl⟩

/-- The hypotheses of `MemoryEvents`, clause 15, meet. -/
theorem witness_memoryEvents_15 : ∃ (s : State) (u : State) (c : Nat) (x : ShtCh) (y : ShtCh),
    x = s.shtCh c ∧
    x.running = true ∧
    x.failed = true ∧
    y = { x with failed := false, retries := min (x.retries + 1) 255, burstTries := x.burstTries + 1 } ∧
    u = ({ s with mem.shuttleRetries := s.mem.shuttleRetries + 1 } : State).setShtCh c y ∧
    u.descStopped y = none :=
  ⟨upSht cpy true, _, 3, _, _, rfl, by decide +kernel, by decide +kernel, rfl, rfl, by decide +kernel⟩

/-- The hypotheses of `HemEvents`, clause 1, meet. -/
theorem witness_hemEvents_1 : ∃ (s : State) (k : Nat) (b : HemBank) (o : HemOp) (pass : Bool),
    b = s.hemBank k ∧
    b.prog = some o ∧
    (pass = true ∨ o.tried = true) :=
  ⟨upHem none (some prg), 1, _, _, true, rfl, rfl, by decide +kernel⟩

/-- The hypotheses of `HemEvents`, clause 2, meet. -/
theorem witness_hemEvents_2 : ∃ (s : State) (k : Nat) (b : HemBank) (o : HemOp),
    b = s.hemBank k ∧
    b.prog = some o ∧
    o.tried = false :=
  ⟨upHem none (some prg), 1, _, _, rfl, rfl, by decide +kernel⟩

/-- The hypotheses of `HemEvents`, clause 3, meet. -/
theorem witness_hemEvents_3 : ∃ (s : State) (k : Nat) (b : HemBank) (o : HemOp) (pass : Bool),
    b = s.hemBank k ∧
    b.prog = none ∧
    b.op = some o ∧
    o.erase = false ∧
    (pass = true ∨ o.tried = true) :=
  ⟨upHem (some prg) none, 1, _, _, true, rfl, rfl, rfl, by decide +kernel⟩

/-- The hypotheses of `HemEvents`, clause 4, meet. -/
theorem witness_hemEvents_4 : ∃ (s : State) (k : Nat) (b : HemBank) (o : HemOp),
    b = s.hemBank k ∧
    b.prog = none ∧
    b.op = some o ∧
    o.erase = false ∧
    o.tried = false :=
  ⟨upHem (some prg) none, 1, _, _, rfl, rfl, rfl, by decide +kernel⟩

/-- The hypotheses of `HemEvents`, clause 5, meet. -/
theorem witness_hemEvents_5 : ∃ (s : State) (k : Nat) (b : HemBank) (o : HemOp),
    b = s.hemBank k ∧
    b.op = some o ∧
    o.erase = true ∧
    o.suspended = false ∧
    o.what ≠ .gap :=
  ⟨upHem (some ers) none, 1, _, _, rfl, rfl, by decide +kernel⟩

/-- The hypotheses of `HemEvents`, clause 6, meet. -/
theorem witness_hemEvents_6 : ∃ (s : State) (k : Nat) (b : HemBank) (o : HemOp),
    b = s.hemBank k ∧
    b.op = some o ∧
    o.erase = true ∧
    o.suspended = false ∧
    o.what = .gap ∧
    s.countHemErase.lastCall = false :=
  ⟨upHem (some gapErs) none, 1, _, _, rfl, rfl, by decide +kernel⟩

/-- The hypotheses of `HemEvents`, clause 7, meet. -/
theorem witness_hemEvents_7 : ∃ (s : State) (k : Nat) (b : HemBank) (o : HemOp),
    b = s.hemBank k ∧
    b.op = some o ∧
    o.erase = true ∧
    o.suspended = false ∧
    o.tried = false :=
  ⟨upHem (some ers) none, 1, _, _, rfl, rfl, by decide +kernel⟩

/-- The hypotheses of `HemEvents`, clause 8, meet. -/
theorem witness_hemEvents_8 : ∃ (s : State) (k : Nat) (b : HemBank) (o : HemOp),
    b = s.hemBank k ∧
    b.op = some o ∧
    o.erase = true ∧
    o.suspended = false ∧
    o.tried = true :=
  ⟨upHem (some { ers with tried := true }) none, 1, _, _, rfl, rfl, by decide +kernel⟩

/-- The hypotheses of `HemEvents`, clause 9, meet. -/
theorem witness_hemEvents_9 : ∃ (s : State) (k : Nat) (b : HemBank) (e : HemOp) (f : HemOp),
    b = s.hemBank k ∧
    b.op = some e ∧
    e.erase = true ∧
    e.suspended = false ∧
    e.suspensions < 16 ∧
    f = { e with suspended := true, suspensions := e.suspensions + 1 } :=
  ⟨upHem (some { ers with suspensions := 15 }) none, 1, _, _, _, rfl, rfl, by decide +kernel, by decide +kernel,
    by decide +kernel, rfl⟩

/-- The hypotheses of `HemEvents`, clause 10, meet. -/
theorem witness_hemEvents_10 : ∃ (s : State) (k : Nat) (b : HemBank) (e : HemOp),
    b = s.hemBank k ∧
    b.op = some e ∧
    16 ≤ e.suspensions :=
  ⟨upHem (some { ers with suspensions := 16 }) none, 1, _, _, rfl, rfl, by decide +kernel⟩

/-- The hypotheses of `HemEvents`, clause 11, meet. -/
theorem witness_hemEvents_11 : ∃ (s : State) (k : Nat) (b : HemBank) (e : HemOp),
    b = s.hemBank k ∧
    b.op = some e ∧
    e.suspended = true ∧
    b.prog = none :=
  ⟨upHem (some { ers with suspended := true, suspensions := 1 }) none, 1, _, _, rfl, rfl, by decide +kernel⟩

/-- The hypotheses of `HemEvents`, clause 12, meet. -/
theorem witness_hemEvents_12 : ∃ (s : State) (k : Nat) (b : HemBank) (e : HemOp) (o : HemOp),
    b = s.hemBank k ∧
    b.op = some e ∧
    e.suspended = true ∧
    b.prog = some o :=
  ⟨upHem (some { ers with suspended := true, suspensions := 1 }) (some prg), 1, _, _, _, rfl, rfl, by decide +kernel, rfl⟩

/-- The hypotheses of `HemEvents`, clause 13, meet. -/
theorem witness_hemEvents_13 : ∃ (s : State) (u : State) (b : HemBank),
    s.hem.moveDue = true ∧
    s.lastCall = false ∧
    u = { s with hem.moveDue := false, hem.recordErases := s.hem.recordErases - 64 } ∧
    b = u.hemBank s.gapBank :=
  ⟨{ up with hem.moveDue := true, hem.recordErases := 64 }, _, _, rfl, by decide +kernel, rfl, rfl⟩

/-- The hypotheses of `HemEvents`, clause 14, meet. -/
theorem witness_hemEvents_14 : ∃ (s : State) (u : State) (t : Nat),
    u = s.atTime t ∧
    u.hem.marginUs + 2592000000000 ≤ u.now :=
  ⟨upHem none (some prg), _, 2592000000000, rfl, by decide +kernel⟩

/-- The hypotheses of `HemEvents`, clause 15, meet. -/
theorem witness_hemEvents_15 : ∃ (s : State) (u : State) (t : Nat),
    u = s.atTime t ∧
    u.now < u.hem.marginUs + 2592000000000 :=
  ⟨upHem none (some prg), _, 5000001, rfl, by decide +kernel⟩

/-- The hypotheses of `EngineEvents`, clause 2, meet. -/
theorem witness_engineEvents_2 : ∃ (s : State) (u : State) (p : Nat) (t : Nat),
    u = s.atTime t ∧
    u.pairSt p = 0 :=
  ⟨up, _, 0, 5000000, rfl, by decide +kernel⟩

/-- The hypotheses of `EngineEvents`, clause 3, meet. -/
theorem witness_engineEvents_3 : ∃ (s : State) (u : State) (p : Nat) (t : Nat),
    u = s.atTime t ∧
    u.pairSt p ≠ 0 :=
  ⟨{ up with eng.pairs := [0, 0, 0, 3] }, _, 3, 5000000, rfl, by decide +kernel⟩

/-- The hypotheses of `EngineEvents`, clause 4, meet. -/
theorem witness_engineEvents_4 : ∃ (s : State) (p : Nat) (third : Bool),
    s.pairSt p = 2 ∧
    third = decide (3 ≤ (s.eng.trapTimes.filter (fun x => decide (x.1 = p ∧ s.now < x.2 + 86400000000))).length) :=
  ⟨{ up with eng.pairs := [2, 4, 0, 1] }, 0, _, by decide +kernel, rfl⟩

/-- The hypotheses of `EngineEvents`, clause 5, meet. -/
theorem witness_engineEvents_5 : ∃ (s : State) (p : Nat),
    s.pairSt p = 4 :=
  ⟨{ up with eng.pairs := [2, 4, 0, 1] }, 1, by decide +kernel⟩

/-- The hypotheses of `EngineEvents`, clause 6, meet. -/
theorem witness_engineEvents_6 : ∃ (s : State) (p : Nat),
    s.pairSt p = 4 :=
  ⟨{ up with eng.pairs := [2, 4, 0, 1] }, 1, by decide +kernel⟩

/-- The hypotheses of `EngineEvents`, clause 7, meet. -/
theorem witness_engineEvents_7 : ∃ (s : State) (c : Nat) (x : Chan) (y : Chan) (z : Chan) (r : BusReq),
    (s.channel c).decided = none ∧
    y = (s.channel c).window1 s.chan.hpQuota ∧
    z = { y with reqs := y.reqs.filter (fun q => !s.commaHolds q) } ∧
    z.pick = some r ∧
    y.masked = true ∧
    x = y.take r ∧
    (s.channel c).granted = none :=
  ⟨upChan { chan0 with reqs := [bus0], quota := 48, highs := 48, window := 60, masked := true }, 2, _, _, _, _,
    by decide +kernel, rfl, rfl, rfl, by decide +kernel, rfl, by decide +kernel⟩

/-- The hypotheses of `EngineEvents`, clause 8, meet. -/
theorem witness_engineEvents_8 : ∃ (s : State) (c : Nat) (y : Chan) (z : Chan) (r : BusReq),
    (s.channel c).decided = none ∧
    y = (s.channel c).window1 s.chan.hpQuota ∧
    z = { y with reqs := y.reqs.filter (fun q => !s.commaHolds q) } ∧
    z.pick = some r ∧
    (y.maskedNow && z.reqs.any (fun q => decide (q.level = .high)) && !y.masked) = false ∧
    (s.channel c).granted.isSome = true :=
  ⟨upChan { chan0 with reqs := [bus0], granted := some bus0 }, 2, _, _, _, by decide +kernel, rfl, rfl, rfl,
    by decide +kernel⟩

/-- The hypotheses of `EngineEvents`, clause 9, meet. -/
theorem witness_engineEvents_9 : ∃ (s : State) (c : Nat) (x : Chan) (y : Chan) (z : Chan) (r : BusReq),
    (s.channel c).decided = none ∧
    y = (s.channel c).window1 s.chan.hpQuota ∧
    z = { y with reqs := y.reqs.filter (fun q => !s.commaHolds q) } ∧
    z.pick = some r ∧
    y.maskedNow = true ∧
    z.reqs.any (fun q => decide (q.level = .high)) = true ∧
    y.masked = false ∧
    (s.channel c).granted.isSome = true ∧
    x = ({ y with masked := true } : Chan).take r :=
  ⟨upChan { chan0 with reqs := [bus0], granted := some bus0, quota := 48, highs := 48, window := 60 }, 2, _, _, _, _,
    by decide +kernel, rfl, rfl, rfl, by decide +kernel, by decide +kernel, by decide +kernel, by decide +kernel, rfl⟩

/-- The hypotheses of `EngineEvents`, clause 10, meet. -/
theorem witness_engineEvents_10 : ∃ (s : State) (c : Nat) (r : BusReq),
    (s.channel c).granted = some r ∧
    (s.channel c).idleNull = false :=
  ⟨upChan { chan0 with granted := some bus0 }, 2, _, rfl, by decide +kernel⟩

/-- The hypotheses of `EngineEvents`, clause 11, meet. -/
theorem witness_engineEvents_11 : ∃ (s : State) (u : State) (v : State) (c : Nat) (t : Nat) (d : DieId) (r : BusReq),
    u = s.atTime t ∧
    (u.channel c).granted = some r ∧
    (u.channel c).idleNull = false ∧
    d = dieOfKey r.die ∧
    (r.who = 4 ∨ r.bobbin = u.holder (roleOf d)) ∧
    4 ≤ r.who ∧
    v = ({ u with chan.cutoffs := u.chan.cutoffs + 1 } : State).setChan c { u.channel c with granted := none, reqs := r :: (u.channel c).reqs } :=
  ⟨upChan { chan0 with granted := some { bus0 with who := 4 } }, _, _, 2, 5000000, _, _, rfl, rfl, by decide +kernel, rfl,
    by decide +kernel, by decide +kernel, rfl⟩

/-- The hypotheses of `EngineEvents`, clause 12, meet. -/
theorem witness_engineEvents_12 : ∃ (s : State) (u : State) (v : State) (c : Nat) (t : Nat) (b : Nat) (d : DieId) (r : BusReq) (cuts : List Nat),
    u = s.atTime t ∧
    (u.channel c).granted = some r ∧
    (u.channel c).idleNull = false ∧
    d = dieOfKey r.die ∧
    b = r.bobbin ∧
    b = u.holder (roleOf d) ∧
    r.who < 4 ∧
    v = ({ u with chan.cutoffs := u.chan.cutoffs + 1 } : State).setChan c { u.channel c with granted := none, reqs := r :: (u.channel c).reqs } ∧
    cuts = u.now :: (v.bobbin b).cutoffs.filter (fun y => decide (u.now < y + 1000000)) ∧
    3 ≤ cuts.length :=
  ⟨{ upChan { chan0 with granted := some bus0 } with eng.bobbins := [(9, { (default : Bobbin) with st := .owns, role := some 9, cutoffs := [4900000, 4800000] })] },
    _, _, 2, 5000000, _, _, _, _, rfl, rfl, by decide +kernel, rfl, rfl, by decide +kernel, by decide +kernel, rfl, rfl,
    by decide +kernel⟩

/-- The hypotheses of `EngineEvents`, clause 13, meet. -/
theorem witness_engineEvents_13 : ∃ (s : State) (u : State) (v : State) (c : Nat) (t : Nat) (b : Nat) (d : DieId) (r : BusReq) (cuts : List Nat),
    u = s.atTime t ∧
    (u.channel c).granted = some r ∧
    (u.channel c).idleNull = false ∧
    d = dieOfKey r.die ∧
    b = r.bobbin ∧
    b ≠ u.holder (roleOf d) ∧
    r.who < 4 ∧
    v = ({ u with chan.cutoffs := u.chan.cutoffs + 1 } : State).setChan c { u.channel c with granted := none } ∧
    cuts = u.now :: (v.bobbin b).cutoffs.filter (fun y => decide (u.now < y + 1000000)) ∧
    cuts.length < 3 :=
  ⟨upChan { chan0 with granted := some { bus0 with bobbin := 5 } }, _, _, 2, 5000000, _, _, _, _, rfl, rfl,
    by decide +kernel, rfl, rfl, by decide +kernel, by decide +kernel, rfl, rfl, by decide +kernel⟩

/-- The hypotheses of `BobbinRequests`, clause 1, meet. -/
theorem witness_bobbinRequests_1 : ∃ (s : State) (u : State) (x : BobbinMsg) (m : BMsg),
    m = bmsgOf x vRead ∧
    s.Accepted m u :=
  ⟨up, _, msg, _, rfl, by unfold State.Accepted; exact ⟨_, rfl, rfl, by decide +kernel, by decide +kernel, by decide +kernel,
    by decide +kernel, by decide +kernel, by decide +kernel⟩⟩

/-- The hypotheses of `BobbinRequests`, clause 2, meet. -/
theorem witness_bobbinRequests_2 : ∃ (s : State) (u : State) (x : BobbinMsg) (m : BMsg),
    m = bmsgOf x vComponent ∧
    s.Accepted m u :=
  ⟨up, _, msg, _, rfl, by unfold State.Accepted; exact ⟨_, rfl, rfl, by decide +kernel, by decide +kernel, by decide +kernel,
    by decide +kernel, by decide +kernel, by decide +kernel⟩⟩

/-- The hypotheses of `BobbinRequests`, clause 3, meet. -/
theorem witness_bobbinRequests_3 : ∃ (s : State) (u : State) (x : BobbinMsg) (m : BMsg),
    m = bmsgOf x vProgram ∧
    s.Accepted m u :=
  ⟨up, _, msg, _, rfl, by unfold State.Accepted; exact ⟨_, rfl, rfl, by decide +kernel, by decide +kernel, by decide +kernel,
    by decide +kernel, by decide +kernel, by decide +kernel⟩⟩

/-- The hypotheses of `BobbinRequests`, clause 4, meet. -/
theorem witness_bobbinRequests_4 : ∃ (s : State) (u : State) (x : BobbinMsg) (m : BMsg),
    m = bmsgOf x vErase ∧
    s.Accepted m u :=
  ⟨up, _, msg, _, rfl, by unfold State.Accepted; exact ⟨_, rfl, rfl, by decide +kernel, by decide +kernel, by decide +kernel,
    by decide +kernel, by decide +kernel, by decide +kernel⟩⟩

/-- The hypotheses of `BobbinRequests`, clause 5, meet. -/
theorem witness_bobbinRequests_5 : ∃ (s : State) (u : State) (x : BobbinMsg) (m : BMsg) (q : Req) (hit : List DieId),
    m = bmsgOf x vCancel ∧
    s.Accepted m u ∧
    u.reqOf m.src (objField m.object 0 16) = some q ∧
    q.op ≠ 0 ∧
    q.role = m.role ∧
    hit = (u.diesOf m.role).filter (fun d => (u.die d).reads.any (fun r => decide (r.id = q.op)) || (u.die d).progs.any (fun p => decide (p.opId = q.op ∧ p.kind = .raw)) || (u.die d).eraseQ.any (fun e => decide (e.opId = q.op))) ∧
    hit ≠ [] :=
  ⟨upCancel, _, msg, _, _, _, rfl, by unfold State.Accepted; exact ⟨_, rfl, rfl, by decide +kernel, by decide +kernel,
    by decide +kernel, by decide +kernel, by decide +kernel, by decide +kernel⟩, rfl, by decide +kernel, rfl, rfl,
    by decide +kernel⟩

/-- The hypotheses of `BobbinRequests`, clause 6, meet. -/
theorem witness_bobbinRequests_6 : ∃ (s : State) (u : State) (x : BobbinMsg) (m : BMsg),
    m = bmsgOf x vCancel ∧
    s.Accepted m u ∧
    u.reqOf m.src (objField m.object 0 16) = none :=
  ⟨up, _, msg, _, rfl, by unfold State.Accepted; exact ⟨_, rfl, rfl, by decide +kernel, by decide +kernel, by decide +kernel,
    by decide +kernel, by decide +kernel, by decide +kernel⟩, by decide +kernel⟩

/-- The hypotheses of `BobbinRequests`, clause 7, meet. -/
theorem witness_bobbinRequests_7 : ∃ (s : State) (u : State) (v : State) (x : BobbinMsg) (m : BMsg),
    m = bmsgOf x vToken ∧
    s.Accepted m u ∧
    v = u.answer m 0x20 0#128 ∧
    ((List.range 16).filter (fun c => (u.die (u.dieOf (u.groupOf m.die) (16 * (u.colOf m.die / 16) + c))).token)).length < v.tokenCount (u.groupOf m.die) (u.colOf m.die / 16) ∧
    v.darnUnissued (u.groupOf m.die) (u.colOf m.die / 16) = false ∧
    (u.die m.die).token = false ∧
    (u.die m.die).failed = false ∧
    (u.die m.die).progs.any ProgOp.takesToken = true :=
  ⟨upToken, _, _, msg, _, rfl, by unfold State.Accepted; exact ⟨_, rfl, rfl, by decide +kernel, by decide +kernel,
    by decide +kernel, by decide +kernel, by decide +kernel, by decide +kernel⟩, rfl, by decide +kernel⟩

/-- The hypotheses of `BobbinRequests`, clause 8, meet. -/
theorem witness_bobbinRequests_8 : ∃ (s : State) (u : State) (v : State) (x : BobbinMsg) (m : BMsg),
    m = bmsgOf x vReset ∧
    s.Accepted m u ∧
    v = u.answer m 0x20 0#128 ∧
    v.dieFailed m.die = false :=
  ⟨up, _, _, msg, _, rfl, by unfold State.Accepted; exact ⟨_, rfl, rfl, by decide +kernel, by decide +kernel,
    by decide +kernel, by decide +kernel, by decide +kernel, by decide +kernel⟩, rfl, by decide +kernel⟩

/-- The hypotheses of `BobbinRequests`, clause 9, meet. -/
theorem witness_bobbinRequests_9 : ∃ (s : State) (u : State) (v : State) (x : BobbinMsg) (m : BMsg) (d : DieId) (r : List DieId),
    m = bmsgOf x vAdopt ∧
    s.fray 2 m.dest 0 = ([], v) ∧
    u = v.takeReq m ∧
    u.isBobbin m.dest = true ∧
    u.pow.stopped.contains (u.bobbinDomain m.dest) = false ∧
    (u.bobbin m.dest).fenced = false ∧
    (u.role m.role).st = .adopting ∧
    (u.role m.role).owner = m.dest ∧
    (u.role m.role).epoch = m.epoch ∧
    (u.bobbin m.dest).st = .spare ∧
    u.diesOf m.role = d :: r :=
  ⟨upAdopt, _, _, msgAdopt, _, _, _, rfl, rfl, rfl, by decide +kernel, by decide +kernel, by decide +kernel,
    by decide +kernel, rfl, rfl, by decide +kernel, rfl⟩

/-- The hypotheses of `BobbinRequests`, clause 10, meet. -/
theorem witness_bobbinRequests_10 : ∃ (s : State) (u : State) (v : State) (w : State) (x : BobbinMsg) (m : BMsg),
    m = bmsgOf x vHandover ∧
    s.fray 2 m.dest 0 = ([], v) ∧
    u = v.takeReq m ∧
    u.isBobbin m.dest = true ∧
    u.pow.stopped.contains (u.bobbinDomain m.dest) = false ∧
    (u.bobbin m.dest).fenced = false ∧
    (u.bobbin m.dest).st = .owns ∧
    (u.bobbin m.dest).role = some m.role ∧
    (u.bobbin m.dest).epoch = m.epoch ∧
    (u.role m.role).st = .active ∧
    w = ((u.dropQueued m.role).answer m 0x20 0#128).setBobbin m.dest { u.bobbin m.dest with st := .reloading, role := none, gave := some m.role } :=
  ⟨up, _, _, _, msg, _, rfl, rfl, rfl, by decide +kernel, by decide +kernel, by decide +kernel, by decide +kernel, rfl, rfl,
    by decide +kernel, rfl⟩

/-- The hypotheses of `BobbinRequests`, clause 11, meet. -/
theorem witness_bobbinRequests_11 : ∃ (u : State) (m : BMsg),
    (u.isBobbin m.dest = true → u.pow.stopped.contains (u.bobbinDomain m.dest) = false) ∧
    (u.isBobbin m.dest = false ∨ (u.bobbin m.dest).fenced = true) :=
  ⟨up, bmsgOf { msg with dest := 250#8 } vRead, by decide +kernel⟩

/-- The hypotheses of `BobbinRequests`, clause 12, meet. -/
theorem witness_bobbinRequests_12 : ∃ (u : State) (m : BMsg),
    (u.isBobbin m.dest = true → u.pow.stopped.contains (u.bobbinDomain m.dest) = false) ∧
    (u.isBobbin m.dest = false ∨ (u.bobbin m.dest).fenced = true) :=
  ⟨up, bmsgOf { msg with dest := 250#8 } vRead, by decide +kernel⟩

/-- The hypotheses of `BobbinReplies`, clause 2, meet. -/
theorem witness_bobbinReplies_2 : ∃ (s : State) (u : State) (x : BobbinMsg) (m : BMsg),
    m = bmsgOf x 0x21 ∧
    u = s.takeRsp m :=
  ⟨up, _, msg, _, rfl, rfl⟩

/-- The hypotheses of `BobbinReplies`, clause 3, meet. -/
theorem witness_bobbinReplies_3 : ∃ (s : State) (u : State) (x : BobbinMsg) (m : BMsg) (q : Req),
    m = bmsgOf x 0x22 ∧
    u = s.takeRsp m ∧
    u.reqOf m.dest m.opId = some q ∧
    q.op = 0 ∧
    q.answered = false ∧
    q.epoch = m.epoch ∧
    q.dest = m.src ∧
    u.isBobbin q.dest = true ∧
    q.role < u.roles :=
  ⟨{ up with eng.reqs := [req9] }, _, { msg with dest := 9#8, src := 9#8 }, _, _, rfl, rfl, rfl, by decide +kernel,
    by decide +kernel, rfl, rfl, by decide +kernel⟩

/-- The hypotheses of `BobbinReplies`, clause 4, meet. -/
theorem witness_bobbinReplies_4 : ∃ (s : State) (u : State) (x : BobbinMsg) (m : BMsg) (q : Req),
    m = bmsgOf x 0x22 ∧
    u = s.takeRsp m ∧
    u.reqOf m.dest m.opId = some q ∧
    q.op = 0 ∧
    q.answered = false ∧
    q.epoch = m.epoch ∧
    q.dest = m.src ∧
    (u.isBobbin q.dest = false ∨ u.roles ≤ q.role) :=
  ⟨{ up with eng.reqs := [{ req9 with dest := 250 }] }, _, { msg with dest := 9#8, src := 250#8 }, _, _, rfl, rfl, rfl,
    by decide +kernel, by decide +kernel, rfl, rfl, by decide +kernel⟩

/-- The hypotheses of `BobbinReplies`, clause 5, meet. -/
theorem witness_bobbinReplies_5 : ∃ (s : State) (u : State) (x : BobbinMsg) (m : BMsg) (q : Req),
    m = bmsgOf x 0x22 ∧
    u = s.takeRsp m ∧
    u.reqOf m.dest m.opId = some q ∧
    q.epoch ≠ m.epoch :=
  ⟨{ up with eng.reqs := [{ req9 with epoch := 2 }] }, _, { msg with dest := 9#8, src := 9#8 }, _, _, rfl, rfl, rfl,
    by decide +kernel⟩

/-- The hypotheses of `BobbinReplies`, clause 6, meet. -/
theorem witness_bobbinReplies_6 : ∃ (s : State) (u : State) (x : BobbinMsg) (m : BMsg),
    m = bmsgOf x 0x23 ∧
    u = s.takeRsp m ∧
    (u.die m.die).token = true ∧
    (u.die m.die).prog = none :=
  ⟨upHold, _, msg, _, rfl, rfl, by decide +kernel⟩

/-- The hypotheses of `BobbinReplies`, clause 8, meet. -/
theorem witness_bobbinReplies_8 : ∃ (s : State) (u : State) (x : BobbinMsg) (m : BMsg),
    m = bmsgOf x 0x30 ∧
    u = { s with eng.ctrl := s.eng.ctrl.erase m } ∧
    (u.role m.role).st = .active ∧
    (u.role m.role).epoch = m.epoch :=
  ⟨up, _, msg, _, rfl, rfl, by decide +kernel, rfl⟩

/-- The hypotheses of `BobbinReplies`, clause 10, meet. -/
theorem witness_bobbinReplies_10 : ∃ (s : State) (u : State) (t : Nat),
    u = s.atTime t ∧
    u.eng.probed = true :=
  ⟨{ up with eng.probed := true }, _, 5000000, rfl, by decide +kernel⟩

/-- The hypotheses of `BobbinReplies`, clause 11, meet. -/
theorem witness_bobbinReplies_11 : ∃ (s : State) (u : State) (t : Nat),
    u = s.atTime t ∧
    u.eng.probed = false :=
  ⟨up, _, 5000000, rfl, by decide +kernel⟩

/-- The hypotheses of `BobbinReplies`, clause 13, meet. -/
theorem witness_bobbinReplies_13 : ∃ (s : State) (u : State) (b : Nat) (t : Nat) (cause : BobbinFault),
    u = s.atTime t ∧
    (cause ≠ .spareCheck ∨ (u.bobbin b).st = .spare) ∧
    (cause ≠ .microcode ∨ u.hem.actBobbins.contains b = false) :=
  ⟨up, _, 9, 5000000, .microcode, rfl, by decide +kernel⟩

/-- The hypotheses of `BobbinReplies`, clause 14, meet. -/
theorem witness_bobbinReplies_14 : ∃ (s : State) (u : State) (b : Nat) (t : Nat),
    u = s.atTime t ∧
    (u.hem.actStep = 6 ∨ u.hem.actStep = 7) ∧
    u.hem.actBobbins.contains b = true :=
  ⟨{ up with hem.actStep := 6, hem.actBobbins := [9] }, _, 9, 5000000, rfl, by decide +kernel⟩

/-- The hypotheses of `ReadPathEvents`, clause 1, meet. -/
theorem witness_readPathEvents_1 : ∃ (s : State) (d : DieId),
    (s.die d).reading ≠ [] ∧
    (s.die d).dataOut = false ∧
    s.busPending d .readCmd = false :=
  ⟨upDie { die0 with reading := [read0] }, ⟨2, 8⟩, by decide +kernel⟩

/-- The hypotheses of `ReadPathEvents`, clause 2, meet. -/
theorem witness_readPathEvents_2 : ∃ (s : State) (d : DieId) (r : DieRead) (rs : List DieRead),
    (s.die d).reading = r :: rs ∧
    (s.die d).dataOut = true ∧
    s.busPending d .dataOut = false :=
  ⟨upDie { die0 with reading := [read0], dataOut := true }, ⟨2, 8⟩, _, _, rfl, by decide +kernel⟩

/-- The hypotheses of `ReadPathEvents`, clause 3, meet. -/
theorem witness_readPathEvents_3 : ∃ (s : State) (opId : Nat) (soft : Bool),
    (s.laneOf opId soft).isSome = true :=
  ⟨{ up with rd.ldpc := [(4, (0, read0))] }, 6, false, by decide +kernel⟩

/-- The hypotheses of `ReadPathEvents`, clause 4, meet. -/
theorem witness_readPathEvents_4 : ∃ (s : State) (u : State) (group : Nat) (t : Nat),
    u = s.atTime t ∧
    ((u.bucket group).exhausted = true ∨ (u.bucket group).inOver = true) ∧
    ((u.rd.depth * 10 ^ 9 : Nat) : Int) ≤ 2 * (u.bucket group).level :=
  ⟨{ up with rd.depth := 2, rd.buckets := [(1, ⟨1000000000, 0, true, 0, [], false⟩)] }, _, 1, 5000000, rfl, by decide +kernel⟩

/-- The hypotheses of `ReadPathEvents`, clause 5, meet. -/
theorem witness_readPathEvents_5 : ∃ (s : State) (u : State) (t : Nat),
    u = s.atTime t ∧
    u.rd.windowUs + 10000 ≤ u.now :=
  ⟨{ up with rd.windowUs := 4000000 }, _, 5000000, rfl, by decide +kernel⟩

/-- The hypotheses of `ReadPathEvents`, clause 6, meet. -/
theorem witness_readPathEvents_6 : ∃ (s : State) (d : DieId) (e : EraseRun),
    (s.die d).erase = some e ∧
    e.suspended = false ∧
    s.busPending d .eraseConfirm = false ∧
    s.busPending d .resume = false :=
  ⟨upDie { die0 with erase := some erase0 }, ⟨2, 8⟩, _, rfl, by decide +kernel⟩

/-- The hypotheses of `ReadPathEvents`, clause 7, meet. -/
theorem witness_readPathEvents_7 : ∃ (s : State) (d : DieId) (e : EraseRun),
    (s.die d).erase = some e ∧
    e.suspending = true ∧
    s.busPending d .suspend = false :=
  ⟨upDie { die0 with erase := some { erase0 with suspending := true } }, ⟨2, 8⟩, _, rfl, by decide +kernel⟩

/-- The hypotheses of `ReadPathEvents`, clause 8, meet. -/
theorem witness_readPathEvents_8 : ∃ (s : State) (d : DieId) (opId : Nat),
    (∃ r ∈ (s.die d).reads, r.id = opId ∧ r.serves = .bulk) :=
  ⟨upDie { die0 with reads := [{ read0 with serves := .bulk }] }, ⟨2, 8⟩, 6, ⟨_, .head _, rfl, rfl⟩⟩

/-- The hypotheses of `ReadPathEvents`, clause 9, meet. -/
theorem witness_readPathEvents_9 : ∃ (s : State) (d : DieId),
    (s.die d).token = true ∧
    (s.die d).prog = none :=
  ⟨upHold, ⟨2, 8⟩, by decide +kernel⟩

/-- The hypotheses of `ReadPathEvents`, clause 10, meet. -/
theorem witness_readPathEvents_10 : ∃ (s : State) (u : State) (d : DieId) (impossible : Bool) (t : Nat),
    u = s.atTime t ∧
    u.geo.media = true ∧
    d.ch < u.channels ∧
    d.pos < u.geo.n ∧
    (u.die d).failed = false ∧
    impossible = false ∧
    (u.die d).operating = true :=
  ⟨upDie { die0 with reading := [read0] }, _, ⟨2, 8⟩, _, 5000000, rfl, by decide +kernel, by decide +kernel,
    by decide +kernel, by decide +kernel, rfl, by decide +kernel⟩

/-- The hypotheses of `ReadPathEvents`, clause 11, meet. -/
theorem witness_readPathEvents_11 : ∃ (s : State) (u : State) (d : DieId) (t : Nat),
    u = s.atTime t ∧
    u.geo.media = true ∧
    d.ch < u.channels ∧
    d.pos < u.geo.n ∧
    (u.die d).failed = false :=
  ⟨upDie { die0 with reading := [read0] }, _, ⟨2, 8⟩, 5000000, rfl, by decide +kernel⟩

/-- The hypotheses of `ReclaimEvents`, clause 1, meet. -/
theorem witness_reclaimEvents_1 : ∃ (s : State) (bolt : Nat),
    s.eraseHead (boltGroup bolt) = some bolt ∧
    s.intentRoom = true ∧
    s.lastCall = false ∧
    s.blockErasing = false :=
  ⟨up, 0, by decide +kernel⟩

/-- The hypotheses of `ReclaimEvents`, clause 2, meet. -/
theorem witness_reclaimEvents_2 : ∃ (s : State) (d : DieId) (e : EraseRun),
    (s.die d).erase = some e ∧
    e.suspended = false ∧
    e.suspending = false ∧
    s.adopting d = false ∧
    s.busPending d .eraseConfirm = false ∧
    s.busPending d .resume = false :=
  ⟨upDie { die0 with erase := some erase0 }, ⟨2, 8⟩, _, rfl, by decide +kernel⟩

/-- The hypotheses of `ReclaimEvents`, clause 3, meet. -/
theorem witness_reclaimEvents_3 : ∃ (s : State) (item : Nat) (it : Item),
    item < 2 ^ 32 ∧
    s.item item = some it ∧
    it.urg ≠ .urgent ∧
    (ageLimit s.recl.mergeAgeS it.kind).isSome = true :=
  ⟨upItem .refreshNormal, 1, _, by decide +kernel, rfl, by decide +kernel⟩

/-- The hypotheses of `ReclaimEvents`, clause 4, meet. -/
theorem witness_reclaimEvents_4 : ∃ (s : State) (bolt : Nat),
    ((s.bolt bolt).st = .released ∨ (s.bolt bolt).st = .erasing) ∧
    (s.bolt bolt).urgent = false :=
  ⟨{ up with bolts.table := [(6, { (default : Bolt) with st := .released })] }, 6, by decide +kernel⟩

/-- The hypotheses of `ReclaimEvents`, clause 5, meet. -/
theorem witness_reclaimEvents_5 : ∃ (s : State) (group : Nat) (it : Item) (r : List Item),
    s.waitingMerges group = it :: r ∧
    s.groupIdle group = true :=
  ⟨upMerge, 0, _, _, rfl, by decide +kernel⟩

/-- The hypotheses of `ReclaimEvents`, clause 6, meet. -/
theorem witness_reclaimEvents_6 : ∃ (s : State) (tenant : Nat) (region : Nat) (it : Item),
    s.recl.items.find? (fun i => match i.kind with | .merge t x _ => decide (t = tenant ∧ x = region ∧ !i.running) | _ => false) = some it ∧
    it.urg ≠ .background :=
  ⟨{ upMerge with recl.items := [{ (default : Item) with id := 1, bolt := 6, kind := .merge 2 0 0, urg := .foreground }] },
    2, 0, _, rfl, by decide +kernel⟩

/-- The hypotheses of `ReclaimEvents`, clause 7, meet. -/
theorem witness_reclaimEvents_7 : ∃ (s : State) (bolt : Nat) (kind : MoveKind) (it : Item),
    s.recl.items.find? (fun i => decide (i.bolt = bolt) && moveNames kind i.kind && !i.running) = some it :=
  ⟨upItem .refreshNormal, 6, .refreshNormal, _, rfl⟩

/-- The hypotheses of `ReclaimEvents`, clause 8, meet. -/
theorem witness_reclaimEvents_8 : ∃ (s : State) (u : State) (v : State) (bolt : Nat) (pick : Nat),
    (s.bolt bolt).st = .bound ∧
    (s.bolt bolt).patrolDue s.now = true ∧
    u = (s.setBolt bolt { s.bolt bolt with patrolUs := some s.now }).queueItem .patrol bolt ∧
    v = { u with recl.items := u.recl.items.map (fun (i : Item) => if i.id = s.recl.nextItem then { i with running := true, cur := s.patrolSectors bolt pick } else i) } ∧
    s.patrolSectors bolt pick ≠ [] :=
  ⟨upPatrol, _, _, 6, 1, by decide +kernel, by decide +kernel, rfl, rfl, by decide +kernel⟩

/-- The hypotheses of `ReclaimEvents`, clause 9, meet. -/
theorem witness_reclaimEvents_9 : ∃ (s : State) (bolt : Nat),
    ((s.bolt bolt).st ≠ .bound ∨ (s.bolt bolt).patrolDue s.now = false) :=
  ⟨{ up with bolts.table := [(6, { (default : Bolt) with st := .released })] }, 6, by decide +kernel⟩

/-- The hypotheses of `WritePathEvents`, clause 1, meet. -/
theorem witness_writePathEvents_1 : ∃ (s : State) (u : State) (f : FnId) (sqid : Nat) (cid : Nat) (sector : Nat) (w : Wr),
    s.writeOf f sqid cid = some w ∧
    w.stage = .data ∧
    w.kind ≠ .zeroes ∧
    sector < w.len ∧
    w.arrived.contains sector = false ∧
    w.dataErr = [] ∧
    u = (if w.arrived.length + 1 = w.len then s.hostWaited w else s) :=
  ⟨upWr, _, f1, 1, 4, 0, _, rfl, by decide +kernel, by decide +kernel, by decide +kernel, by decide +kernel,
    by decide +kernel, rfl⟩

/-- The hypotheses of `WritePathEvents`, clause 2, meet. -/
theorem witness_writePathEvents_2 : ∃ (s : State) (u : State) (lane : Nat) (j : SeamJob),
    Tab.find s.rd.lanes lane = some j ∧
    u = ({ s with rd.lanes := Tab.del s.rd.lanes lane } : State).seamAssign ∧
    j.isRead = true :=
  ⟨{ up with rd.lanes := [(3, { (default : SeamJob) with isRead := true })] }, _, 3, _, rfl, rfl, by decide +kernel⟩

/-- The hypotheses of `WritePathEvents`, clause 3, meet. -/
theorem witness_writePathEvents_3 : ∃ (s : State) (u : State) (lane : Nat) (j : SeamJob) (w : Wr),
    Tab.find s.rd.lanes lane = some j ∧
    u = ({ s with rd.lanes := Tab.del s.rd.lanes lane } : State).seamAssign ∧
    j.isRead = false ∧
    u.write j.cmd = some w :=
  ⟨{ upWr with rd.lanes := [(3, { (default : SeamJob) with cmd := 1 })] }, _, 3, _, wr1, rfl, rfl, by decide +kernel⟩

/-- The hypotheses of `WritePathEvents`, clause 4, meet. -/
theorem witness_writePathEvents_4 : ∃ (s : State) (u : State) (channel : Nat) (d : Drain) (r : List Drain) (q : List Drain),
    Tab.get [] s.mem.drains channel = d :: r ∧
    q = (if d.left - 1 = 0 then r else { d with left := d.left - 1 } :: r) ∧
    u = { s with mem.drains := if q = [] then Tab.del s.mem.drains channel else Tab.set s.mem.drains channel q } :=
  ⟨{ up with mem.drains := [(1, [⟨1, 0, 2⟩])] }, _, 1, _, _, _, rfl, rfl, rfl⟩

/-- The hypotheses of `WritePathEvents`, clause 5, meet. -/
theorem witness_writePathEvents_5 : ∃ (s : State) (u : State) (f : FnId) (sqid : Nat) (cid : Nat) (t : Nat) (w : Wr),
    u = s.atTime t ∧
    u.writeOf f sqid cid = some w ∧
    u.ready123 w = true ∧
    u.lastCall = false ∧
    u.supply.armed = true ∧
    u.exposed + w.len ≤ u.capSectors ∧
    u.noneBlocked w = true :=
  ⟨upReady 64, _, f1, 1, 4, 5000000, _, rfl, rfl, by decide +kernel⟩

/-- The hypotheses of `WritePathEvents`, clause 6, meet. -/
theorem witness_writePathEvents_6 : ∃ (s : State) (u : State) (f : FnId) (sqid : Nat) (cid : Nat) (t : Nat) (w : Wr),
    u = s.atTime t ∧
    u.writeOf f sqid cid = some w ∧
    u.ready123 w = true ∧
    u.lastCall = false ∧
    u.supply.armed = true ∧
    u.capSectors < u.exposed + w.len :=
  ⟨upReady 0, _, f1, 1, 4, 5000000, _, rfl, rfl, by decide +kernel⟩

/-- The hypotheses of `WritePathEvents`, clause 7, meet. -/
theorem witness_writePathEvents_7 : ∃ (s : State) (u : State) (f : FnId) (sqid : Nat) (cid : Nat) (t : Nat) (w : Wr),
    u = s.atTime t ∧
    u.writeOf f sqid cid = some w ∧
    (u.ready123 w = false ∨ u.lastCall = true ∨ u.supply.armed = false) :=
  ⟨upWr, _, f1, 1, 4, 5000000, _, rfl, rfl, by decide +kernel⟩

/-- The hypotheses of `WritePathEvents`, clause 8, meet. -/
theorem witness_writePathEvents_8 : ∃ (s : State) (tenant : Nat) (nsid : Nat) (index : Nat) (p : Partial),
    s.wr.partials.find? (fun p => decide (p.tenant = tenant ∧ p.nsid = nsid ∧ p.index = index)) = some p :=
  ⟨{ up with wr.partials := [{ (default : Partial) with tenant := 2, nsid := 1, index := 65536 }] }, 2, 1, 65536, _, rfl⟩

/-- The hypotheses of `WritePathEvents`, clause 9, meet. -/
theorem witness_writePathEvents_9 : ∃ (s : State) (die : DieId) (found : StatusRead),
    s.busPending die .progConfirm = false ∧
    s.adopting die = false ∧
    (found.again = false ∨ (s.die die).adopted = false) :=
  ⟨upWr, ⟨2, 8⟩, ⟨true, false⟩, by decide +kernel⟩

/-- The hypotheses of `WritePathEvents`, clause 10, meet. -/
theorem witness_writePathEvents_10 : ∃ (s : State) (die : DieId) (found : StatusRead),
    s.busPending die .progConfirm = false ∧
    s.adopting die = false ∧
    found.again = true ∧
    (s.die die).adopted = true :=
  ⟨{ up with dies.table := [(72, { die0 with adopted := true })] }, ⟨2, 8⟩, ⟨false, true⟩, by decide +kernel⟩

/-- The hypotheses of `SpdmRequests`, clause 1, meet. -/
theorem witness_spdmRequests_1 : ∃ (s : State) (u : State),
    s.aon.booted = true ∧
    s.aon.coreReset = false ∧
    u = s.wakeUp 5 0xFFFF :=
  ⟨upSpdm, _, by decide +kernel, by decide +kernel, rfl⟩

/-- The hypotheses of `SpdmRequests`, clause 2, meet. -/
theorem witness_spdmRequests_2 : ∃ (s : State) (u : State),
    s.aon.booted = true ∧
    s.aon.coreReset = false ∧
    u = s.wakeUp 5 0xFFFF ∧
    u.aon.spdmVersion = true :=
  ⟨upSpdm, _, by decide +kernel, by decide +kernel, rfl, by decide +kernel⟩

/-- The hypotheses of `SpdmRequests`, clause 3, meet. -/
theorem witness_spdmRequests_3 : ∃ (s : State) (u : State),
    s.aon.booted = true ∧
    s.aon.coreReset = false ∧
    u = s.wakeUp 5 0xFFFF ∧
    u.aon.spdmVersion = false :=
  ⟨up, _, by decide +kernel, by decide +kernel, rfl, by decide +kernel⟩

/-- The hypotheses of `SpdmRequests`, clause 4, meet. -/
theorem witness_spdmRequests_4 : ∃ (s : State) (u : State) (e : Bool) (h : Bool),
    s.aon.booted = true ∧
    s.aon.coreReset = false ∧
    u = s.wakeUp 5 0xFFFF ∧
    u.aon.spdmVersion = true ∧
    (e = true ∨ h = true) :=
  ⟨upSpdm, _, true, true, by decide +kernel, by decide +kernel, rfl, by decide +kernel⟩

/-- The hypotheses of `SpdmRequests`, clause 5, meet. -/
theorem witness_spdmRequests_5 : ∃ (s : State) (u : State),
    s.aon.booted = true ∧
    s.aon.coreReset = false ∧
    u = s.wakeUp 5 0xFFFF ∧
    u.aon.spdmVersion = true :=
  ⟨upSpdm, _, by decide +kernel, by decide +kernel, rfl, by decide +kernel⟩

/-- The hypotheses of `SpdmRequests`, clause 6, meet. -/
theorem witness_spdmRequests_6 : ∃ (s : State) (u : State),
    s.aon.booted = true ∧
    s.aon.coreReset = false ∧
    u = s.wakeUp 5 0xFFFF ∧
    u.aon.spdmAlg = true :=
  ⟨upSpdm, _, by decide +kernel, by decide +kernel, rfl, by decide +kernel⟩

/-- The hypotheses of `SpdmRequests`, clause 7, meet. -/
theorem witness_spdmRequests_7 : ∃ (s : State) (u : State),
    s.aon.booted = true ∧
    s.aon.coreReset = false ∧
    u = s.wakeUp 5 0xFFFF ∧
    u.aon.spdmAlg = true :=
  ⟨upSpdm, _, by decide +kernel, by decide +kernel, rfl, by decide +kernel⟩

/-- The hypotheses of `SpdmRequests`, clause 8, meet. -/
theorem witness_spdmRequests_8 : ∃ (s : State) (u : State),
    s.aon.booted = true ∧
    s.aon.coreReset = false ∧
    u = s.wakeUp 5 0xFFFF ∧
    u.aon.spdmAlg = true :=
  ⟨upSpdm, _, by decide +kernel, by decide +kernel, rfl, by decide +kernel⟩

/-- The hypotheses of `SpdmRequests`, clause 9, meet. -/
theorem witness_spdmRequests_9 : ∃ (s : State) (u : State),
    s.aon.booted = true ∧
    s.aon.coreReset = false ∧
    u = s.wakeUp 5 0xFFFF ∧
    u.aon.spdmAlg = true :=
  ⟨upSpdm, _, by decide +kernel, by decide +kernel, rfl, by decide +kernel⟩

/-- The hypotheses of `SpdmRequests`, clause 10, meet. -/
theorem witness_spdmRequests_10 : ∃ (s : State) (u : State) (i : Nat),
    s.aon.booted = true ∧
    s.aon.coreReset = false ∧
    u = s.wakeUp 5 0xFFFF ∧
    u.aon.spdmAlg = true ∧
    i ≠ 0 ∧
    i ≠ 0xFF ∧
    (∃ p ∈ u.measurements, p.1 = i) :=
  ⟨upSpdm, _, 1, by decide +kernel, by decide +kernel, rfl, by decide +kernel, by decide +kernel, by decide +kernel, ⟨(1, _),
    List.mem_filterMap.mpr ⟨1, by decide +kernel, rfl⟩, rfl⟩⟩

/-- The hypotheses of `SpdmRequests`, clause 11, meet. -/
theorem witness_spdmRequests_11 : ∃ (s : State) (u : State),
    s.aon.booted = true ∧
    s.aon.coreReset = false ∧
    u = s.wakeUp 5 0xFFFF ∧
    u.aon.spdmAlg = false :=
  ⟨up, _, by decide +kernel, by decide +kernel, rfl, by decide +kernel⟩

/-- The hypotheses of `BobbinMessageWord`, clause 3, meet. -/
theorem witness_bobbinMessageWord_3 : ∃ (w : BitVec 192),
    w.extractLsb' 168 2 = 0#2 ∧
    w.extractLsb' 128 1 = 0#1 :=
  ⟨msg.word 1#6, by decide +kernel⟩

/-- The hypotheses of `DarningRebuildsStored`, clause 1, meet. -/
theorem witness_darningRebuildsStored_1 : ∃ (d : Nat),
    d < 15 :=
  ⟨14, by decide +kernel⟩

/-- The hypotheses of `DarningRebuildsStored`, clause 2, meet. -/
theorem witness_darningRebuildsStored_2 : ∃ (s : State) (b : Nat) (half : Nat) (row : Nat) (x : Nat) (e : Sealed),
    Tab.find s.dies.nand (nandKey b (dataOff (s.unitSectors b) half row 0 x)) = some e :=
  ⟨upPatrol, 6, 0, 0, 0, _, rfl⟩

/-- The hypotheses of `DramAddressMap`, clause 2, meet. -/
theorem witness_dramAddressMap_2 : ∃ (gib : Nat) (a : Nat),
    a < gib * 939524096 :=
  ⟨16, 15032385535, by decide +kernel⟩

/-- The hypotheses of `DramAddressMap`, clause 3, meet. -/
theorem witness_dramAddressMap_3 : ∃ (p : DramPlace),
    p.ch < 4 ∧
    p.bank < 16 ∧
    p.col < 56 :=
  ⟨⟨3, 0, 15, 65535, 55⟩, by decide +kernel⟩

/-- The hypotheses of `HemWordsReadBack`, clause 1, meet. -/
theorem witness_hemWordsReadBack_1 : ∃ (x : Select),
    x.seq < 2 ^ 16 ∧
    x.twin < 2 ^ 8 ∧
    x.fallback < 2 ^ 8 ∧
    x.mode < 2 ^ 8 :=
  ⟨⟨65535, 2, false, 1, 255⟩, by decide +kernel⟩

/-- The hypotheses of `HemWordsReadBack`, clause 2, meet. -/
theorem witness_hemWordsReadBack_2 : ∃ (start : Nat) (gap : Nat) (seq : Nat),
    start < 2 ^ 14 ∧
    gap < 2 ^ 14 ∧
    seq < 2 ^ 16 :=
  ⟨16383, 16383, 65535, by decide +kernel⟩

/-- The hypotheses of `HemWordsReadBack`, clause 3, meet. -/
theorem witness_hemWordsReadBack_3 : ∃ (svn : Nat),
    svn < 2 ^ 16 :=
  ⟨65535, by decide +kernel⟩

/-- The hypotheses of `HemWordsReadBack`, clause 4, meet. -/
theorem witness_hemWordsReadBack_4 : ∃ (kind : Nat) (action : Nat) (arg : Nat) (aux : Nat),
    kind < 16 ∧
    action < 16 ∧
    arg < 2 ^ 32 ∧
    aux < 256 :=
  ⟨15, 15, 4294967295, 255, by decide +kernel⟩

/-- A token that answers a nonce (R528). -/
def token1 : List Byte :=
  bytesLE 16 (places [(0, 0x47424454), (4, 1), (6, 256), (8, 1), (9, 1), (12, 3600)]) ++
    (bytesLE 32 (Config.freeNat 7) ++ (bytesLE 48 Config.deviceId ++ bytesLE 160 0))

/-- The hypotheses of `DebugCommands`, clause 2, meet. -/
theorem witness_debugCommands_2 : ∃ (s : State) (r : MbxReq) (n : Nat),
    s.Takes r ∧ r.target = 0#32 ∧ s.bme = true ∧ s.supply.ewLatched = false ∧ r.p 16 1 = 1 ∧ r.p 24 8 % 64 = 0 ∧ r.p 32 4 = 256 ∧
    r.env.bufOk = true ∧ tokenMalformed (r.input 256) = false ∧ s.liveNonce = some n ∧ r.env.sigOk = true ∧
    bufNum (r.input 256) 16 32 = Config.freeNat n % 2 ^ 256 ∧ bufNum (r.input 256) 48 48 = Config.deviceId % 2 ^ 384 ∧
    r.Zero [(17, 7), (36, 28)] := by
  have h1 : (((reqIn 0 [(16, 1), (32, 256)] token1).input 256).drop 16).take 32 = bytesLE 32 (Config.freeNat 7) := rfl
  have h2 : (((reqIn 0 [(16, 1), (32, 256)] token1).input 256).drop 48).take 48 = bytesLE 48 Config.deviceId := rfl
  refine ⟨{ up with dbg.nonce := some (7, 5000000) }, reqIn 0 [(16, 1), (32, 256)] token1, 7,
    by unfold State.Takes State.MbxIdle State.Calm; decide +kernel, by decide +kernel, by decide +kernel, by decide +kernel,
    by decide +kernel, by decide +kernel, by decide +kernel, rfl, by decide +kernel, by decide +kernel, rfl, ?_, ?_,
    by unfold MbxReq.Zero; decide +kernel⟩
  · unfold bufNum
    rw [h1, numLE_bytesLE, show (256 : Nat) ^ 32 = 2 ^ 256 from (Nat.pow_mul 2 8 32).symm]
  · unfold bufNum
    rw [h2, numLE_bytesLE, show (256 : Nat) ^ 48 = 2 ^ 384 from (Nat.pow_mul 2 8 48).symm]

/-- A snapshot blob of the frozen tenant's (R287). -/
def blob1 : List Byte :=
  bytesLE 40 (places [(0, 0x504E5354), (4, 1), (8, 128), (12, 0x10002001), (16, 3)]) ++
    (bytesLE 8 (Config.digest 100 up.hem.bootCount) ++ bytesLE 80 0)

/-- The hypotheses of `SnapshotCommands`, clause 3, meet. -/
theorem witness_snapshotCommands_3 : ∃ (s : State) (r : MbxReq) (p : Port) (k vf : Nat) (t : Tenant) (x : Snap) (b : List Byte),
    s.Takes r ∧
    r.target = 0#32 ∧
    r.env.hemOk = true ∧
    s.bme = true ∧
    s.supply.ewLatched = false ∧
    r.p 16 1 = 1 ∧
    r.p 17 1 ≤ 1 ∧
    p = portOf (r.p 17 1) ∧
    1 ≤ r.p 18 2 ∧
    (r.p 18 2 ≤ 1023 ∨ r.p 18 2 = 0xFFFF) ∧
    r.p 20 4 = 0 ∧
    r.Buffer 24 32 128 ∧
    b = r.input (r.p 32 4) ∧
    bufNum b 0 4 = 0x504E5354 ∧
    bufNum b 4 2 = 1 ∧
    bufNum b 8 4 = r.p 32 4 ∧
    s.checkHandle 1 (bufNum b 12 4) = .valid k k ∧
    bufNum b 16 4 = t.freezeSeq ∧
    bufNum b 40 8 = Config.digest 100 s.hem.bootCount % 2 ^ 64 ∧
    r.env.sigOk = true ∧
    s.tenant k = some t ∧
    t.frozen = true ∧
    t.freezing = false ∧
    s.pickVf p (r.p 18 2) = some vf ∧
    (s.fn ⟨p, vf⟩).bme = true ∧
    (t.vectors = 0 ∨ (s.fn ⟨p, vf⟩).msixEn = true) ∧
    (s.host.joined = true → r.p 17 1 ≠ 1) ∧
    (∀ q ∈ s.host.tenants, q.1 = k ∨ q.2.fn ≠ some ⟨p, vf⟩) ∧
    s.host.snaps.find? (fun y => decide (y.tenant = k ∧ y.seq = t.freezeSeq)) = some x ∧
    r.Zero [(36, 28)] := by
  have h1 : (((reqIn 0 [(16, 1), (18, 7), (32,
    128)] blob1).input 128).drop 40).take 8 = bytesLE 8 (Config.digest 100 up.hem.bootCount) := rfl
  refine ⟨upSnap, reqIn 0 [(16, 1), (18, 7), (32, 128)] blob1, .a, 2, 7, frozen2, snap1, (reqIn 0 [(16, 1), (18, 7), (32,
    128)] blob1).input 128,
    by unfold State.Takes State.MbxIdle State.Calm; decide +kernel, by decide +kernel, by decide +kernel, by decide +kernel,
      by decide +kernel, by decide +kernel, by decide +kernel, by decide +kernel, by decide +kernel, by decide +kernel,
      by decide +kernel, by unfold MbxReq.Buffer; decide +kernel, by rfl, by decide +kernel, by decide +kernel,
      by decide +kernel, by decide +kernel, by decide +kernel, ?_, by decide +kernel, by decide +kernel, by decide +kernel,
      by decide +kernel, by decide +kernel, by decide +kernel, by decide +kernel, by decide +kernel, by decide +kernel,
      by decide +kernel, by unfold MbxReq.Zero; decide +kernel⟩
  unfold bufNum
  rw [h1, numLE_bytesLE, show (256 : Nat) ^ 8 = 2 ^ 64 from (Nat.pow_mul 2 8 8).symm]
  rfl

end Sys2Proof.Tests
end

section
/-! SUPPORT. Doorbells and head writes of the manager mailbox (R48, R51), and opcodes that no command answers (R62). -/

namespace Sys2Proof.Machine

/-! Doorbells (R48). -/

/-- A 32-bit write at the offset of MBX_DOORBELL is a doorbell of that value. -/
theorem exec_registerWrite_mbxDoorbell {s : State} {p : Port} (env : MbxEnv) {v : Nat} (hp : s.portThere p = true)
    (hl : s.therm.latch = false) (hv : v < 2 ^ 32) :
    exec (.registerWrite (.bar2 p env) 0x2000 32 (BitVec.ofNat 64 v)) s = .next (s.mbxDoorbell p v env).after := by
  have hw : s.writeBar2 p env 0x2000 4 v = s.mbxDoorbell p v env := by simp [State.writeBar2, State.writeMbxReg, hp, hl]
  have hn : (BitVec.ofNat 64 v).toNat % 2 ^ (8 * 4) = v := by simp only [BitVec.toNat_ofNat]; omega
  calc exec (.registerWrite (.bar2 p env) 0x2000 32 (BitVec.ofNat 64 v)) s
      = .next (s.writeBar2 p env 0x2000 4 ((BitVec.ofNat 64 v).toNat % 2 ^ (8 * 4))).after := rfl
    _ = _ := by rw [hn, hw]

/-- A doorbell of a slot that is there and not busy submits the command that the slot's bytes spell. -/
theorem State.mbxDoorbell_free {s : State} {p : Port} (env : MbxEnv) {v : Nat} (hv : v < 64) (hb : (s.mbxPort p).slotBusy v = false) :
    s.mbxDoorbell p v env =
      s.mbxSubmit (s.slotReq p v env).1 (mbxHandler (s.slotReq p v env).1.toNat) (s.slotReq p v env).2 := by
  simp [State.mbxDoorbell, hb, Nat.not_le.mpr hv]

/-- The command that a free slot's bytes spell is in the slot already. -/
theorem State.mbxSlotWrite_slotReq {s : State} {p : Port} (env : MbxEnv) {v : Nat} (hb : (s.mbxPort p).slotBusy v = false)
    (hw : (s.mbxPort p).slots.wf = true) : s.mbxSlotWrite (s.slotReq p v env).1 (s.slotReq p v env).2 = s := by
  rw [State.mbxSlotWrite_free _ hb]
  show s.setMbxPort p { s.mbxPort p with slots := (s.mbxPort p).slots.writeBytes (64 * v) _ } = s
  rw [slotReq_bytes hw]
  exact State.setMbxPort_self s p

/-- A command submitted to a port that takes none only has its doorbell rejected, once its bytes are in the slot (R39, R42, R220). -/
theorem State.mbxSubmit_reject {s : State} {op : BitVec 16} {handler : MbxCmd → MbxReq → State → MbxRes} {r : MbxReq}
    (hp : s.portThere r.port = true) (hl : s.therm.latch = false) (hs : r.slot < 64) (hw : s.mbxSlotWrite op r = s)
    (h : s.mbxReady r.port = false ∨ s.eng.dead = true ∨ s.mbx.manager ≠ r.port) :
    s.mbxSubmit op handler r = s.mbxReject r.port r.slot := by
  unfold State.mbxSubmit
  rw [if_neg (by simp [hp, hl, hs]), hw]
  refine if_pos ?_
  rcases h with h | h | h <;> simp [h]

/-- When a doorbell is rejected (R39, R48, R220). -/
theorem State.mbxDoorbell_reject {s : State} {p : Port} (env : MbxEnv) {v : Nat} (hp : s.portThere p = true)
    (hl : s.therm.latch = false) (hw : (s.mbxPort p).slots.wf = true)
    (h : 64 ≤ v ∨ (s.mbxPort p).slotBusy v = true ∨ s.mbxReady p = false ∨ s.eng.dead = true ∨ s.mbx.manager ≠ p) :
    s.mbxDoorbell p v env = s.mbxReject p v := by
  by_cases hv : 64 ≤ v
  · simp [State.mbxDoorbell, hv]
  · cases hb : (s.mbxPort p).slotBusy v with
    | true => simp [State.mbxDoorbell, hb]
    | false =>
      rw [State.mbxDoorbell_free env (by omega) hb]
      have hr : s.mbxReady p = false ∨ s.eng.dead = true ∨ s.mbx.manager ≠ p := by simpa [hv, hb] using h
      exact State.mbxSubmit_reject (r := (s.slotReq p v env).2) hp hl (Nat.not_le.mp hv) (State.mbxSlotWrite_slotReq env hb hw) hr

/-! MBX_CQ_HEAD (R51). -/

/-- The advance of a head write: the difference of 6-bit words is the difference of the numbers mod 64. -/
theorem headAdvance_toNat (n : Nat) (h : BitVec 6) : (BitVec.ofNat 6 n - h).toNat = (n % 64 + 64 - h.toNat) % 64 := by
  have := h.isLt
  rw [BitVec.toNat_sub, BitVec.toNat_ofNat]
  omega

/-- The new HEAD that a value written to MBX_CQ_HEAD names. -/
theorem headField_eq (v : BitVec 32) : v.extractLsb' 0 6 = BitVec.ofNat 6 v.toNat := by
  apply BitVec.eq_of_toNat_eq
  simp

/-- A head write that advances by no more than is posted. -/
theorem State.mbxHead_advances {s : State} {p : Port} {v : BitVec 32} {adv : Nat} (hp : s.portThere p = true)
    (hm : s.mbx.manager = p) (ha : adv = (v.toNat % 64 + 64 - (s.mbxPort p).head.toNat) % 64) (hle : adv ≤ (s.mbxPort p).posted) :
    s.mbxHead p v = ((s.setMbxPort p { s.mbxPort p with
      head := BitVec.ofNat 6 v.toNat
      posted := (s.mbxPort p).posted - adv }).mbxDrain (s.mbxPort p).waiting.length p).policySettle := by
  unfold State.mbxHead
  simp only [headField_eq, headAdvance_toNat, ← ha]
  rw [if_neg (by simp [hp]), if_neg (not_or.mpr ⟨not_not.mpr hm, Nat.not_lt.mpr hle⟩)]

/-- A head write that advances by more than is posted. -/
theorem State.mbxHead_reject {s : State} {p : Port} {v : BitVec 32} (hp : s.portThere p = true)
    (hlt : (s.mbxPort p).posted < (v.toNat % 64 + 64 - (s.mbxPort p).head.toNat) % 64) : s.mbxHead p v = s.mbxReject p v.toNat := by
  unfold State.mbxHead
  simp only [headField_eq, headAdvance_toNat]
  rw [if_neg (by simp [hp]), if_pos (.inr hlt)]

/-- A head write of the current HEAD, with nothing that waits for it. -/
theorem State.mbxHead_same {s : State} {p : Port} {v : BitVec 32} (hp : s.portThere p = true) (hm : s.mbx.manager = p)
    (hv : v.toNat % 64 = (s.mbxPort p).head.toNat) (hw : (s.mbxPort p).waiting = []) (hd : s.pow.policyDue = false) :
    s.mbxHead p v = s := by
  have hh : BitVec.ofNat 6 v.toNat = (s.mbxPort p).head := BitVec.eq_of_toNat_eq (by simpa using hv)
  rw [State.mbxHead_advances (adv := 0) hp hm (by omega) (Nat.zero_le _), hh, hw]
  show (s.setMbxPort p (s.mbxPort p)).policySettle = s
  rw [State.setMbxPort_self, State.policySettle_none hd]

/-! Opcodes that no command answers (R62). -/

/-- How many opcodes the command index defines for each high byte (R62). -/
def opcodeIndex : List (Nat × Nat) := [(1, 9), (2, 6), (3, 7), (4, 6), (5, 5), (6, 7), (7, 6), (8, 6), (9, 4), (10, 6)]

/-- An opcode outside the command index has no handler of its own. -/
theorem mbxHandler_undefined {n : Nat} (h : ∀ q ∈ opcodeIndex, n / 256 = q.1 → n % 256 = 0 ∨ q.2 < n % 256) :
    mbxHandler n = badOpcodeCmd := by
  unfold mbxHandler
  split
  case h_63 => rfl
  all_goals exact absurd h (by decide)

/-- A key command on a variant without the cipher answers BAD_OPCODE and changes nothing (R5, R62). -/
theorem State.keyCmd_noCipher {s : State} (act : List (Bool × Nat) → MbxRes) (h : s.cipher = false) :
    s.keyCmd act = MbxRes.err s stBadOpcode := by
  simp [State.keyCmd, h]

/-- On a variant without the cipher every 0x04xx opcode answers BAD_OPCODE and changes nothing (R5, R62). -/
theorem mbxHandler_noCipher {n : Nat} {s : State} (c : MbxCmd) (r : MbxReq) (hn : n / 256 = 4) (hc : s.cipher = false) :
    mbxHandler n c r s = MbxRes.err s stBadOpcode := by
  by_cases hk : 1 ≤ n % 256 ∧ n % 256 ≤ 6
  · obtain rfl | rfl | rfl | rfl | rfl | rfl : n = 0x0401 ∨ n = 0x0402 ∨ n = 0x0403 ∨ n = 0x0404 ∨ n = 0x0405 ∨ n = 0x0406 := by omega
    all_goals simp only [mbxHandler, keyLoadCmd, keyRekeyBeginCmd, loadCmd, keyRekeyEndCmd, keyDestroyCmd, keyQueryCmd, wrapKeyInfoCmd,
      State.keyCmd_noCipher _ hc]
  · have hu : mbxHandler n = badOpcodeCmd := by
      refine mbxHandler_undefined ?_
      intro q hq he
      have h6 : ∀ q ∈ opcodeIndex, 4 = q.1 → q.2 = 6 := by decide
      have := h6 q hq (hn.symm.trans he)
      omega
    rw [hu]
    rfl

/-- The mailbox rows with an opcode 0x04xx: the key commands, and the row that takes any opcode. -/
theorem mailbox_keyRow {i : Instr} {op : BitVec 16} {r : MbxReq} (h : i.mailbox = some (op, r)) (h4 : op.toNat / 256 = 4) :
    i = .undefinedMailboxOpcode op r ∨
      (i, op) ∈ [(.keyLoad r, 0x0401#16), (.keyRekeyBegin r, 0x0402#16), (.keyRekeyEnd r, 0x0403#16), (.keyDestroy r, 0x0404#16),
        (.keyQuery r, 0x0405#16), (.wrapKeyInfo r, 0x0406#16)] := by
  unfold Instr.mailbox at h
  split at h
  all_goals cases h <;> simp at h4 ⊢

/-- A mailbox row with an opcode 0x04xx submits its command with the handler of its opcode. -/
theorem exec_keyRow {i : Instr} {op : BitVec 16} {r : MbxReq} (s : State) (h : i.mailbox = some (op, r)) (h4 : op.toNat / 256 = 4) :
    exec i s = .next (s.mbxSubmit op (mbxHandler op.toNat) r) ∨ exec i s = settled (.next (s.mbxSubmit op (mbxHandler op.toNat) r)) := by
  rcases mailbox_keyRow h h4 with rfl | hk
  · exact .inr rfl
  · simp only [List.mem_cons, Prod.mk.injEq, List.not_mem_nil, or_false] at hk
    obtain ⟨rfl, rfl⟩ | ⟨rfl, rfl⟩ | ⟨rfl, rfl⟩ | ⟨rfl, rfl⟩ | ⟨rfl, rfl⟩ | ⟨rfl, rfl⟩ := hk
    all_goals exact .inl rfl

/-- A row whose handler answers BAD_OPCODE at once: its completion is sent, and nothing else changes but what the start and the end
of a command change. -/
theorem State.Takes.badOpcode {s : State} {i : Instr} {op : BitVec 16} {handler : MbxCmd → MbxReq → State → MbxRes} {r : MbxReq}
    (hi : s.Takes r)
    (hx : exec i s = .next (s.mbxSubmit op handler r) ∨ exec i s = settled (.next (s.mbxSubmit op handler r)))
    (hh : handler (s.queuedCmd op r) r (s.begun op r) = MbxRes.err (s.begun op r) stBadOpcode) :
    ∃ t, exec i s = .next t ∧ t.MbxAnswered op r stBadOpcode 0 0 ∧ t.mkept = s.mkept := by
  obtain ⟨hidle, hcalm, -⟩ := hi
  obtain ⟨ha, hk⟩ := State.mbx_answers hidle hh rfl hidle.ports hidle.unarmed hidle.noPolicy
  have hkept := hk.trans (State.mkept_begun s op r)
  refine ⟨_, ?_, ha, hkept⟩
  rcases hx with hx | hx
  · exact hx
  · exact hx.trans (settled_calm (State.calm_of_mkept hkept hcalm))

end Sys2Proof.Machine
end

section
/-! The statements about the manager mailbox. -/

namespace Sys2Proof

open Machine

/-- Settles O8: both clauses are about `mbxDoorbell`, and a rejected doorbell is `mbxReject`. -/
theorem rejectedDoorbells : Obligations.RejectedDoorbells := by
  unfold Obligations.RejectedDoorbells
  intro s p env v hp hl hv hw
  rw [exec_registerWrite_mbxDoorbell env hp hl hv]
  constructor
  · intro h
    rw [State.mbxDoorbell_reject env hp hl hw h]
    rfl
  · intro h64 hb
    rw [State.mbxDoorbell_free env h64 hb]

/-- Settles O9, by what `mbxHead` does with an advance within, beyond and of none of the posted entries. -/
theorem headWrites : Obligations.HeadWrites := by
  unfold Obligations.HeadWrites
  rintro s p v _ adv hp hm rfl ha
  have hx : exec (.mbxCqHeadWrite p v) s = .next (s.mbxHead p v) := rfl
  rw [hx]
  refine ⟨fun hle => ?_, fun hlt => ?_, fun hv hw hd => ?_⟩
  · rw [State.mbxHead_advances hp hm ha hle]
  · rw [State.mbxHead_reject hp (ha ▸ hlt)]
    rfl
  · rw [State.mbxHead_same hp hm hv hw hd]

/-- Settles O10: in both clauses the handler of the opcode answers BAD_OPCODE at once. -/
theorem undefinedOpcodes : Obligations.UndefinedOpcodes := by
  unfold Obligations.UndefinedOpcodes
  constructor
  · intro s r op hi hu
    refine hi.badOpcode (.inr rfl) ?_
    rw [mbxHandler_undefined hu]
    rfl
  · intro s i op r hi hc hm h4
    exact hi.badOpcode (exec_keyRow s hm h4) (mbxHandler_noCipher _ _ h4 hc)

end Sys2Proof
end

section
/-! SUPPORT. A mailbox row as its slot's bytes and a doorbell (R41, R43, R48). -/

namespace Sys2Proof.Machine

/-- A run of bytes read within a longer one just written. -/
theorem Memory.readBytes_writeBytes_within {m : Memory} (h : m.wf = true) (a : Nat) (bs : List Byte) {o n : Nat} (ho : o + n ≤ bs.length) :
    (m.writeBytes a bs).readBytes (a + o) n = (bs.drop o).take n := by
  induction n generalizing o with
  | zero => simp [Memory.readBytes]
  | succ n ih =>
    have hlt : o < bs.length := by omega
    simp only [Memory.readBytes]
    rw [Nat.add_assoc, ih (by omega), Memory.read_writeBytes h, if_pos (by omega), List.drop_eq_getElem_cons hlt, List.take_succ_cons]
    simp [List.getElem?_eq_getElem hlt]

theorem slotBytes_length (op : BitVec 16) (r : MbxReq) : (slotBytes op r).length = 64 := by simp [slotBytes, bytesLE_length]

/-- A field of a slot just written reads back the number that its bytes spell. -/
theorem slotBytes_field {m : Memory} (h : m.wf = true) (a : Nat) (op : BitVec 16) (r : MbxReq) {o n w : Nat} (x : BitVec w)
    (ho : o + n ≤ 64) (hw : 2 ^ w = 256 ^ n) (hx : ((slotBytes op r).drop o).take n = bytesLE n x.toNat) :
    BitVec.ofNat w ((m.writeBytes a (slotBytes op r)).num (a + o) n) = x := by
  rw [Memory.num, Memory.readBytes_writeBytes_within h a _ (by rw [slotBytes_length]; exact ho), hx, numLE_bytesLE, ← hw,
    Nat.mod_eq_of_lt x.isLt, BitVec.ofNat_toNat, BitVec.setWidth_eq]

/-- A slot just written reads back as its opcode and fields. -/
theorem State.slotReq_slotBytes {s : State} {m : Memory} {op : BitVec 16} {r : MbxReq} (h : m.wf = true)
    (hm : (s.mbxPort r.port).slots = m.writeBytes (64 * r.slot) (slotBytes op r)) : s.slotReq r.port r.slot r.env = (op, r) := by
  have h48 : (2 : Nat) ^ 384 = 256 ^ 48 := by rw [show (256 : Nat) = 2 ^ 8 from rfl, ← Nat.pow_mul]
  have hf : ∀ {o n w : Nat} (x : BitVec w), o + n ≤ 64 → 2 ^ w = 256 ^ n → ((slotBytes op r).drop o).take n = bytesLE n x.toNat →
      BitVec.ofNat w ((s.mbxPort r.port).slots.num (64 * r.slot + o) n) = x := fun x => hm ▸ slotBytes_field h _ op r x
  have hd : ∀ (k n v : Nat), n ≤ k → (bytesLE n v).drop k = [] := fun k n v h => List.drop_of_length_le (by rw [bytesLE_length]; exact h)
  have ht : ∀ (k n v : Nat), n ≤ k → (bytesLE n v).take k = bytesLE n v := fun k n v h => List.take_of_length_le (by rw [bytesLE_length]; exact h)
  unfold State.slotReq
  dsimp only
  rw [hf op (by decide) (by decide) (by simp [slotBytes, bytesLE_length]),
    hf r.tag (by decide) (by decide) (by simp [slotBytes, bytesLE_length]),
    hf r.flags (by decide) (by decide) (by simp [slotBytes, List.drop_append, bytesLE_length, hd]),
    hf r.rsvA (by decide) (by decide) (by simp [slotBytes, List.drop_append, bytesLE_length, hd]),
    hf r.target (by decide) (by decide) (by simp [slotBytes, List.drop_append, bytesLE_length, hd]),
    hf r.rsvB (by decide) (by decide) (by simp [slotBytes, List.drop_append, bytesLE_length, hd]),
    hf r.params (by decide) h48 (by simp [slotBytes, List.drop_append, bytesLE_length, hd, ht])]

/-- What writing a free slot leaves and makes of its port. -/
theorem State.mbxSlotWrite_port {s : State} (op : BitVec 16) {r : MbxReq} (hb : (s.mbxPort r.port).slotBusy r.slot = false) :
    (s.mbxSlotWrite op r).mbxPort r.port =
      { s.mbxPort r.port with slots := (s.mbxPort r.port).slots.writeBytes (64 * r.slot) (slotBytes op r) } := by
  rw [State.mbxSlotWrite_free op hb, State.mbxPort_setMbxPort]

/-- What is in the slots does not make one of them busy. -/
theorem MbxPort.slotBusy_slots (x : MbxPort) (m : Memory) (k : Nat) : { x with slots := m }.slotBusy k = x.slotBusy k := rfl

/-- A free slot is free once it is written. -/
theorem State.mbxSlotWrite_busy {s : State} (op : BitVec 16) {r : MbxReq} (hb : (s.mbxPort r.port).slotBusy r.slot = false) :
    ((s.mbxSlotWrite op r).mbxPort r.port).slotBusy r.slot = false := by
  rw [State.mbxSlotWrite_port op hb, MbxPort.slotBusy_slots, hb]

/-- A free slot written twice is as written once. -/
theorem State.mbxSlotWrite_twice {s : State} (op : BitVec 16) {r : MbxReq} (hb : (s.mbxPort r.port).slotBusy r.slot = false)
    (hw : (s.mbxPort r.port).slots.wf = true) : (s.mbxSlotWrite op r).mbxSlotWrite op r = s.mbxSlotWrite op r := by
  have hs : ((s.mbxSlotWrite op r).mbxPort r.port).slots.writeBytes (64 * r.slot) (slotBytes op r) =
      ((s.mbxSlotWrite op r).mbxPort r.port).slots := by
    simp only [State.mbxSlotWrite_port op hb, Memory.writeBytes_twice hw]
  rw [State.mbxSlotWrite_free (s := s.mbxSlotWrite op r) op (State.mbxSlotWrite_busy op hb), hs]
  exact State.setMbxPort_self _ _

/-- What is asked of a port before its slots are looked at is as before once a slot is written. -/
theorem State.mbxSlotWrite_gates {s : State} (op : BitVec 16) {r : MbxReq} (hb : (s.mbxPort r.port).slotBusy r.slot = false)
    (hp : s.portThere r.port = true) (hl : s.therm.latch = false) :
    (s.mbxSlotWrite op r).portThere r.port = true ∧ (s.mbxSlotWrite op r).therm.latch = false := by
  have hh : ∀ (p : Port) (x : MbxPort), (s.setMbxPort p x).host = s.host := by intro p x; cases p <;> rfl
  rw [State.mbxSlotWrite_free op hb, State.portThere, State.therm_setMbxPort, hh]
  exact ⟨hp, hl⟩

/-- A command submitted once its slot holds it is the command submitted. -/
theorem State.mbxSubmit_written {s : State} {op : BitVec 16} (handler : MbxCmd → MbxReq → State → MbxRes) {r : MbxReq}
    (hp : s.portThere r.port = true) (hl : s.therm.latch = false) (hs : r.slot < 64)
    (hb : (s.mbxPort r.port).slotBusy r.slot = false) (hw : (s.mbxPort r.port).slots.wf = true) :
    (s.mbxSlotWrite op r).mbxSubmit op handler r = s.mbxSubmit op handler r := by
  obtain ⟨hp', hl'⟩ := State.mbxSlotWrite_gates op hb hp hl
  unfold State.mbxSubmit
  rw [State.mbxSlotWrite_twice op hb hw, State.mbxSlotWrite_busy op hb, hb]
  simp only [hp, hl, hp', hl', Nat.not_le.mpr hs, Bool.not_true, Bool.false_eq_true, or_self, if_false]

/-- A 32-bit write of the slot's number to MBX_DOORBELL submits the command that the slot holds. -/
theorem State.exec_doorbell_written {s : State} {op : BitVec 16} {r : MbxReq} (hp : s.portThere r.port = true)
    (hl : s.therm.latch = false) (hs : r.slot < 64) (hb : (s.mbxPort r.port).slotBusy r.slot = false)
    (hw : (s.mbxPort r.port).slots.wf = true) (hr : (s.mbxSlotWrite op r).slotReq r.port r.slot r.env = (op, r)) :
    exec (.registerWrite (.bar2 r.port r.env) 0x2000 32 (BitVec.ofNat 64 r.slot)) (s.mbxSlotWrite op r) =
      .next (s.mbxSubmit op (mbxHandler op.toNat) r).after := by
  obtain ⟨hp', hl'⟩ := State.mbxSlotWrite_gates op hb hp hl
  rw [exec_registerWrite_mbxDoorbell r.env hp' hl' (by omega), State.mbxDoorbell_free r.env hs (State.mbxSlotWrite_busy op hb), hr,
    State.mbxSubmit_written _ hp hl hs hb hw]

/-- The mailbox rows that end with the work that waits on commands ending. -/
def letsGoOn : Instr → Bool
  | .tenantDestroy _ | .tenantReset _ | .tenantSetQos _ | .tenantRelease _ | .diegroupAssign _ | .convRegionSet _ | .tenantFreeze _
  | .tenantThaw _ | .selvedgeSetThreshold _ | .fwActivateNow _ | .fwRollback _ | .sanitiseStartBlockErase _
  | .sanitiseStartCryptoErase _ | .sanitiseStartExitFailure _ | .formatStart _ | .undefinedMailboxOpcode _ _ => true
  | _ => false

/-- Every mailbox row submits its command with the handler of its opcode. -/
theorem exec_mailboxRow {i : Instr} {op : BitVec 16} {r : MbxReq} (s : State) (h : i.mailbox = some (op, r)) :
    exec i s = if letsGoOn i then .next (s.mbxSubmit op (mbxHandler op.toNat) r).after
      else .next (s.mbxSubmit op (mbxHandler op.toNat) r) := by
  unfold Instr.mailbox at h
  split at h
  all_goals cases h <;> rfl

end Sys2Proof.Machine
end

section
/-! The statement about a mailbox row and its doorbell. -/

namespace Sys2Proof

open Machine

/-- Settles O4: the slot's bytes give the row back, so the doorbell submits it, and so does the row itself. -/
theorem mailboxDoorbellRunsItsSlot : Obligations.MailboxDoorbellRunsItsSlot := by
  unfold Obligations.MailboxDoorbellRunsItsSlot
  intro s i op r hi hp hl hs hb hw
  have hr : (s.mbxSlotWrite op r).slotReq r.port r.slot r.env = (op, r) :=
    State.slotReq_slotBytes hw (by rw [State.mbxSlotWrite_port op hb])
  refine ⟨hr, State.exec_doorbell_written hp hl hs hb hw hr, ?_⟩
  rw [exec_mailboxRow s hi]
  cases letsGoOn i with
  | false => exact .inl rfl
  | true => exact .inr rfl

end Sys2Proof
end

section
/-! The statement that every command answers. -/

namespace Sys2Proof

namespace Machine

/-- An outcome that is a next state. -/
def Answers (o : Host.Outcome State Fault Refusal) : Prop := ∃ t, o = .next t

theorem answers_next (s : State) : Answers (.next s) := ⟨s, rfl⟩

/-- What a row lets go on does not make it stop. -/
theorem answers_settled (o : Host.Outcome State Fault Refusal) : Answers (settled o) ↔ Answers o := by
  cases o with
  | next s => exact iff_of_true (answers_next _) (answers_next _)
  | fault f => simp [Answers, settled]
  | refused r => simp [Answers, settled]

end Machine

open Machine

/-- Settles O3. Most rows answer one expression of the state; the others choose between such expressions, so that each of their
branches is a next state, let go on or not. -/
theorem everyCommandAnswers : Obligations.EveryCommandAnswers := by
  unfold Obligations.EveryCommandAnswers
  intro c s
  change Answers (exec c s)
  cases c
  all_goals try exact answers_next _
  all_goals simp only [exec,
    execActivationTimeout, rowActivationTimeout, execAgePromotion, execArbiterGrant, execArrayReadDone, rowArrayReadDone,
    execBankBelowMin, execBobbinSelfFault, rowBobbinSelfFault, execBoltEraseStart, execBounce, execBrownOutRecovery, execBulkReadAge,
    execBusArbiterDecision, execBusTransactionEnd, rowBusTransactionEnd, execCapacitanceTestEnd, rowCapacitanceTestEnd,
    execCapacitanceTestPeriod, execCapacitanceTestRetry, execCapacitanceTestWaitLimit, execCcEnable, rowCcEnable, execCoalescingTimer,
    execCommitPoint, rowCommitPoint, execComparatorArm, execConfigRequest, execControllerReset, rowControllerReset, execCoreResetRelease,
    execCrystalQualifyWindow, execDarnExhaustionEnd, rowDarnExhaustionEnd, execDarnWindowBoundary, rowDarnWindowBoundary, execDataOutDone,
    rowDataOutDone, execDebugAuthExpiry, execDebugNonceExpiry, execDieStatusTimeout, execDomainStartDone, rowDomainStartDone,
    execDomainStopAnswer, rowDomainStopAnswer, execDomainStopTimeout, rowDomainStopTimeout, execDramCalibration, execDramRefresh,
    execDramWriteDrain, rowDramWriteDrain, execEarlyWarning, execEntryRetry, execEpochAdvance, rowEpochAdvance, execEpochClose,
    execEpochSave, execEraseMinSegmentEnd, execEraseStatusRead, execEraseSuspendLatencyEnd, execFirmwareCommit, rowFirmwareCommit,
    execFlr, rowFlr, execFlushSeal, execFreezeCapture, execFreezeTimeout, execHardThreshold, execHeartbeatMiss, rowHeartbeatMiss,
    execHemEraseComplete, execHemEraseSuspend, execHemMarginCheck, execHemProgramComplete, execHemSuspendWindowEnd, execHemWindowMove,
    execHistogramSample, execHoldCutoff, rowHoldCutoff, execHostDataArrival, rowHostDataArrival, execHostErrorCompletion,
    execIdleTimerExpiry, execInputReturn, rowInputReturn, execItemAgePromotion, execL12Exit, rowL12Exit, execLaneFailure,
    execLdpcDecodeDone, rowLdpcDecodeDone, execLedActHoldEnd, execLinkDown, execLinkUp, execLongestWaiterGrant, execMaintenanceWake,
    execMalformedTlp, execManagerFailover, execMbxQueuedStart, execMediaPatrolSample, execMergeIdleTimer, execMergeStart, execNumvfsWrite,
    execNvmeMiMessage, execPbCheckpoint, execPbFreezeExpiry, execPerstNAssert, rowPerstNAssert, execPerstNDeassert, execPowerDrainEnd,
    rowPowerDrainEnd, execProbeTimeout, rowProbeTimeout, execProgramStatusRead, rowProgramStatusRead, execRcFallback, execRefclkLoss,
    execRefclkRelock, execRegisterWrite, execRelocationStart, execScrubRead, execSeamLaneComplete, rowSeamLaneComplete, execSelfTestDone,
    rowSelfTestDone, execSelvedgeDrain, execSelvedgeHemFlush, execSensorConversionDone, execSensorConversionStart, execSetPowerManagement,
    execShtCtrlWrite, execShtPtrWrite, execShtRingWrite, execShutdownNotification, rowShutdownNotification, execShuttleBurstRetry,
    execShuttleDescriptorComplete, execSpillTimerExpiry, rowSpillTimerExpiry, execSqeArrival, execSupplyReset, execThermalHold,
    execTokenDeferralLimit, execTokenReturn, execVcoreSettled, rowVcoreSettled, execWake, rowWake]
  all_goals repeat' split
  all_goals simp only [answers_settled, answers_next]

end Sys2Proof
end

section
/-! SUPPORT. Handles and their generations (R55-R58). -/

namespace Sys2Proof.Machine

/-- When a handle is valid, of what slot and of which owner (R57). -/
theorem checkHandle_valid_iff {s : State} {kind h slot o : Nat} :
    s.checkHandle kind h = .valid slot o ↔ h / 2 ^ 28 = kind ∧ handleSlot h = slot ∧ slot < kindSlots kind ∧ h % 2 ^ 12 ≠ 0 ∧
      s.ownerOf kind slot = some o ∧ s.gen kind slot = h % 2 ^ 12 := by
  unfold State.checkHandle
  constructor
  · intro hv
    split at hv
    · cases hv
    · rename_i hk
      split at hv
      · cases hv
      · rename_i hs
        simp only [Bool.or_eq_true, decide_eq_true_eq, not_or, Nat.not_le] at hs
        split at hv
        · cases hv
        · rename_i ho
          split at hv
          · rename_i hg
            cases hv
            exact ⟨Decidable.not_not.mp hk, rfl, hs.1, hs.2, ho, hg⟩
          · cases hv
  · rintro ⟨hk, rfl, hs, hz, ho, hg⟩
    rw [if_neg (by simpa using hk), if_neg (by simp only [Bool.or_eq_true, decide_eq_true_eq]; omega), ho]
    exact if_pos hg

theorem ownerOf_bumpGen (s : State) (kind slot kind' slot' : Nat) : (s.bumpGen kind slot).ownerOf kind' slot' = s.ownerOf kind' slot' := rfl

/-- Advancing a slot's generation leaves the generations of the others. -/
theorem gen_bumpGen_ne (s : State) {kind slot kind' slot' : Nat} (h : slot < 65536) (h' : slot' < 65536)
    (hne : (kind', slot') ≠ (kind, slot)) : (s.bumpGen kind slot).gen kind' slot' = s.gen kind' slot' := by
  refine Tab.get_set_ne _ _ _ fun he => hne (Prod.ext ?_ ?_)
  · show kind' = kind
    omega
  · show slot' = slot
    omega

theorem kindSlots_le (kind : Nat) : kindSlots kind ≤ 65536 := by
  unfold kindSlots
  split <;> decide

/-- The parts of a handle made of a slot and a generation in range. -/
theorem mkHandle_parts {slot gen : Nat} (kind : Nat) (hs : slot < 65536) (hg : gen < 4096) :
    mkHandle kind slot gen / 2 ^ 28 = kind ∧ handleSlot (mkHandle kind slot gen) = slot ∧ mkHandle kind slot gen % 2 ^ 12 = gen := by
  unfold handleSlot mkHandle
  omega

end Sys2Proof.Machine
end

section
/-! The statement about generations. -/

namespace Sys2Proof

open Machine

/-- Settles O5: a valid handle holds its slot's generation, which the advance changes for this slot only. -/
theorem generationsAdvance : Obligations.GenerationsAdvance := by
  unfold Obligations.GenerationsAdvance
  intro s kind slot hs
  have hg := State.gen_bumpGen_self s kind slot
  refine ⟨hg, fun h o hv => ?_, fun kind' slot' h o hne hv => ?_, fun o ho hlt hle => ?_⟩
  · obtain ⟨hk, rfl, hlt, hz, ho, he⟩ := checkHandle_valid_iff.mp hv
    refine checkHandle_stale hk hlt hz (.inr ?_)
    rw [hg]
    split <;> omega
  · obtain ⟨hk, rfl, hlt, hz, ho, he⟩ := checkHandle_valid_iff.mp hv
    refine checkHandle_valid_iff.mpr ⟨hk, rfl, hlt, hz, ho, ?_⟩
    rw [gen_bumpGen_ne s hs (Nat.lt_of_lt_of_le hlt (kindSlots_le kind')) hne, he]
  · have hb : (s.bumpGen kind slot).gen kind slot < 4096 ∧ (s.bumpGen kind slot).gen kind slot ≠ 0 := by
      rw [hg]
      split <;> omega
    obtain ⟨h1, h2, h3⟩ := mkHandle_parts kind hs hb.1
    exact checkHandle_valid_iff.mpr ⟨h1, h2, hlt, h3 ▸ hb.2, ho, h3.symm⟩

end Sys2Proof
end

section
/-! SUPPORT. Rows of mailbox commands that are turned away for their TARGET (R57, R60, R66). -/

namespace Sys2Proof.Machine

/-- Row `i` submits a command that checks its TARGET against one kind: where `sound` holds its other fields are at fault nowhere, and
the conditions it checks after those of the TARGET rank no higher than `least`. -/
def State.ChecksTarget (s : State) (i : Instr) (op : BitVec 16) (r : MbxReq) (kind : Nat) (frozenOk : Bool) (least : Nat) (sound : Prop) :
    Prop :=
  ∃ (handler : MbxCmd → MbxReq → State → MbxRes) (bad : List (Option Nat)) (rest : Nat → Tenant → List (Bool × Nat))
    (act : Nat → Nat → Tenant → MbxRes),
    (exec i s = .next (s.mbxSubmit op handler r) ∨ exec i s = settled (.next (s.mbxSubmit op handler r))) ∧
      handler (s.queuedCmd op r) r (s.begun op r) = r.guardH (s.begun op r) kind frozenOk bad rest act ∧
      (sound → ∀ o ∈ bad, o = none) ∧ ∀ slot t, ∀ p ∈ rest slot t, statusRank least ≤ statusRank p.2

/-- A row whose command is turned away: its completion is sent, and nothing else changes but what the start and the end of a command
change. -/
theorem State.Takes.turnedAway {s : State} {i : Instr} {op : BitVec 16} {handler : MbxCmd → MbxReq → State → MbxRes} {r : MbxReq}
    {st off : Nat} (hi : s.Takes r)
    (hx : exec i s = .next (s.mbxSubmit op handler r) ∨ exec i s = settled (.next (s.mbxSubmit op handler r))) (hst : st ≠ stOk)
    (hh : handler (s.queuedCmd op r) r (s.begun op r) = { state := s.begun op r, status := some st, offset := off }) :
    ∃ t, exec i s = .next t ∧ t.MbxAnswered op r st 0 0 ∧ t.mkept = s.mkept := by
  obtain ⟨hidle, hcalm, -⟩ := hi
  obtain ⟨ha, hk⟩ := State.mbx_answers hidle hh rfl hidle.ports hidle.unarmed hidle.noPolicy
  rw [if_neg (fun h => hst h.1)] at ha
  have hkept := hk.trans (State.mkept_begun s op r)
  refine ⟨_, ?_, ha, hkept⟩
  rcases hx with hx | hx
  · exact hx
  · exact hx.trans (settled_calm (State.calm_of_mkept hkept hcalm))

/-- A TARGET that fails step 1 or 2 of R57. -/
theorem State.ChecksTarget.badField {s : State} {i : Instr} {op : BitVec 16} {r : MbxReq} {kind least : Nat} {fz : Bool} {sound : Prop}
    (h : s.ChecksTarget i op r kind fz least sound) (hi : s.Takes r) (hb : s.checkHandle kind r.target.toNat = .bad) :
    ∃ t, exec i s = .next t ∧ t.MbxAnswered op r stBadField 0 0 ∧ t.mkept = s.mkept := by
  obtain ⟨handler, bad, rest, act, hx, hh, -, -⟩ := h
  obtain ⟨off, hg⟩ := guardH_bad (s := s.begun op r) (frozenOk := fz) (bad := bad) (rest := rest) (act := act) hb
  exact hi.turnedAway hx (by decide) (hh.trans hg)

/-- A TARGET that fails step 3 or 4 of R57. -/
theorem State.ChecksTarget.stale {s : State} {i : Instr} {op : BitVec 16} {r : MbxReq} {kind : Nat} {fz : Bool} {sound : Prop}
    (h : s.ChecksTarget i op r kind fz stStale sound) (hi : s.Takes r) (hs : sound) (hb : s.checkHandle kind r.target.toNat = .stale) :
    ∃ t, exec i s = .next t ∧ t.MbxAnswered op r stStale 0 0 ∧ t.mkept = s.mkept := by
  obtain ⟨handler, bad, rest, act, hx, hh, hbad, hrest⟩ := h
  have hg := guardH_stale (s := s.begun op r) (frozenOk := fz) (act := act) hi.2.2.1 hi.2.2.2.1 hi.2.2.2.2 hb (hbad hs) hrest
  exact hi.turnedAway hx (by decide) (hh.trans hg)

/-- A TARGET that names what a frozen tenant owns. -/
theorem State.ChecksTarget.frozen {s : State} {i : Instr} {op : BitVec 16} {r : MbxReq} {kind slot k : Nat} {sound : Prop} {t : Tenant}
    (h : s.ChecksTarget i op r kind false stFrozen sound) (hi : s.Takes r) (hs : sound) (hn : s.Names kind r slot k t)
    (hz : t.frozen = true) : ∃ u, exec i s = .next u ∧ u.MbxAnswered op r stFrozen 0 0 ∧ u.mkept = s.mkept := by
  obtain ⟨handler, bad, rest, act, hx, hh, hbad, hrest⟩ := h
  have hg := guardH_frozen (s := s.begun op r) (act := act) hi.2.2.1 hi.2.2.2.1 hi.2.2.2.2 hn hz (hbad hs) hrest
  exact hi.turnedAway hx (by decide) (hh.trans hg)

/-- A run of reserved bytes that are 0. -/
theorem reserved_zero {r : MbxReq} {off len : Nat} (h : r.Zero [(off, len)]) : ∀ o ∈ [r.rsv off len], o = none := by
  intro o ho
  rw [List.mem_singleton.mp ho]
  exact h (off, len) (List.mem_singleton.mpr rfl)

theorem ranks_nil (least : Nat) : ∀ p ∈ ([] : List (Bool × Nat)), statusRank least ≤ statusRank p.2 := fun _ hp => nomatch hp

/-- Conditions that rank no higher than a status, one by one. -/
theorem ranks_cons {least st : Nat} {c : Bool} {l : List (Bool × Nat)} (h : statusRank least ≤ statusRank st)
    (hl : ∀ p ∈ l, statusRank least ≤ statusRank p.2) : ∀ p ∈ (c, st) :: l, statusRank least ≤ statusRank p.2 := by
  intro p hp
  rcases List.mem_cons.mp hp with rfl | hp
  · exact h
  · exact hl p hp

/-- The conditions of a command that writes rank as low as the ones listed. -/
theorem writes_rank {s : State} {least : Nat} (h1 : statusRank least ≤ statusRank stPowerLimited)
    (h2 : statusRank least ≤ statusRank stBusyRetry) : ∀ p ∈ s.writes, statusRank least ≤ statusRank p.2 :=
  ranks_cons h1 (ranks_cons h2 (ranks_nil _))

/-- A key command on a variant with the cipher. -/
theorem State.keyCmd_cipher {s : State} (act : List (Bool × Nat) → MbxRes) (h : s.cipher = true) :
    s.keyCmd act = act [(s.san.s.running && decide (s.san.s.action = 4), stBusyRetry)] := by
  simp [State.keyCmd, h]

/-- The six commands of `Obligations.HandlesAreChecked`. -/
theorem State.checksTarget_stale (s : State) (r : MbxReq) {i : Instr} {op : BitVec 16} {kind : Nat} {zeros : Nat × Nat}
    (hr : (i, op, kind, zeros) ∈ [(.tenantQuery r, 0x0103#16, 1, (28, 36)), (.queueQuery r, 0x0205#16, 2, (16, 48)),
      (.placementQuery r, 0x0306#16, 3, (16, 48)), (.keyQuery r, 0x0405#16, 4, (16, 48)),
      (.vectorBlockRevoke r, 0x0204#16, 5, (16, 48)), (.snapshotDiscard r, 0x0503#16, 6, (16, 48))])
    (hc : kind = 4 → s.cipher = true) :
    ∃ fz, s.ChecksTarget i op r kind fz stStale (r.Zero [zeros] ∧ (kind = 1 → r.Buffer 16 24 128)) := by
  simp only [List.mem_cons, Prod.mk.injEq, List.not_mem_nil, or_false] at hr
  obtain ⟨rfl, rfl, rfl, rfl⟩ | ⟨rfl, rfl, rfl, rfl⟩ | ⟨rfl, rfl, rfl, rfl⟩ | ⟨rfl, rfl, rfl, rfl⟩ | ⟨rfl, rfl, rfl, rfl⟩ |
    ⟨rfl, rfl, rfl, rfl⟩ := hr
  · exact ⟨true, tenantQueryCmd, _, _, _, .inl rfl, rfl,
      fun hs => offences_append (bufOffences_none (hs.2 rfl)) (reserved_zero hs.1), fun _ _ => ranks_cons (by decide) (ranks_nil _)⟩
  · exact ⟨true, queueQueryCmd, _, _, _, .inl rfl, rfl, fun hs => reserved_zero hs.1, fun _ _ => ranks_nil _⟩
  · exact ⟨false, placementQueryCmd, _, _, _, .inl rfl, rfl, fun hs => reserved_zero hs.1, fun _ _ => ranks_nil _⟩
  · exact ⟨true, keyQueryCmd, _, _, _, .inl rfl, State.keyCmd_cipher _ (hc rfl), fun hs => reserved_zero hs.1,
      fun _ _ => ranks_cons (by decide) (ranks_nil _)⟩
  · exact ⟨false, vectorBlockRevokeCmd, _, _, _, .inl rfl, rfl, fun hs => reserved_zero hs.1,
      fun _ _ => ranks_cons (by decide) (writes_rank (by decide) (by decide))⟩
  · exact ⟨true, snapshotDiscardCmd, _, _, _, .inl rfl, rfl, fun hs => reserved_zero hs.1,
      fun _ _ => ranks_cons (by decide) (ranks_nil _)⟩

/-- The five commands of `Obligations.FrozenTenantsRefuse`. -/
theorem State.checksTarget_frozen (s : State) (r : MbxReq) {i : Instr} {op : BitVec 16} {kind : Nat}
    (hr : (i, op, kind) ∈ [(.tenantReset r, 0x0109#16, 1), (.qpairRevoke r, 0x0202#16, 2), (.placementQuery r, 0x0306#16, 3),
      (.keyDestroy r, 0x0404#16, 4), (.vectorBlockRevoke r, 0x0204#16, 5)]) (hc : kind = 4 → s.cipher = true) :
    s.ChecksTarget i op r kind false stFrozen (r.Zero [(16, 48)]) := by
  simp only [List.mem_cons, Prod.mk.injEq, List.not_mem_nil, or_false] at hr
  obtain ⟨rfl, rfl, rfl⟩ | ⟨rfl, rfl, rfl⟩ | ⟨rfl, rfl, rfl⟩ | ⟨rfl, rfl, rfl⟩ | ⟨rfl, rfl, rfl⟩ := hr
  · exact ⟨tenantResetCmd, _, _, _, .inr rfl, rfl, reserved_zero, fun _ _ => ranks_cons (by decide) (ranks_nil _)⟩
  · exact ⟨qpairRevokeCmd, _, _, _, .inl rfl, rfl, reserved_zero,
      fun _ _ => ranks_cons (by decide) (writes_rank (by decide) (by decide))⟩
  · exact ⟨placementQueryCmd, _, _, _, .inl rfl, rfl, reserved_zero, fun _ _ => ranks_nil _⟩
  · exact ⟨keyDestroyCmd, _, _, _, .inl rfl, State.keyCmd_cipher _ (hc rfl), reserved_zero,
      fun _ _ => ranks_cons (by decide) (writes_rank (by decide) (by decide))⟩
  · exact ⟨vectorBlockRevokeCmd, _, _, _, .inl rfl, rfl, reserved_zero,
      fun _ _ => ranks_cons (by decide) (writes_rank (by decide) (by decide))⟩

end Sys2Proof.Machine
end

section
/-! The statements about the check of a TARGET. -/

namespace Sys2Proof

open Machine

/-- Settles O6: what the check of a handle finds, and how a command that it turns away is answered. -/
theorem handlesAreChecked : Obligations.HandlesAreChecked := by
  unfold Obligations.HandlesAreChecked
  intro s r i op kind zeros hr hi hc
  obtain ⟨fz, h⟩ := State.checksTarget_stale s r hr hc
  constructor
  · intro hb
    exact h.badField hi (checkHandle_bad hb)
  · intro hk hs hg ho hz hbuf
    exact h.stale hi ⟨hz, hbuf⟩ (checkHandle_stale hk hs hg ho)

/-- Settles O7, as O6: FROZEN is the first condition past the check of the handle. -/
theorem frozenTenantsRefuse : Obligations.FrozenTenantsRefuse := by
  unfold Obligations.FrozenTenantsRefuse
  intro s r i op kind slot k t hr hi hc hn hf hz
  exact (State.checksTarget_frozen s r hr hc).frozen hi hz hn hf

end Sys2Proof
end

section
/-! SUPPORT. Reads and writes of BAR2 (R39, R41). -/

namespace Sys2Proof.Machine

/-- A write of whole bytes to BAR2. -/
theorem exec_registerWrite_bar2 (s : State) (p : Port) (env : MbxEnv) (off : Nat) {width : Nat} (v : BitVec 64) (hw : 8 ≤ width) :
    exec (.registerWrite (.bar2 p env) off width v) s =
      .next (s.writeBar2 p env off (min 8 (width / 8)) (v.toNat % 2 ^ (8 * min 8 (width / 8)))).after := by
  have hl : min 8 (width / 8) ≠ 0 := by omega
  show (if min 8 (width / 8) = 0 then _ else _) = _
  rw [if_neg hl]
  rfl

/-- Where BAR2 ignores writes: the completion ring, the device status page and, but for the manager, the Pattern Book and Fray windows. -/
theorem State.writeBar2_ignored {s : State} {p : Port} (env : MbxEnv) {off : Nat} (len v : Nat)
    (h : 0x1000 ≤ off ∧ off < 0x1800 ∨ 0x10000 ≤ off ∧ (off < 0x11000 ∨ s.mbx.manager ≠ p)) : s.writeBar2 p env off len v = s := by
  unfold State.writeBar2
  split
  · rfl
  · rw [if_neg (by omega), if_neg (by omega)]
    refine if_neg fun hw => ?_
    obtain ⟨h1, h2, h3⟩ := hw
    obtain ⟨-, h⟩ | ⟨-, h | h⟩ := h
    · omega
    · omega
    · exact h h3.symm

/-- The mailbox registers take aligned 32-bit writes only. -/
theorem State.writeBar2_misuse {s : State} {p : Port} (env : MbxEnv) {off len : Nat} (v : Nat) (hp : s.portThere p = true)
    (hl : s.therm.latch = false) (h1 : 0x2000 ≤ off) (h2 : off < 0x2018) (h : off % 4 ≠ 0 ∨ len ≠ 4) :
    s.writeBar2 p env off len v = s.bar2Misuse p off := by
  unfold State.writeBar2
  rw [if_neg (by simp [hp, hl]), if_neg (by omega), if_pos ⟨h1, h2⟩, if_neg (by omega)]

/-- A write within one command slot. -/
theorem State.writeBar2_slot {s : State} {p : Port} (env : MbxEnv) {off len : Nat} (v : Nat) (hp : s.portThere p = true)
    (hl : s.therm.latch = false) (h1 : off < 0x1000) (h2 : off % 64 + len ≤ 64) :
    s.writeBar2 p env off len v = s.writeSlots p off len v := by
  unfold State.writeBar2
  rw [if_neg (by simp [hp, hl]), if_pos h1, Nat.min_eq_left (by omega)]

theorem eraseDups_replicate {α : Type} [BEq α] [LawfulBEq α] (n : Nat) (a : α) : (List.replicate (n + 1) a).eraseDups = [a] := by
  simp [List.replicate_succ, List.eraseDups_cons]

/-- The bytes of a write within one slot lie in that slot. -/
theorem slotsWritten {off len : Nat} (h0 : 0 < len) (h : off % 64 + len ≤ 64) :
    ((List.range len).map (fun i => (off + i) / 64)).eraseDups = [off / 64] := by
  have hr : (List.range len).map (fun i => (off + i) / 64) = List.replicate len (off / 64) := by
    refine List.eq_replicate_iff.mpr ⟨by simp, fun b hb => ?_⟩
    obtain ⟨i, hi, rfl⟩ := List.mem_map.mp hb
    have := List.mem_range.mp hi
    omega
  obtain ⟨n, rfl⟩ := Nat.exists_eq_succ_of_ne_zero (Nat.pos_iff_ne_zero.mp h0)
  rw [hr, eraseDups_replicate]

/-- One byte of a write to the command slots. -/
def State.writeSlotByte (s : State) (p : Port) (off i : Nat) (b : Byte) : State :=
  let x := s.mbxPort p
  if x.slotBusy ((off + i) / 64) then s else s.setMbxPort p { x with slots := x.slots.write (off + i) b }

/-- The bytes of a write to a busy slot are ignored. -/
theorem State.writeSlotBytes_busy {s : State} {p : Port} {off : Nat} (b : Nat → Byte) (n : Nat)
    (h : ∀ i < n, (s.mbxPort p).slotBusy ((off + i) / 64) = true) :
    (List.range n).foldl (fun s i => s.writeSlotByte p off i (b i)) s = s := by
  induction n with
  | zero => rfl
  | succ n ih =>
    rw [List.range_succ, List.foldl_append, ih (fun i hi => h i (by omega))]
    exact if_pos (h n (by omega))

/-- The bytes of a write to free slots are written in turn. -/
theorem State.writeSlotBytes_free {s : State} {p : Port} {off : Nat} (bs : List Byte) (n : Nat) (hn : n ≤ bs.length)
    (h : ∀ i < n, (s.mbxPort p).slotBusy ((off + i) / 64) = false) :
    (List.range n).foldl (fun s i => s.writeSlotByte p off i (bs.getD i 0#8)) s =
      s.setMbxPort p { s.mbxPort p with slots := (s.mbxPort p).slots.writeBytes off (bs.take n) } := by
  induction n with
  | zero => exact (State.setMbxPort_self s p).symm
  | succ n ih =>
    have ht : (s.mbxPort p).slots.writeBytes off (bs.take (n + 1)) =
        ((s.mbxPort p).slots.writeBytes off (bs.take n)).write (off + n) (bs.getD n 0#8) := by
      rw [List.take_succ_eq_append_getElem (by omega), Memory.writeBytes_append, List.length_take, Nat.min_eq_left (by omega)]
      simp [Memory.writeBytes, List.getD_eq_getElem?_getD, List.getElem?_eq_getElem (show n < bs.length by omega)]
    rw [List.range_succ, List.foldl_append, ih (by omega) (fun i hi => h i (by omega)), List.foldl_cons, List.foldl_nil, ht]
    unfold State.writeSlotByte
    simp only [State.mbxPort_setMbxPort, MbxPort.slotBusy_slots, h n (by omega), Bool.false_eq_true, if_false,
      State.setMbxPort_setMbxPort]

/-- A write within one command slot that is busy. -/
theorem State.writeSlots_busy {s : State} {p : Port} {off len : Nat} (v : Nat) (h0 : 0 < len) (h : off % 64 + len ≤ 64)
    (hb : (s.mbxPort p).slotBusy (off / 64) = true) : s.writeSlots p off len v = s.bar2Misuse p (off / 64) := by
  unfold State.writeSlots
  dsimp only
  rw [slotsWritten h0 h, List.foldl_cons, List.foldl_nil, if_pos hb]
  refine State.writeSlotBytes_busy (fun i => (bytesLE len v).getD i 0#8) len fun i hi => ?_
  have hm : (s.bar2Misuse p (off / 64)).mbx = s.mbx := selvedge_mbx _ _
  rw [mbxPort_of_mbx hm, show (off + i) / 64 = off / 64 by omega, hb]

/-- A write within one command slot that is free. -/
theorem State.writeSlots_free {s : State} {p : Port} {off len : Nat} (v : Nat) (h0 : 0 < len) (h : off % 64 + len ≤ 64)
    (hb : (s.mbxPort p).slotBusy (off / 64) = false) : s.writeSlots p off len v =
      s.setMbxPort p { s.mbxPort p with slots := (s.mbxPort p).slots.writeBytes off (bytesLE len v) } := by
  have hl : (bytesLE len v).length = len := bytesLE_length len v
  unfold State.writeSlots
  dsimp only
  rw [slotsWritten h0 h, List.foldl_cons, List.foldl_nil, if_neg (by simp [hb])]
  have := State.writeSlotBytes_free (s := s) (p := p) (off := off) (bytesLE len v) len (Nat.le_of_eq hl.symm) (fun i hi => by
    rw [show (off + i) / 64 = off / 64 by omega, hb])
  rw [List.take_of_length_le (Nat.le_of_eq hl)] at this
  exact this

/-- MBX_STATUS of the function that does not hold the manager role (R39). -/
theorem State.mbxStatus_other {s : State} {p : Port} (h : s.mbx.manager ≠ p) :
    s.mbxStatus p / 2 % 2 = 0 ∧ s.mbxStatus p / 4 % 4 = 3 := by
  have hs : s.mbxState p = 3#2 := if_pos (.inl h.symm)
  have hr := Bool.toNat_lt (s.mbxReady p)
  have hd := Bool.toNat_lt (s.mbxPort p).dbErr
  have hw := Bool.toNat_lt (!(s.mbxPort p).waiting.isEmpty)
  have hm : decide (p = s.mbx.manager) = false := decide_eq_false h.symm
  unfold State.mbxStatus
  simp only [hs, hm, Bool.toNat_false, show (3#2).toNat = 3 from rfl]
  omega

end Sys2Proof.Machine
end

section
/-! The statements about BAR2. -/

namespace Sys2Proof

open Machine

/-- Settles O11: MBX_STATUS field by field, and the window that an offset falls in. -/
theorem otherFunctionWindows : Obligations.OtherFunctionWindows := by
  unfold Obligations.OtherFunctionWindows
  intro s p hp hm
  obtain ⟨h1, h2⟩ := State.mbxStatus_other hm
  refine ⟨h1, h2, fun off hlo hhi => ⟨?_, fun env width v hw => ?_⟩, fun off hlo hhi => ?_⟩
  · unfold State.readBar2
    rw [if_neg (by simp [hp]), if_neg (by omega), if_neg (by omega), if_neg (by omega), if_neg (by omega), if_pos hm.symm]
  · rw [exec_registerWrite_bar2 s p env off v hw, State.writeBar2_ignored env _ _ (.inr ⟨by omega, .inr hm⟩)]
  · unfold State.readBar2
    rw [if_neg (by simp [hp]), if_neg (by omega), if_neg (by omega), if_neg (by omega), if_pos ⟨hlo, hhi⟩]

/-- Settles O12: the area that an offset falls in, and a slot's bytes one by one. -/
theorem slotAndAreaWrites : Obligations.SlotAndAreaWrites := by
  unfold Obligations.SlotAndAreaWrites
  intro s p env off width len v hp hl hlen h0 h8
  have hx := exec_registerWrite_bar2 s p env off (width := width) v (by omega)
  rw [← hlen, Nat.min_eq_right h8] at hx
  refine ⟨fun h1 h2 hb => ?_, fun h1 h2 hb => ?_, fun h => ?_, fun h1 h2 => ?_⟩
  · rw [hx, State.writeBar2_slot env _ hp hl h1 h2, State.writeSlots_busy _ h0 h2 hb]
    rfl
  · rw [hx, State.writeBar2_slot env _ hp hl h1 h2, State.writeSlots_free _ h0 h2 hb]
  · rw [hx, State.writeBar2_ignored env _ _ (by omega)]
  · rw [hx, State.writeBar2_misuse env _ hp hl h1.1 h1.2 h2]
    rfl

end Sys2Proof
end

section
/-! SUPPORT. Completions: of the mailbox's ring (R45, R46, R49, R50) and of an NVMe queue (R241). -/

namespace Sys2Proof.Machine

/-- A completion posted while the ring has room and none waits is stored. -/
theorem State.mbxPost_store {s : State} {p : Port} (e : MbxCqe) (hw : (s.mbxPort p).waiting = []) (hp : (s.mbxPort p).posted < 64)
    (hm : s.mbx.movePending = none) : s.mbxPost p e = s.mbxStore p e := by
  have hs : s.setMbxPort p { s.mbxPort p with waiting := [] } = s := by
    have hx : { s.mbxPort p with waiting := [] } = s.mbxPort p := by rw [← hw]
    rw [hx, State.setMbxPort_self]
  unfold State.mbxPost
  simp only [hw, List.filter_nil, List.nil_append, List.length_singleton, State.mbxDrain, State.mbxPort_setMbxPort, if_pos hp,
    State.setMbxPort_setMbxPort, hs]
  exact State.mbxWrite_eq p e hm

/-- A completion posted while the ring is full waits. -/
theorem State.mbxPost_waits {s : State} {p : Port} (e : MbxCqe) (hw : (s.mbxPort p).waiting = []) (hp : 64 ≤ (s.mbxPort p).posted) :
    s.mbxPost p e = s.setMbxPort p { s.mbxPort p with waiting := [e] } := by
  unfold State.mbxPost
  simp only [hw, List.filter_nil, List.nil_append, List.length_singleton, State.mbxDrain, State.mbxPort_setMbxPort,
    if_neg (Nat.not_lt.mpr hp)]

/-- RING_WAIT reads 1 where a completion waits. -/
theorem State.mbxStatus_ringWait {s : State} {p : Port} (h : (s.mbxPort p).waiting ≠ []) : s.mbxStatus p / 32 % 2 = 1 := by
  have hw : (!(s.mbxPort p).waiting.isEmpty) = true := by simpa using h
  have hr := Bool.toNat_lt (s.mbxReady p)
  have hm := Bool.toNat_lt (decide (p = s.mbx.manager))
  have hs := (s.mbxState p).isLt
  have hd := Bool.toNat_lt (s.mbxPort p).dbErr
  unfold State.mbxStatus
  simp only [hw, Bool.toNat_true]
  omega

/-- Changing a completion queue's entries leaves which queue an identifier names. -/
theorem Fn.cq_updCq {x : Fn} {qid : Nat} {q : Cq} (g : Cq → Cq) (h : x.cq qid = some q) (hg : ∀ q, (g q).qid = q.qid) :
    (x.updCq qid g).cq qid = some (g q) := by
  unfold Fn.cq Fn.updCq at *
  have hq : q.qid = qid := by simpa using List.find?_some h
  rw [List.find?_map]
  have hf : ((fun q : Cq => decide (q.qid = qid)) ∘ fun q => if q.qid = qid then g q else q) = fun q => decide (q.qid = qid) := by
    funext q
    simp only [Function.comp_apply]
    split
    · rw [hg]
    · rfl
  rw [hf, h, Option.map_some, if_pos hq]

/-- A completion with no room for it, or behind others that wait, waits. -/
theorem State.postCqe_waits {s : State} {f : FnId} {e : Cqe} {id : Nat} {q : Cq} (h : (s.fn f).cq id = some q)
    (hw : q.hasRoom = false ∨ q.waiting ≠ []) :
    s.postCqe f id e = s.updFn f (fun x => x.updCq id (fun q => { q with waiting := q.waiting ++ [e] })) := by
  unfold State.postCqe
  simp only [h]
  refine if_neg fun hc => ?_
  obtain ⟨h1, h2⟩ := Bool.and_eq_true_iff.mp hc
  rcases hw with hw | hw
  · rw [hw] at h2
    cases h2
  · exact hw (by simpa using h1)

/-- A command that `Posts` has a completion queue with room and none waiting, and identifiers of its own. -/
theorem State.Posts.queue {s : State} {c : NvmeCmd} (h : s.Posts c) : c.sqid ≠ orphanId ∧ c.cid ≠ orphanId ∧
    ∃ q, (s.fn c.fn).cq ((s.fn c.fn).cqOf c.sqid) = some q ∧ q.waiting = [] ∧ q.hasRoom = true := by
  obtain ⟨hs, hc, -, -, hq⟩ := h
  obtain ⟨q, hq, hw⟩ := Option.any_eq_true _ _ |>.mp hq
  obtain ⟨h1, h2⟩ := Bool.and_eq_true_iff.mp hw
  refine ⟨?_, ?_, q, hq, by simpa using h1, h2⟩
  · unfold orphanId
    omega
  · unfold orphanId
    omega

end Sys2Proof.Machine
end

section
/-! The statements about completions. -/

namespace Sys2Proof

open Machine

/-- Settles O13: a completion is stored at the tail, or waits. -/
theorem completionRing : Obligations.CompletionRing := by
  unfold Obligations.CompletionRing
  rintro s p e _ rfl hw he
  constructor
  · intro hp hm
    rw [State.mbxPost_store e hw hp hm, mbxStore_port s p e _ rfl]
    exact ⟨slotBusy_clear _ _ he, Tab.find_set_self _ _ _, rfl, rfl, rfl, hw⟩
  · intro hp
    rw [State.mbxPost_waits e hw hp]
    refine ⟨rfl, ?_, State.mbxStatus_ringWait ?_⟩
    · rw [State.mbxPort_setMbxPort]
      rfl
    · rw [State.mbxPort_setMbxPort]
      exact List.cons_ne_nil _ _

/-- Settles O14: `complete` sends one entry and keeps the rest; an entry with no room joins those that wait. -/
theorem completionIsWritten : Obligations.CompletionIsWritten := by
  unfold Obligations.CompletionIsWritten
  refine ⟨fun s c dw0 dw1 h => ⟨?_, State.kept_okCmd s c dw0 dw1⟩, fun s c status lba h => ⟨?_, State.kept_failCmd s c.fn c status lba⟩,
    fun s f e id q _ _ hq hw => ?_⟩
  · obtain ⟨h1, h2, q, hq, hw, hr⟩ := h.queue
    exact ⟨_, _, _, _, _, State.complete_sends h.2.2.1 h.2.2.2.1 h1 h2 hq hw hr, rfl, rfl, rfl, rfl⟩
  · obtain ⟨h1, h2, q, hq, hw, hr⟩ := h.queue
    exact ⟨_, _, _, _, _, State.complete_sends h.2.2.1 h.2.2.2.1 h1 h2 hq hw hr, rfl, rfl, rfl, rfl⟩
  · have hc := Fn.cq_updCq (fun q : Cq => { q with waiting := q.waiting ++ [e] }) hq (fun _ => rfl)
    rw [State.postCqe_waits hq hw]
    refine ⟨rfl, ?_⟩
    rw [State.updFn, State.fn_setFn_self, hc]
    rfl

end Sys2Proof
end

section
/-! SUPPORT. When a Fray rule fires (R519). -/

namespace Sys2Proof.Machine

/-- A rule that an event it counts has met: the event is counted and the shift register has its next value. -/
def State.frayMet (s : State) (r : FrayRule) : FrayRule :=
  { r with
    events := r.events + 1
    lfsr := BitVec.ofNat 64 (Config.freeNat s.fresh) }

theorem State.frayRule_fires {s : State} (i : Nat) {r : FrayRule} (h : ((s.frayMet r).live && (s.frayMet r).trips) = true) :
    s.frayRule i r = (some (fieldLE r.raw 2 1), { s with
      fresh := s.fresh + 1
      dbg.rules := s.dbg.rules.set i { s.frayMet r with fired := r.fired + 1 }
      out := if s.dbg.trigOut ∧ fieldLE r.raw 13 1 % 2 = 1 then .pin 6 0 :: s.out else s.out }) := by
  refine (if_pos h).trans (Prod.ext rfl ?_)
  show (if s.dbg.trigOut = true ∧ fieldLE r.raw 13 1 % 2 = 1 then _ else _) = _
  by_cases ht : s.dbg.trigOut = true ∧ fieldLE r.raw 13 1 % 2 = 1
  · simp only [if_pos ht]
    rfl
  · simp only [if_neg ht]
    rfl

theorem State.frayRule_idle {s : State} (i : Nat) {r : FrayRule} (h : ((s.frayMet r).live && (s.frayMet r).trips) = false) :
    s.frayRule i r = (none, { s with
      fresh := s.fresh + 1
      dbg.rules := s.dbg.rules.set i (s.frayMet r) }) :=
  if_neg (fun hc => Bool.false_ne_true (h.symm.trans hc))

/-- A rule fires exactly where it has not reached its limit and its trigger holds. -/
theorem State.frayRule_isSome (s : State) (i : Nat) (r : FrayRule) :
    (s.frayRule i r).1.isSome = ((s.frayMet r).live && (s.frayMet r).trips) := by
  cases h : (s.frayMet r).live && (s.frayMet r).trips with
  | true => rw [State.frayRule_fires i h]; rfl
  | false => rw [State.frayRule_idle i h]; rfl

theorem FrayRule.trips_every {r : FrayRule} (h : fieldLE r.raw 3 1 = 1) : r.trips = true ↔ fieldLE r.raw 4 4 ∣ r.events := by
  simp only [FrayRule.trips, h, decide_eq_true_eq, Nat.dvd_iff_mod_eq_zero]

theorem FrayRule.trips_once {r : FrayRule} (h : fieldLE r.raw 3 1 = 2) : r.trips = true ↔ r.events = fieldLE r.raw 4 4 := by
  simp only [FrayRule.trips, h, decide_eq_true_eq]

theorem FrayRule.trips_random {r : FrayRule} (h : fieldLE r.raw 3 1 = 3) : r.trips = true ↔ 2 ^ fieldLE r.raw 4 4 ∣ r.lfsr.toNat := by
  simp only [FrayRule.trips, h, decide_eq_true_eq, Nat.dvd_iff_mod_eq_zero]

end Sys2Proof.Machine
end

section
/-! The statement about the triggers of Fray rules. -/

namespace Sys2Proof

open Machine

/-- Settles O16: a rule fires where it is live and its trigger holds, for each mode. -/
theorem frayTriggers : Obligations.FrayTriggers := by
  unfold Obligations.FrayTriggers
  rintro s i r _ _ _ rfl rfl rfl
  have hlive : (s.frayMet r).live = decide (fieldLE r.raw 8 4 = 0 ∨ r.fired < fieldLE r.raw 8 4) := rfl
  refine ⟨fun h0 hle => ?_, fun hl => ?_, fun h => ?_, fun h => ?_⟩
  · have hd : (s.frayMet r).live = false := by
      rw [hlive]
      exact decide_eq_false (by omega)
    rw [State.frayRule_idle i (by rw [hd, Bool.false_and])]
  · rw [State.frayRule_isSome, hlive, decide_eq_true hl, Bool.true_and]
    exact ⟨FrayRule.trips_every (r := s.frayMet r), FrayRule.trips_once (r := s.frayMet r), FrayRule.trips_random (r := s.frayMet r)⟩
  · have hf : ((s.frayMet r).live && (s.frayMet r).trips) = false := by rw [← State.frayRule_isSome s i r, h]; rfl
    rw [State.frayRule_idle i hf]
    rfl
  · rw [State.frayRule_isSome] at h
    rw [State.frayRule_fires i h]
    exact ⟨rfl, rfl⟩

end Sys2Proof
end

section
/-! SUPPORT. On-die readings that are discarded (R475, R476). -/

namespace Sys2Proof.Machine

/-- The conversion of an on-die sensor that converts ends with its reading. -/
theorem exec_sensorConversionDone_die {s : State} {i t : Nat} (v : Int) (broken : Bool)
    (h : (((s.atTime t).accrueHeat).sensor i).converting = true) :
    exec (.sensorConversionDone false i v broken t) s = .next ((s.atTime t).accrueHeat.dieConversion i v) := by
  show (if (((s.atTime t).accrueHeat).sensor i).converting = true then _ else _) = _
  exact if_pos h

/-- A sensor whose reading is discarded. -/
def Sensor.discard (x : Sensor) (fails : Bool) : Sensor :=
  { x with
    converting := false
    hot := false
    discards := x.discards + 1
    discarded := x.discarded + 1
    failed := fails }

/-- A reading out of range is discarded, and counted among those in a row. -/
theorem State.dieConversion_discards {s : State} {i : Nat} {v : Int} (hv : v < -160 ∨ 1120 < v) (h : (s.sensor i).discards < 2) :
    s.dieConversion i v = { s with therm.sensors := Tab.set s.therm.sensors i ((s.sensor i).discard false) } := by
  have hr : inRange v = false := decide_eq_false (by omega)
  have hb : decide (2 ≤ (s.sensor i).discards) = false := decide_eq_false (by omega)
  unfold State.dieConversion
  simp only [hr, hb, Bool.false_eq_true, if_false]
  rfl

/-- The third reading discarded in a row fails the sensor. -/
theorem State.dieConversion_fails {s : State} {i : Nat} {v : Int} (hv : v < -160 ∨ 1120 < v) (h : 2 ≤ (s.sensor i).discards) :
    s.dieConversion i v = ((({ s with therm.sensors := Tab.set s.therm.sensors i ((s.sensor i).discard true) } : State).selvedge
      { source := 4, code := 0x45, detail := i, answer := 3 }).dieConditions.watchFeature) := by
  have hr : inRange v = false := decide_eq_false (by omega)
  unfold State.dieConversion
  simp only [hr, decide_eq_true h, Bool.false_eq_true, if_false, if_true]
  rfl

/-- A failed sensor starts no conversion. -/
theorem exec_sensorConversionStart_failed {s : State} {i : Nat} (t : Nat) (h : (s.sensor i).failed = true) :
    exec (.sensorConversionStart false i t) s = .next s := by
  have hu : ((s.atTime t).sensor i).failed = true := h
  exact if_neg fun hc => by
    rw [hu] at hc
    exact absurd hc.2.1 (by decide)

/-- A failed sensor gives no reading. -/
theorem State.dieReadings_failed {s : State} {i : Nat} (v : Int) (h : (s.sensor i).failed = true) : (i, v) ∉ s.dieReadings := by
  intro hm
  obtain ⟨j, -, hj⟩ := List.mem_filterMap.mp hm
  dsimp only at hj
  split at hj
  · cases hj
  · rename_i hf
    obtain ⟨w, -, hw⟩ := Option.map_eq_some_iff.mp hj
    cases hw
    exact hf h

end Sys2Proof.Machine
end

section
/-! The statement about on-die sensors. -/

namespace Sys2Proof

open Machine

/-- Settles O17: a reading out of range with fewer than two discards before it and with two, a failed sensor, and the least target of
the die level. -/
theorem dieSensorReadings : Obligations.DieSensorReadings := by
  unfold Obligations.DieSensorReadings
  refine ⟨?_, fun s i t hf => ⟨exec_sensorConversionStart_failed t hf, fun v => State.dieReadings_failed v hf⟩, fun s h => ?_⟩
  · rintro s _ i t v broken _ rfl rfl hc hv
    rw [exec_sensorConversionDone_die v broken hc]
    refine ⟨fun hd => ?_, fun hd => ?_⟩
    · rw [State.dieConversion_discards hv hd]
      rfl
    · rw [State.dieConversion_fails hv hd]
      rfl
  · have hv : s.validSensors < 20 := h
    unfold State.dieTarget
    rw [if_pos hv]
    exact Nat.le_max_left _ _

end Sys2Proof
end

section
/-! SUPPORT. The places of a bolt's sectors (R69, R74, R75). -/

namespace Sys2Proof.Machine

/-- A chunk's column: its half, and its data column, which steps over the parity column. -/
theorem chunkColumn_parts (b k : Nat) : chunkColumn b k < 32 ∧ chunkColumn b k / 16 = k % 2 ∧
    chunkColumn b k % 16 = if k % 30 / 2 < parityCol b then k % 30 / 2 else k % 30 / 2 + 1 := by
  have hd : k % 30 / 2 < 15 := by omega
  have hh : k % 30 % 2 = k % 2 := Nat.mod_mod_of_dvd k (by decide)
  have hk : k % 2 < 2 := Nat.mod_lt _ (by decide)
  unfold chunkColumn
  dsimp only
  rw [hh]
  generalize k % 30 / 2 = d at hd
  generalize k % 2 = j at hk
  split <;> omega

theorem chunkColumn_ne_parity (b k : Nat) : chunkColumn b k % 16 ≠ parityCol b := by
  rw [(chunkColumn_parts b k).2.2]
  split <;> omega

/-- Two chunks of one row lie in different columns. -/
theorem chunkColumn_inj {b k l : Nat} (h : chunkColumn b k = chunkColumn b l) (hr : k / 30 = l / 30) : k = l := by
  obtain ⟨-, hk, hk'⟩ := chunkColumn_parts b k
  obtain ⟨-, hl, hl'⟩ := chunkColumn_parts b l
  rw [h] at hk hk'
  have hd : k % 30 / 2 = l % 30 / 2 := by
    rw [hk'] at hl'
    split at hl' <;> split at hl' <;> omega
  omega

/-- Every data column of every row holds a chunk. -/
theorem chunkColumn_surj (b r : Nat) {h c : Nat} (hh : h < 2) (hc : c < 16) (hp : c ≠ parityCol b) :
    ∃ k, k / 30 = r ∧ chunkColumn b k = 16 * h + c := by
  have hb : parityCol b < 16 := Nat.mod_lt _ (by decide)
  refine ⟨30 * r + (2 * (if c < parityCol b then c else c - 1) + h), ?_, ?_⟩
  · split <;> omega
  · obtain ⟨-, h1, h2⟩ := chunkColumn_parts b (30 * r + (2 * (if c < parityCol b then c else c - 1) + h))
    split at h1
    · rename_i hlt
      rw [if_pos hlt, if_pos (by omega)] at h2
      rw [if_pos hlt]
      omega
    · rename_i hlt
      rw [if_neg hlt, if_neg (by omega)] at h2
      rw [if_neg hlt]
      omega

/-- Where a sector lies within its chunk: its plane, page and codeword. -/
theorem sectorParts {u : Nat} (h0 : 0 < u) (h8 : u % 8 = 0) (o : Nat) :
    o % u / (u / 2) < 2 ∧ o % u % (u / 2) / 4 < u / 8 ∧ o % u % 4 < 4 := by
  have hx : o % u < u := Nat.mod_lt _ h0
  have hy : o % u % (u / 2) < u / 2 := Nat.mod_lt _ (by omega)
  refine ⟨?_, by omega, by omega⟩
  rw [Nat.div_lt_iff_lt_mul (by omega)]
  omega

end Sys2Proof.Machine
end

section
/-! The statement about the places of sectors. -/

namespace Sys2Proof

open Machine

/-- Settles O18: a place is a chunk's row and column and a sector of the chunk, and both follow from the offset and give it back. -/
theorem sectorPlaces : Obligations.SectorPlaces := by
  unfold Obligations.SectorPlaces
  intro b u h0 h8
  refine ⟨fun o => ?_, fun o o' h => ?_, fun r h c x hh hc hp hx => ?_⟩
  · obtain ⟨hlt, hhalf, -⟩ := chunkColumn_parts b (o / u)
    obtain ⟨hplane, hpage, hcw⟩ := sectorParts h0 h8 o
    exact ⟨rfl, rfl, hlt, hplane, hpage, hcw, hhalf, chunkColumn_ne_parity b (o / u)⟩
  · have hk : o / u = o' / u := chunkColumn_inj (congrArg Place.column h) (congrArg Place.row h)
    have hx : o % u = o' % u := congrArg Place.sector h
    rw [← Nat.div_add_mod o u, hk, hx, Nat.div_add_mod]
  · obtain ⟨k, hr, hcol⟩ := chunkColumn_surj b r hh hc hp
    have hk : (u * k + x) / u = k := by rw [Nat.mul_add_div h0, Nat.div_eq_of_lt hx, Nat.add_zero]
    have hm : (u * k + x) % u = x := by rw [Nat.mul_add_mod, Nat.mod_eq_of_lt hx]
    refine ⟨u * k + x, ?_, ?_, ?_, hm⟩
    · rw [Nat.mul_comm 30 u, ← Nat.div_div_eq_div_mul, hk, hr]
    · show chunkColumn b ((u * k + x) / u) = _
      rw [hk, hcol]
    · show (u * k + x) / u / 30 = r
      rw [hk, hr]

end Sys2Proof
end

section
/-! SUPPORT. The bytes of the IV of a sealed sector (R313). -/

namespace Sys2Proof.Machine

/-- The bytes of an IV from its sixth on. -/
def Sealed.ivGen (x : Sealed) : List Byte := if x.nsid = 1 then bytesLE 4 x.gen ++ bytesLE 2 0 else bytesLE 6 x.gen

theorem Sealed.iv_eq (x : Sealed) : x.iv = BitVec.ofNat 8 (x.keySlot % 2 + 2 * x.nsid) :: (bytesLE 5 x.lba ++ x.ivGen) := rfl

theorem Sealed.iv_length (x : Sealed) : x.iv.length = 12 := by
  have hg : x.ivGen.length = 6 := by
    unfold Sealed.ivGen
    split <;> simp only [List.length_append, bytesLE_length]
  rw [Sealed.iv_eq, List.length_cons, List.length_append, bytesLE_length, hg]

theorem Sealed.iv_head {x : Sealed} (h : x.nsid = 1 ∨ x.nsid = 2) : (x.iv.getD 0 0#8).toNat = x.keySlot % 2 + 2 * x.nsid := by
  rw [Sealed.iv_eq]
  show (BitVec.ofNat 8 (x.keySlot % 2 + 2 * x.nsid)).toNat = _
  rw [BitVec.toNat_ofNat, Nat.mod_eq_of_lt (by omega)]

theorem Sealed.iv_lba (x : Sealed) : numLE ((x.iv.drop 1).take 5) = x.lba % 2 ^ 40 := by
  rw [Sealed.iv_eq, List.drop_succ_cons, List.drop_zero, List.take_left' (bytesLE_length 5 x.lba), numLE_bytesLE]
  rfl

theorem Sealed.iv_drop_six (x : Sealed) : x.iv.drop 6 = x.ivGen := by
  rw [Sealed.iv_eq, List.drop_succ_cons, List.drop_left' (bytesLE_length 5 x.lba)]

theorem Sealed.iv_gen1 {x : Sealed} (h : x.nsid = 1) : numLE ((x.iv.drop 6).take 4) = x.gen % 2 ^ 32 ∧ x.iv.drop 10 = [0#8, 0#8] := by
  have hg : x.iv.drop 6 = bytesLE 4 x.gen ++ bytesLE 2 0 := (Sealed.iv_drop_six x).trans (if_pos h)
  constructor
  · rw [hg, List.take_left' (bytesLE_length 4 x.gen), numLE_bytesLE]
    rfl
  · rw [show (10 : Nat) = 6 + 4 from rfl, ← List.drop_drop, hg, List.drop_left' (bytesLE_length 4 x.gen)]
    rfl

theorem Sealed.iv_gen2 {x : Sealed} (h : x.nsid = 2) : numLE (x.iv.drop 6) = x.gen % 2 ^ 48 := by
  have hg : x.iv.drop 6 = bytesLE 6 x.gen := (Sealed.iv_drop_six x).trans (if_neg (by omega))
  rw [hg, numLE_bytesLE]
  rfl

end Sys2Proof.Machine
end

section
/-! The statement about the IV. -/

namespace Sys2Proof

open Machine

/-- Settles O19: the IV's fields one by one, from which it gives them back. -/
theorem sealedSectorIv : Obligations.SealedSectorIv := by
  unfold Obligations.SealedSectorIv
  refine ⟨fun x h => ⟨x.iv_length, Sealed.iv_head h, x.iv_lba, Sealed.iv_gen1, Sealed.iv_gen2⟩, ?_⟩
  intro x y hx hy hlx hly hgx hgy he
  have hhead := Sealed.iv_head hx
  rw [he, Sealed.iv_head hy] at hhead
  have hn : x.nsid = y.nsid := by omega
  have hlba := x.iv_lba
  rw [he, y.iv_lba, Nat.mod_eq_of_lt hlx, Nat.mod_eq_of_lt hly] at hlba
  refine ⟨hn, by omega, hlba.symm, ?_⟩
  rcases hx with h1 | h2
  · have hgen := (Sealed.iv_gen1 h1).1
    rw [he, (Sealed.iv_gen1 (hn ▸ h1)).1] at hgen
    omega
  · have hgen := Sealed.iv_gen2 h2
    rw [he, Sealed.iv_gen2 (hn ▸ h2)] at hgen
    omega

end Sys2Proof
end

section
/-! SUPPORT. The checks of a mailbox command that an idle mailbox takes, one condition after another (R44, R60). -/

namespace Sys2Proof.Machine

theorem offences_nil : ∀ o ∈ ([] : List (Option Nat)), o = none := fun _ ho => nomatch ho

theorem offences_cons {o : Option Nat} {l : List (Option Nat)} (h : o = none) (hl : ∀ x ∈ l, x = none) : ∀ x ∈ o :: l, x = none :=
  List.forall_mem_cons.mpr ⟨h, hl⟩

theorem conditions_nil : ∀ p ∈ ([] : List (Bool × Nat)), p.1 = false := fun _ hp => nomatch hp

theorem conditions_cons {c : Bool} {st : Nat} {l : List (Bool × Nat)} (h : c = false) (hl : ∀ p ∈ l, p.1 = false) :
    ∀ p ∈ (c, st) :: l, p.1 = false :=
  List.forall_mem_cons.mpr ⟨h, hl⟩

theorem conditions_append {l m : List (Bool × Nat)} (h : ∀ p ∈ l, p.1 = false) (k : ∀ p ∈ m, p.1 = false) : ∀ p ∈ l ++ m, p.1 = false :=
  List.forall_mem_append.mpr ⟨h, k⟩

theorem badIf_not {p : Prop} [Decidable p] {off : Nat} (h : ¬ p) : badIf (decide p) off = none := badIf_none (decide_eq_false h)

/-- Flag bits of PARAMS that must be 0 and are. -/
theorem rsvBits_none {r : MbxReq} {off bit : Nat} (h : r.p off 1 < 2 ^ bit) : r.rsvBits off bit = none := badIf_not (Nat.not_le.mpr h)

/-- Reserved bytes that are 0. -/
theorem rsv_none {r : MbxReq} {l : List (Nat × Nat)} {off len : Nat} (h : r.Zero l) (hm : (off, len) ∈ l) : r.rsv off len = none :=
  h (off, len) hm

section
variable {s : State} {r : MbxReq} {op : BitVec 16}

theorem State.Takes.notSanitising (hi : s.Takes r) : s.san.s.running = false := hi.2.1.2.2.1

theorem State.Takes.acts (hi : s.Takes r) : ∀ p ∈ (s.begun op r).acts, p.1 = false := acts_calm (s := s.begun op r) hi.notSanitising

theorem State.Takes.writes (hi : s.Takes r) (h : s.supply.ewLatched = false) : ∀ p ∈ (s.begun op r).writes, p.1 = false :=
  writes_calm (s := s.begun op r) hi.notSanitising h

theorem State.Takes.guard0 (hi : s.Takes r) (ht : r.target = 0#32) {bad : List (Option Nat)} {rest : List (Bool × Nat)}
    {act : Unit → MbxRes} (hb : ∀ o ∈ bad, o = none) (hr : ∀ p ∈ rest, p.1 = false) :
    r.guard0 (s.begun op r) bad rest act = act () :=
  guard0_pass hi.2.2.1 hi.2.2.2.1 hi.2.2.2.2 ht hb hr

theorem State.Takes.guardH (hi : s.Takes r) {kind slot k : Nat} {t : Tenant} {fz : Bool} {bad : List (Option Nat)}
    {rest : Nat → Tenant → List (Bool × Nat)} {act : Nat → Nat → Tenant → MbxRes} (hn : s.Names kind r slot k t)
    (hz : fz = true ∨ t.frozen = false) (hb : ∀ o ∈ bad, o = none) (hr : ∀ p ∈ rest slot t, p.1 = false) :
    r.guardH (s.begun op r) kind fz bad rest act = act slot k t :=
  guardH_pass (s := s.begun op r) hi.2.2.1 hi.2.2.2.1 hi.2.2.2.2 hn hz hb hr

/-- The start of a command within a state that differs from the one it starts in, but not in the mailbox. -/
theorem State.mkept_begunIn {v : State} (op : BitVec 16) (r : MbxReq) (h : v.mbx = s.mbx) :
    ({ v with mbx := s.begunMbx op r, pow.idleUs := s.now } : State).mkept = v.mkept :=
  State.mkept_of_cfg v _ _ ((State.begunMbx_cfg s op r).trans (congrArg Mbx.cfg h.symm))

theorem State.MayStore.hem (hs : s.MayStore r) {act : Unit → MbxRes} : r.hem (s.begun op r) act = act () :=
  hem_pass (s := s.begun op r) hs

end

end Sys2Proof.Machine
end

section
/-! SUPPORT. Quarantine of a tenant that is not frozen, and the vectors of a block that is revoked (R299, R303). -/

namespace Sys2Proof.Machine

theorem State.quarantine_unfrozen {s : State} {k : Nat} {t : Tenant} (ht : s.tenant k = some t) (hf : t.frozen = false) :
    s.quarantine k = (s.setTenant k { t with quarantined := true }).quarantineEffects k := by
  unfold State.quarantine
  rw [tenantD_of ht]
  exact if_neg (by simp [hf])

/-- The entries of a vector block that is revoked leave a function's MSI-X table. -/
def State.dropVectors (s : State) (fn : Option FnId) (b : VecBlock) : State :=
  match fn with
  | none => s
  | some f => s.updFn f (fun x => { x with msix := x.msix.filter (fun e => !decide (b.base ≤ e.1 ∧ e.1 < b.base + b.count)) })

theorem State.mkept_dropVectors (s : State) (fn : Option FnId) (b : VecBlock) : (s.dropVectors fn b).mkept = s.mkept := by
  cases fn with
  | none => rfl
  | some f => exact State.mkept_of_kept (State.kept_updFn s f _ rfl)

/-- What dropping a block's vectors leaves of the state that a command began in. -/
theorem State.dropVectors_parts (s : State) (fn : Option FnId) (b : VecBlock) :
    (s.dropVectors fn b).mbx = s.mbx ∧ (s.dropVectors fn b).supply = s.supply ∧ (s.dropVectors fn b).dbg.armed = s.dbg.armed ∧
      (s.dropVectors fn b).pow.policyDue = s.pow.policyDue := by
  cases fn <;> exact ⟨rfl, rfl, rfl, rfl⟩

end Sys2Proof.Machine
end

section
/-! The statement about commands on tenants' records. -/

namespace Sys2Proof

open Machine

/-- Settles O20: each command passes its checks, its handler leaves the state named, and the row sends its completion. -/
theorem tenantRecordCommands : Obligations.TenantRecordCommands := by
  unfold Obligations.TenantRecordCommands
  refine ⟨?_, ?_, ?_, ?_, ?_, ?_, ?_, ?_, ?_, ?_⟩
  · -- TENANT_CREATE
    intro s r slot block vf hi ht hs hport hjoin hvf0 hvf hbound hsw hz1 hz2 hv1 hv2 hw hz hpool1 hpool2 hpool3 hslot hblock hpick
    have hslot' : (s.begun 0x0101#16 r).freeSlot 1 = some slot := hslot
    have hblock' : (s.begun 0x0101#16 r).freeSlot 5 = some block := hblock
    have hpick' : (s.begun 0x0101#16 r).pickVf (portOf (r.p 16 1)) (r.p 18 2) = some vf := hpick
    refine State.does_handle (off := 0xFFFF) hi (State.handleOf_ne s (by decide)) rfl ⟨rfl, rfl, rfl⟩ ?_
    refine (hi.guard0 ht ?_ ?_).trans (hs.hem.trans ?_)
    · simp only [List.forall_mem_cons]
      exact ⟨outOf_none (by omega) hport, rsv_none hz (by simp), badIf_not (by omega), badIf_not (by omega), outOf_none hz1 hz2,
        outOf_none hv1 hv2, badIf_not (by omega), rsv_none hz (by simp), offences_nil⟩
    · refine conditions_cons ?_ (conditions_cons ?_ (conditions_cons ?_ (hi.writes hs.1)))
      · refine Bool.and_eq_false_imp.mpr fun hj => decide_eq_false ?_
        rw [hjoin hj]
        decide
      · exact List.any_eq_false.mpr fun p hp hb => hbound p hp (of_decide_eq_true hb)
      · rw [hslot', hblock', hpick']
        exact decide_eq_false fun h => by
          rcases h with h | h | h
          · exact absurd h (Nat.not_lt.mpr hpool1)
          · exact absurd h (Nat.not_lt.mpr hpool2)
          · exact absurd h (Nat.not_lt.mpr hpool3)
    · show tenantCreateRun r (((s.begun 0x0101#16 r).freeSlot 1).getD 0) (((s.begun 0x0101#16 r).freeSlot 5).getD 0)
        (((s.begun 0x0101#16 r).pickVf (portOf (r.p 16 1)) (r.p 18 2)).getD 0) (s.begun 0x0101#16 r) = _
      rw [hslot', hblock', hpick']
      rfl
  · -- TENANT_SET_ATOMIC
    intro s r k t hi hn hf hs hlim hz
    refine State.does_target (off := 0xFFFF) hi (.inl rfl) rfl ⟨rfl, rfl, rfl⟩ ?_
    unfold tenantSetAtomicCmd
    refine (hi.guardH hn (.inr hf) ?_ ?_).trans ?_
    · simp only [List.forall_mem_cons]
      refine ⟨outOf_none (by omega) (by omega), rsv_none hz (by simp), badIf_none ?_, rsv_none hz (by simp), offences_nil⟩
      rcases hlim with ⟨h1, h2, h3⟩ | ⟨h1, h2⟩
      · rw [if_pos (decide_eq_true h1)]
        exact decide_eq_false (by omega)
      · rw [if_neg (by simp [h1])]
        exact decide_eq_false (by omega)
    · exact hi.writes hs.1
    · refine hs.hem.trans ?_
      rw [State.updTenant_of (s := s.begun _ r) hn.2]
      rfl
  · -- TENANT_QUARANTINE of a tenant already quarantined
    intro s r k t hi hn hf hs hb hq hz
    refine State.does_target (off := 0xFFFF) hi (.inl rfl) rfl ⟨rfl, rfl, rfl⟩ ?_
    refine (hi.guardH hn (.inr hf) (reserved_zero hz) (conditions_cons ?_ (hi.writes hs.1))).trans ?_
    · rw [State.begun_managerBase]
      exact decide_eq_false hb
    · exact if_pos hq
  · -- TENANT_QUARANTINE of one that is not
    intro s r k t hi hn hf hs hb hq hz
    have hq' := State.quarantine_unfrozen (s := s.begun 0x0107#16 r) hn.2 hf
    have ha := State.apart_quarantineEffects ((s.begun 0x0107#16 r).setTenant k { t with quarantined := true }) k
    have hm := State.mbx_of_apart ha
    have hsup := State.supply_of_apart ha
    have hd := State.armed_of_apart ha
    have hk := State.mkept_begunIn (s := s) (v := s.setTenant k { t with quarantined := true }) 0x0107#16 r rfl
    refine State.does_apart (off := 0xFFFF) (handle := 0) (handler := tenantQuarantineCmd) hi rfl ?_ hm hsup hd
      ((State.mapart_of_apart ha).trans (State.mapart_of_mkept hk))
    refine (hi.guardH hn (.inr hf) (reserved_zero hz) (conditions_cons ?_ (hi.writes hs.1))).trans ?_
    · rw [State.begun_managerBase]
      exact decide_eq_false hb
    · rw [← hq']
      exact (if_neg (by simp [hq])).trans hs.hem
  · -- SET_COALESCING
    intro s r slot k t hi hn hf hs hcd hgap hz
    refine State.does_target (off := 0xFFFF) hi (.inl rfl) rfl ⟨rfl, rfl, rfl⟩ ?_
    refine (hi.guardH hn (.inr hf) ?_ (hi.writes hs.1)).trans (hs.hem.trans rfl)
    simp only [List.forall_mem_cons]
    exact ⟨rsvBits_none hcd, badIf_not (by omega), rsv_none hz (by simp), offences_nil⟩
  · -- VECTOR_BLOCK_GRANT
    intro s r k block base t hi hn hf hs hn1 hn2 hbase hvec hpool hblock hz
    have hblock' : (s.begun 0x0203#16 r).freeSlot 5 = some block := hblock
    have hb : (if r.p 18 2 = 0xFFFF then t.freeRun (r.p 16 2) else if t.overlaps (r.p 18 2) (r.p 16 2) then none else some (r.p 18 2)) =
        some base := by
      rcases hbase with ⟨h1, rfl, -, h3⟩ | ⟨h1, h2⟩
      · rw [if_neg (by omega), if_neg (by simp [h3])]
      · rw [if_pos h1, h2]
    refine State.does_handle (off := 0xFFFF) hi (State.handleOf_ne s (by decide)) rfl ⟨rfl, rfl, rfl⟩ ?_
    unfold vectorBlockGrantCmd
    refine (hi.guardH hn (.inr hf) ?_ ?_).trans ?_
    · simp only [List.forall_mem_cons]
      exact ⟨outOf_none hn1 hn2, badIf_not (by omega), badIf_not (by omega), rsv_none hz (by simp), offences_nil⟩
    · refine conditions_cons ?_ (conditions_cons (decide_eq_false (by omega)) (conditions_cons ?_ (hi.writes hs.1)))
      · dsimp only
        rw [hb]
        rfl
      · rw [hblock', Option.isNone_some, Bool.or_false]
        exact decide_eq_false (Nat.not_lt.mpr hpool)
    · refine hs.hem.trans ?_
      dsimp only
      rw [hb, hblock']
      rfl
  · -- VECTOR_BLOCK_REVOKE
    rintro s r slot k t _ hi hn hf hs rfl hu hb hz
    have hk := State.mkept_begunIn (s := s) (v := (s.setTenant k
      { t with blocks := t.blocks.filter (fun x => decide (x.handle ≠ (t.blockIn slot).handle)) }).bumpGen 5 slot) 0x0204#16 r rfl
    obtain ⟨hm, hsup, hd, hpow⟩ := State.dropVectors_parts ((((s.begun 0x0204#16 r).setTenant k
      { t with blocks := t.blocks.filter (fun x => decide (x.handle ≠ (t.blockIn slot).handle)) }).bumpGen 5 slot)) t.fn (t.blockIn slot)
    refine State.does_mkept (off := 0xFFFF) (handle := 0) (handler := vectorBlockRevokeCmd) hi rfl ?_ hm hsup hd
      ((State.mkept_dropVectors _ _ _).trans hk) hpow
    refine (hi.guardH hn (.inr hf) (reserved_zero hz) (conditions_cons ?_ (hi.writes hs.1))).trans (hs.hem.trans ?_)
    · exact Bool.or_eq_false_iff.mpr ⟨hu, decide_eq_false hb⟩
    · cases hfn : t.fn <;> rfl
  · -- QPAIR_REVOKE
    intro s r slot k t hi hn hf hs hq hz
    refine State.does_target (off := 0xFFFF) hi (.inl rfl) rfl ⟨rfl, rfl, rfl⟩ ?_
    refine (hi.guardH hn (.inr hf) (reserved_zero hz) (conditions_cons ?_ (hi.writes hs.1))).trans (hs.hem.trans rfl)
    refine List.any_eq_false.mpr fun q hm hc => ?_
    obtain ⟨h1, h2⟩ := Bool.and_eq_true_iff.mp hc
    rcases hq q hm with h | h
    · simp [h] at h1
    · exact absurd (of_decide_eq_true h2) (Nat.not_lt.mpr h)
  · -- PLACEMENT_CREATE
    intro s r k t hi hn hf hs hi1 hi2 hm hg hp hz
    refine State.does_handle (off := 0xFFFF) hi (State.handleOf_ne s (by decide)) rfl ⟨rfl, rfl, rfl⟩ ?_
    unfold placementCreateCmd
    refine (hi.guardH hn (.inr hf) ?_ ?_).trans ?_
    · simp only [List.forall_mem_cons]
      refine ⟨outOf_none hi1 hi2, rsv_none hz (by simp), badIf_none (Bool.or_eq_false_iff.mpr ⟨decide_eq_false hm, ?_⟩),
        rsv_none hz (by simp), offences_nil⟩
      exact List.any_eq_false.mpr fun g hgm hc => absurd (hg g hgm).1 (Nat.not_lt.mpr (of_decide_eq_true hc))
    · refine conditions_cons ?_ (conditions_cons ?_ (hi.writes hs.1))
      · exact List.any_eq_false.mpr fun g hgm hc => by simp [(hg g hgm).2] at hc
      · exact List.any_eq_false.mpr fun p hpm hc => hp p hpm (of_decide_eq_true hc)
    · exact hs.hem.trans rfl
  · -- PLACEMENT_DESTROY
    intro s r slot k t hi hn hf hs hb hz
    refine State.does_target (off := 0xFFFF) hi (.inr rfl) rfl ⟨rfl, rfl, rfl⟩ ?_
    exact (hi.guardH hn (.inr hf) (reserved_zero hz) (conditions_cons (decide_eq_false hb) (hi.writes hs.1))).trans (hs.hem.trans rfl)

end Sys2Proof
end

section
/-! The statements about the block's own step and the capture queue. -/

namespace Sys2Proof

open Machine

/-- Settles O1: `step` matches on the queue alone. -/
theorem stepRunsFrontCommand : Obligations.StepRunsFrontCommand := by
  unfold Obligations.StepRunsFrontCommand
  intro s c r h
  simp [step, h]

/-- Settles O15: `selvedge` tests whether the queue holds fewer than 64 entries. -/
theorem captureQueue : Obligations.CaptureQueue := by
  unfold Obligations.CaptureQueue
  intro s v
  refine ⟨fun h => ?_, fun h hl => ?_, fun h => ?_⟩
  · rw [State.selvedge, if_pos h]
  · have hmin : min (s.selv.lost + 1) (2 ^ 32 - 1) = if s.selv.lost = 2 ^ 32 - 1 then 2 ^ 32 - 1 else s.selv.lost + 1 := by
      split <;> omega
    rw [State.selvedge, if_neg (Nat.not_lt.mpr h), hmin]
  · by_cases hq : s.selv.queue.length < 64
    · rw [State.selvedge, if_pos hq]
      simp only [List.length_append, List.length_singleton]
      omega
    · rw [State.selvedge, if_neg hq]
      exact h

end Sys2Proof
end

section
/-! SUPPORT. A bit-vector of three parts, cut at the middle one. -/

namespace Sys2Proof.Machine

/-- Bits of a concatenation that lie in its lower part. -/
theorem extractLsb'_append_low {n m : Nat} (x : BitVec n) (y : BitVec m) {i k : Nat} (h : i + k ≤ m) :
    (x ++ y).extractLsb' i k = y.extractLsb' i k := by
  ext j hj
  have : i + j < m := by omega
  simp [BitVec.getElem_extractLsb', BitVec.getLsbD_append, this]

/-- Bits of a concatenation that lie in its upper part. -/
theorem extractLsb'_append_high {n m : Nat} (x : BitVec n) (y : BitVec m) {i k : Nat} (h : m ≤ i) :
    (x ++ y).extractLsb' i k = x.extractLsb' (i - m) k := by
  ext j hj
  have : ¬ i + j < m := by omega
  have e : i + j - m = i - m + j := by omega
  simp [BitVec.getElem_extractLsb', BitVec.getLsbD_append, this, e]

/-- Neighbouring cuts of a word, by the places where they begin. -/
theorem cuts_join {w : Nat} {x : BitVec w} (j i : Nat) {k l : Nat} (h : j = i + k := by rfl) :
    x.extractLsb' j l ++ x.extractLsb' i k = x.extractLsb' i (l + k) :=
  BitVec.extractLsb'_append_extractLsb'_eq_extractLsb' h

/-- The word of a message as a concatenation of its fields, its width the sum of theirs. -/
def messageFields (m : BobbinMsg) (v : BitVec 6) : BitVec (8 + 8 + 6 + 2 + 7 + 16 + 16 + 1 + 128) :=
  m.dest ++ m.src ++ v ++ 0#2 ++ m.role ++ m.epoch ++ m.opId ++ 0#1 ++ m.object

theorem word_cut (m : BobbinMsg) (v : BitVec 6) (i k : Nat) : (m.word v).extractLsb' i k = (messageFields m v).extractLsb' i k := rfl

end Sys2Proof.Machine
end

section
/-! The statement about the word of a bobbin message. -/

namespace Sys2Proof

open Machine

/-- Settles O56: each field is cut out of the concatenation where it was put in, and neighbouring cuts of a word join. -/
theorem bobbinMessageWord : Obligations.BobbinMessageWord := by
  unfold Obligations.BobbinMessageWord
  refine ⟨fun m v => ?_, fun m v => ?_, fun w h168 h128 => ?_⟩
  · simp only [BobbinMsg.ofWord, word_cut, messageFields]
    simp (disch := decide) only [extractLsb'_append_low, extractLsb'_append_high, Nat.reduceSub, BitVec.extractLsb'_eq_self]
  · simp only [word_cut, messageFields]
    simp (disch := decide) only [extractLsb'_append_low, extractLsb'_append_high, Nat.reduceSub, BitVec.extractLsb'_eq_self, and_self]
  · simp only [BobbinMsg.ofWord, BobbinMsg.word]
    rw [← h168, ← h128]
    rw [cuts_join 184 176, cuts_join 176 170, cuts_join 170 168, cuts_join 168 161, cuts_join 161 145, cuts_join 145 129,
      cuts_join 129 128, cuts_join 128 0]
    exact BitVec.extractLsb'_eq_self

end Sys2Proof
end

section
/-! SUPPORT. The two readings of a DRAM address under each order (R356): the bursts of a channel are numbered `b'`, and the order says
where burst `b'` of a channel lies. -/

namespace Sys2Proof.Machine

/-- The number within its channel of the burst at an address. -/
def channelBurst (a : Nat) : Nat := a / 64 / 16 * 4 + a / 64 % 4

/-- Row, bank and column of burst `b` of a channel under an order. -/
def burstPlace (order b : Nat) : Nat × Nat × Nat :=
  match order with
  | 0 => (b / 56 / 16, b / 56 % 16, b % 56)
  | 1 => (b / 896, b % 16, b / 16 % 56)
  | _ => (b / 56 / 16, (b / 56 % 16) ^^^ (b / 56 / 16 % 16), b % 56)

/-- The burst of a channel at a row, bank and column under an order. -/
def placeBurst (order row bank col : Nat) : Nat :=
  match order with
  | 0 => (row * 16 + bank) * 56 + col
  | 1 => row * 896 + col * 16 + bank
  | _ => (row * 16 + (bank ^^^ (row % 16))) * 56 + col

theorem dramPlace_eq (gib ranks order a : Nat) : dramPlace gib ranks order a =
    ⟨a / 64 / 4 % 4, rankOf gib ranks (burstPlace order (channelBurst a)).1, (burstPlace order (channelBurst a)).2.1,
      (burstPlace order (channelBurst a)).1, (burstPlace order (channelBurst a)).2.2⟩ := by
  match order with
  | 0 => rfl
  | 1 => rfl
  | n + 2 => rfl

theorem dramAddr_eq (order : Nat) (p : DramPlace) : dramAddr order p =
    64 * (placeBurst order p.row p.bank p.col / 4 * 16 + p.ch * 4 + placeBurst order p.row p.bank p.col % 4) := by
  match order with
  | 0 => rfl
  | 1 => rfl
  | n + 2 => rfl

theorem xor_lt_16 {x y : Nat} (hx : x < 16) (hy : y < 16) : x ^^^ y < 16 := Nat.xor_lt_two_pow (n := 4) hx hy

/-- The place of a burst of a channel names its row by 896 bursts, a bank and a column. -/
theorem burstPlace_bounds (order b : Nat) :
    (burstPlace order b).1 = b / 896 ∧ (burstPlace order b).2.1 < 16 ∧ (burstPlace order b).2.2 < 56 := by
  match order with
  | 0 => simp only [burstPlace]; omega
  | 1 => exact ⟨rfl, Nat.mod_lt _ (by decide), Nat.mod_lt _ (by decide)⟩
  | n + 2 =>
    simp only [burstPlace]
    exact ⟨Nat.div_div_eq_div_mul b 56 16, xor_lt_16 (by omega) (by omega), by omega⟩

theorem placeBurst_burstPlace (order b : Nat) :
    placeBurst order (burstPlace order b).1 (burstPlace order b).2.1 (burstPlace order b).2.2 = b := by
  match order with
  | 0 => simp only [placeBurst, burstPlace]; omega
  | 1 => simp only [placeBurst, burstPlace]; omega
  | n + 2 =>
    have hq : (b / 56 / 16 * 16 + b / 56 % 16) * 56 + b % 56 = b := by omega
    simp only [placeBurst, burstPlace, Nat.xor_xor_cancel_right, hq]

theorem burstPlace_placeBurst {order row bank col : Nat} (hb : bank < 16) (hc : col < 56) :
    burstPlace order (placeBurst order row bank col) = (row, bank, col) := by
  match order with
  | 0 => simp only [placeBurst, burstPlace, Prod.mk.injEq]; omega
  | 1 => simp only [placeBurst, burstPlace, Prod.mk.injEq]; omega
  | n + 2 =>
    have hx : bank ^^^ (row % 16) < 16 := xor_lt_16 hb (by omega)
    have hq : ((row * 16 + (bank ^^^ (row % 16))) * 56 + col) / 56 = row * 16 + (bank ^^^ (row % 16)) := by omega
    have h1 : (row * 16 + (bank ^^^ (row % 16))) / 16 = row := by omega
    have h2 : (row * 16 + (bank ^^^ (row % 16))) % 16 = bank ^^^ (row % 16) := by omega
    simp only [placeBurst, burstPlace, hq, h1, h2, Nat.xor_xor_cancel_right, Prod.mk.injEq, true_and]
    omega

/-- The address of a channel's burst is that of the 64-byte burst it was read from. -/
theorem channelBurst_addr (a : Nat) :
    64 * (channelBurst a / 4 * 16 + a / 64 / 4 % 4 * 4 + channelBurst a % 4) = a / 64 * 64 := by
  unfold channelBurst
  omega

theorem channelBurst_of {b ch : Nat} (h : ch < 4) :
    channelBurst (64 * (b / 4 * 16 + ch * 4 + b % 4)) = b ∧ 64 * (b / 4 * 16 + ch * 4 + b % 4) / 64 / 4 % 4 = ch := by
  unfold channelBurst
  omega

theorem rankOf_lt {gib ranks row : Nat} (h : row < dramRows gib) : rankOf gib ranks row < 2 := by
  unfold dramRows at h
  unfold rankOf
  split
  · rw [Nat.div_lt_iff_lt_mul (by unfold dramRows; omega)]
    unfold dramRows
    omega
  · omega

end Sys2Proof.Machine
end

section
/-! The statement about the DRAM address map. -/

namespace Sys2Proof

open Machine

/-- Settles O58: an address is a channel and a burst of that channel, and under each order `burstPlace` and `placeBurst` undo each
other. -/
theorem dramAddressMap : Obligations.DramAddressMap := by
  unfold Obligations.DramAddressMap
  refine ⟨fun gib ranks order a => ?_, fun gib ranks order p hch hb hc => ?_, fun s p => rfl⟩
  · obtain ⟨hrow, hbank, hcol⟩ := burstPlace_bounds order (channelBurst a)
    rw [dramPlace_eq, dramAddr_eq]
    have hch : a / 64 / 4 % 4 = a / 256 % 4 := by omega
    refine ⟨?_, hch, hbank, hcol, fun ha => ?_⟩
    · simp only [placeBurst_burstPlace, channelBurst_addr]
    · have hlt : (burstPlace order (channelBurst a)).1 < dramRows gib := by
        rw [hrow]
        unfold channelBurst dramRows
        omega
      exact ⟨hlt, rankOf_lt hlt⟩
  · obtain ⟨hburst, hch'⟩ := channelBurst_of (b := placeBurst order p.row p.bank p.col) hch
    rw [dramPlace_eq, dramAddr_eq, hburst, hch', burstPlace_placeBurst hb hc]

end Sys2Proof
end

section
/-! SUPPORT. The words of the Hem store's rings: 56 bits over a CRC-8 (R383, R393). -/

namespace Sys2Proof.Machine

theorem crc8Bits_lt : ∀ (n : Nat) {c : Nat}, c < 256 → crc8Bits n c < 256
  | 0, _, h => h
  | n + 1, c, h => by
    have hs : c * 2 % 256 < 2 ^ 8 := by omega
    unfold crc8Bits
    refine crc8Bits_lt n ?_
    split
    · exact Nat.xor_lt_two_pow hs (by decide)
    · exact hs

theorem crc8_lt {c : Nat} (h : c < 256) (bs : List Byte) : crc8 c bs < 256 := by
  induction bs generalizing c with
  | nil => exact h
  | cons b bs ih => exact ih (crc8Bits_lt 8 (Nat.xor_lt_two_pow (n := 8) h b.isLt))

theorem crcWord_toNat {hi : Nat} (h : hi < 2 ^ 56) : (crcWord hi).toNat = hi * 256 + crc8 0 (bytesBE 7 hi) := by
  have := crc8_lt (c := 0) (by decide) (bytesBE 7 hi)
  rw [crcWord, BitVec.toNat_ofNat]
  exact Nat.mod_eq_of_lt (by omega)

theorem crcWord_div {hi : Nat} (h : hi < 2 ^ 56) : (crcWord hi).toNat / 256 = hi := by
  have := crc8_lt (c := 0) (by decide) (bytesBE 7 hi)
  rw [crcWord_toNat h]
  omega

theorem crcGood_crcWord {mark hi : Nat} (h : hi < 2 ^ 56) (hm : hi / 2 ^ 48 = mark) : crcGood mark (crcWord hi) = true := by
  have hd := crcWord_div h
  refine decide_eq_true ⟨?_, by rw [hd]⟩
  omega

/-- A word is valid where its mark is and its lowest byte is the CRC of the seven above (R383). -/
theorem crcGood_iff (mark : Nat) (w : BitVec 64) : crcGood mark w = true ↔
    w.toNat / 2 ^ 56 = mark ∧ w.toNat % 256 = crc8 0 (bytesBE 7 (w.toNat / 256)) := by
  have hlt := w.isLt
  have hw : w = crcWord (w.toNat / 256) ↔ w.toNat % 256 = crc8 0 (bytesBE 7 (w.toNat / 256)) := by
    rw [← BitVec.toNat_inj, crcWord_toNat (by omega)]
    omega
  rw [crcGood, decide_eq_true_iff, hw]

theorem selectCrc_lt (seq twin fallback mode : Nat) : selectCrc seq twin fallback mode < 256 := crc8_lt (by decide) _

/-- The fields above the CRC of a select word, as numbers. -/
theorem Select.word_toNat {x : Select} : x.word.toNat = 0xC3 * 2 ^ 56 + x.seq % 2 ^ 16 * 2 ^ 40 + x.twin % 256 * 2 ^ 32 +
    (if x.confirmed then 0 else 0xFF) * 2 ^ 24 + x.fallback % 256 * 2 ^ 16 + x.mode % 256 * 2 ^ 8 +
    selectCrc x.seq x.twin x.fallback x.mode := by
  have hc := selectCrc_lt x.seq x.twin x.fallback x.mode
  have ht : (if x.confirmed then 0 else 0xFF : Nat) ≤ 0xFF := by split <;> decide
  rw [Select.word, BitVec.toNat_ofNat]
  exact Nat.mod_eq_of_lt (by omega)

theorem selectOf_word {x : Select} (hs : x.seq < 2 ^ 16) (ht : x.twin < 2 ^ 8) (hf : x.fallback < 2 ^ 8) (hm : x.mode < 2 ^ 8) :
    selectOf x.word = some x := by
  have hc := selectCrc_lt x.seq x.twin x.fallback x.mode
  have hb : (if x.confirmed then 0 else 0xFF : Nat) ≤ 0xFF := by split <;> decide
  have hn := x.word_toNat
  generalize hy : (if x.confirmed then 0 else 0xFF : Nat) = y at hn hb
  have hseq : x.word.toNat / 2 ^ 40 % 2 ^ 16 = x.seq := by omega
  have htwin : x.word.toNat / 2 ^ 32 % 256 = x.twin := by omega
  have htrial : x.word.toNat / 2 ^ 24 % 256 = y := by omega
  have hfall : x.word.toNat / 2 ^ 16 % 256 = x.fallback := by omega
  have hmode : x.word.toNat / 2 ^ 8 % 256 = x.mode := by omega
  have hmark : x.word.toNat / 2 ^ 56 = 0xC3 := by omega
  have hcrc : x.word.toNat % 256 = selectCrc x.seq x.twin x.fallback x.mode := by omega
  have hconf : decide (y = 0) = x.confirmed := by
    subst hy
    cases x.confirmed <;> rfl
  simp only [selectOf, hseq, htwin, htrial, hfall, hmode, hmark, hcrc, hconf, and_self, if_true]

end Sys2Proof.Machine
end

section
/-! The statement about the words of the Hem store. -/

namespace Sys2Proof

open Machine

/-- Settles O59: a word of fields in range carries its mark and its CRC, and dividing by 256 gives back the 56 bits they lie in. -/
theorem hemWordsReadBack : Obligations.HemWordsReadBack := by
  unfold Obligations.HemWordsReadBack
  refine ⟨fun x => selectOf_word, fun start gap seq hs hg hq => ?_, fun svn hs => ?_, fun kind action arg aux hk ha hr hx => ?_,
    crcGood_iff⟩
  · generalize hhi : 0x96 * 2 ^ 48 + start % 2 ^ 14 * 2 ^ 34 + gap % 2 ^ 14 * 2 ^ 20 + seq % 2 ^ 16 * 2 ^ 4 = hi
    have hlt : hi < 2 ^ 56 := by omega
    have hd := crcWord_div hlt
    rw [pointerWord, hhi, pointerOf, if_pos (crcGood_crcWord hlt (by omega))]
    simp only [Option.some.injEq, Prod.mk.injEq]
    omega
  · generalize hhi : 0x69 * 2 ^ 48 + svn % 2 ^ 16 * 2 ^ 32 = hi
    have hlt : hi < 2 ^ 56 := by omega
    have hd := crcWord_div hlt
    rw [ratchetWord, hhi, ratchetOf, if_pos (crcGood_crcWord hlt (by omega)), Option.some.injEq]
    omega
  · generalize hhi : 0x5A * 2 ^ 48 + kind % 16 * 2 ^ 44 + action % 16 * 2 ^ 40 + arg % 2 ^ 32 * 2 ^ 8 + aux % 256 = hi
    have hlt : hi < 2 ^ 56 := by omega
    have hd := crcWord_div hlt
    rw [progressWord, hhi, progressOf, if_pos (crcGood_crcWord hlt (by omega))]
    simp only [Option.some.injEq, Prod.mk.injEq]
    omega

end Sys2Proof
end

section
/-! SUPPORT. Contracts, resets, queue pairs, die-group sets and regions of a tenant (R99, R104, R294, R297, R299, R301). -/

namespace Sys2Proof.Machine

/-- A tenant with no active zone in excess has none marked. -/
theorem Tenant.markExcess_none {t : Tenant} (h : (t.zones.filter (fun z => z.2.st.active)).length ≤ t.activeZones) : t.markExcess = t := by
  unfold Tenant.markExcess
  simp [Nat.sub_eq_zero_of_le h]

/-- A contract set where no zone is in excess and the write path rests. -/
theorem State.setQos_rests {s : State} {k zones swatches : Nat} {t : Tenant} (q : QosTerms) (h : s.Rests) (ht : s.tenant k = some t)
    (hz : (t.zones.filter (fun z => z.2.st.active)).length ≤ zones) : s.setQos k q zones swatches =
      s.setTenant k { t.withContract q s.now with activeZones := zones, swatchQuota := swatches } := by
  have hm : ({ t.withContract q s.now with activeZones := zones, swatchQuota := swatches } : Tenant).markExcess =
      { t.withContract q s.now with activeZones := zones, swatchQuota := swatches } := Tenant.markExcess_none hz
  have hr : (s.setTenant k { t.withContract q s.now with activeZones := zones, swatchQuota := swatches }).Rests :=
    State.rests_zones h ht rfl
  unfold State.setQos
  dsimp only
  rw [State.updTenant_of ht, hm, State.pump_rests hr, State.retryParked_rests hr.1 hr.2.2.2.2.2.2.2.2.2.2.1]

theorem State.release_some {s : State} {k : Nat} {t : Tenant} {f : FnId} (reset : Bool) (hf : t.fn = some f) :
    s.release k t reset = ((if reset then s.resetFn f false else s).updTenant k
      (fun t => { t with quarantined := false, violations := 0 })).unhold k f := by
  unfold State.release
  cases reset <;> simp only [hf, Bool.false_eq_true, if_true, if_false]

/-- A quota changed on a tenant whose function takes no notice of it is recorded for its function alone. -/
theorem State.nsChange_silent {s : State} {k nsid : Nat} {t : Tenant} {f : FnId} (ht : s.tenant k = some t) (hf : t.fn = some f)
    (ha : (s.fn f).aec.getLsbD 8 = false) : s.nsChange k nsid = s.setTenant k { t with nsChanged := addOnce t.nsChanged nsid } := by
  unfold State.nsChange
  dsimp only
  rw [State.updTenant_of ht]
  generalize hx : ({ t with nsChanged := addOnce t.nsChanged nsid } : Tenant) = x
  have hxf : x.fn = some f := by rw [← hx]; exact hf
  have hxt : (s.setTenant k x).tenant k = some x := by rw [State.tenant_setTenant, if_pos rfl]
  rw [tenantD_of hxt, hxf]
  exact if_neg (by rw [show (s.setTenant k x).fn f = s.fn f from rfl, ha]; decide)

/-- What a tenant's record holds of a command that waits for its region does not matter to the wait. -/
theorem State.convBusy_setTenant {s : State} {k : Nat} {t x : Tenant} (n : Nat) (ht : s.tenant k = some t) (hx : x.fn = t.fn) :
    (s.setTenant k x).convBusy k n = s.convBusy k n := by
  unfold State.convBusy
  rw [tenantD_of ht, tenantD_of (show (s.setTenant k x).tenant k = some x by rw [State.tenant_setTenant, if_pos rfl]), hx]
  rfl

theorem State.gen_of_kept {s t : State} (h : s.kept = t.kept) (kind slot : Nat) : s.gen kind slot = t.gen kind slot := by
  have k := congrArg (fun u : State × (FnId → Fn) × (Nat → Option Tenant) => u.1.gen kind slot) h
  exact k

/-- What a command's buffer receives does not change the handles. -/
theorem State.handleOf_output (s : State) (r : MbxReq) (ao lo kind slot : Nat) (bytes : List Byte) :
    (r.output s ao lo bytes).handleOf kind slot = s.handleOf kind slot :=
  congrArg (mkHandle kind slot) (State.gen_of_kept (State.kept_emit s _) kind slot)

/-- The state that a handler leaves where it sets a tenant's record, by the record it sets in `s`. -/
theorem State.setTenant_begun (s : State) (op : BitVec 16) (r : MbxReq) (k : Nat) (x : Tenant) :
    (s.begun op r).setTenant k x = { s.setTenant k x with mbx := s.begunMbx op r, pow.idleUs := s.now } := rfl

theorem State.resetTenant_enabled {s : State} {t : Tenant} {f : FnId} (hf : t.fn = some f) (he : ccEn (s.fn f).cc = true) :
    s.resetTenant t = s.resetFn f false := by
  unfold State.resetTenant
  simp only [hf, he, if_true]

theorem State.resetTenant_disabled {s : State} {t : Tenant} {f : FnId} (hf : t.fn = some f) (he : ccEn (s.fn f).cc = false) :
    s.resetTenant t = s := by
  unfold State.resetTenant
  simp only [hf, he, Bool.false_eq_true, if_false]

section
variable {s : State} {op : BitVec 16} {r : MbxReq} {k : Nat} {t : Tenant}

/-- The handler of TENANT_SET_QOS where no zone is in excess and the write path rests. -/
theorem tenantSetQosCmd_rests (c : MbxCmd) (hi : s.Takes r) (hn : s.Names 1 r k k t) (hf : t.frozen = false) (hs : s.MayStore r)
    (hrest : s.Rests) (hiops : r.p 16 4 = 0 ∨ r.p 24 4 ≤ r.p 16 4) (hbw : r.p 20 4 = 0 ∨ r.p 28 4 ≤ r.p 20 4) (hb1 : 1 ≤ r.p 32 2)
    (hb2 : r.p 32 2 ≤ 1000) (hw : r.p 34 1 ≠ 0) (hz1 : 1 ≤ r.p 36 2) (hz2 : r.p 36 2 ≤ 4096) (hsw : 64 ≤ r.p 40 4)
    (hpool : s.qosShort k (qosOf r) (r.p 36 2) (r.p 40 4) = false) (hact : (t.zones.filter (fun z => z.2.st.active)).length ≤ r.p 36 2)
    (hz : r.Zero [(35, 1), (38, 2), (44, 20)]) :
    tenantSetQosCmd c r (s.begun op r) = MbxRes.ok ((s.begun op r).setTenant k
      { t.withContract (qosOf r) s.now with activeZones := r.p 36 2, swatchQuota := r.p 40 4 }) := by
  unfold tenantSetQosCmd
  refine (hi.guardH hn (.inr hf) ?_ (conditions_cons hpool (hi.writes hs.1))).trans ?_
  · simp only [List.forall_mem_cons]
    exact ⟨badIf_not (by rintro ⟨h1, h2⟩; exact hiops.elim h1 (Nat.not_le.mpr h2)),
      badIf_not (by rintro ⟨h1, h2⟩; exact hbw.elim h1 (Nat.not_le.mpr h2)), outOf_none hb1 hb2, badIf_not hw,
      rsv_none hz (by simp), outOf_none hz1 hz2, rsv_none hz (by simp), badIf_not (by omega), rsv_none hz (by simp), offences_nil⟩
  · exact hs.hem.trans (congrArg (fun u => MbxRes.ok u) (State.setQos_rests (s := s.begun op r) (qosOf r) hrest hn.2 hact))

/-- The handler of TENANT_RELEASE of a quarantined tenant. -/
theorem tenantReleaseCmd_releases (c : MbxCmd) (hi : s.Takes r) (hn : s.Names 1 r k k t) (hf : t.frozen = false) (hs : s.MayStore r)
    (hq : t.quarantined = true) (hb : r.p 16 1 ≤ 1) (hz : r.Zero [(17, 47)]) :
    tenantReleaseCmd c r (s.begun op r) = MbxRes.ok ((s.begun op r).release k t (r.bit 16 0)) := by
  unfold tenantReleaseCmd
  refine (hi.guardH hn (.inr hf) ?_ (conditions_cons (by rw [hq]; rfl) (hi.writes hs.1))).trans hs.hem
  simp only [List.forall_mem_cons]
  exact ⟨rsvBits_none (by omega), rsv_none hz (by simp), offences_nil⟩

/-- The record that DIEGROUP_ASSIGN leaves. -/
def Tenant.assigned (t : Tenant) (gs : List Nat) (ex : Bool) (quota : Nat) : Tenant := { t with
  groups := gs
  exclusive := ex
  quota := quota
  nsChanged := if quota = t.quota then t.nsChanged else addOnce t.nsChanged 1 }

/-- DIEGROUP_ASSIGN past its checks, where the write path rests and the tenant's function takes no notice of its namespace. -/
theorem diegroupAssignRun_rests {f : FnId} (r : MbxReq) (gs : List Nat) (hrest : s.Rests) (ht : s.tenant k = some t)
    (hfn : t.fn = some f) (haec : (s.fn f).aec.getLsbD 8 = false) :
    diegroupAssignRun r k gs s = MbxRes.ok (s.setTenant k (t.assigned gs (decide (r.p 20 1 = 0)) (r.p 24 4))) (s.handleOf 1 k)
      (fld 20 4 (maskOf gs) + fld 24 4 (s.boltsHeld k)) := by
  have hns : ∀ x : Tenant, x.fn = some f → (s.setTenant k x).nsChange k 1 = s.setTenant k { x with nsChanged := addOnce x.nsChanged 1 } :=
    fun x hx => (State.nsChange_silent (s := s.setTenant k x) (by rw [State.tenant_setTenant, if_pos rfl]) hx haec).trans
      (State.setTenant_setTenant _ _ _ _)
  have hrec : (if r.p 24 4 = t.quota
        then s.setTenant k { t with groups := gs, exclusive := decide (r.p 20 1 = 0), quota := r.p 24 4 }
        else (s.setTenant k { t with groups := gs, exclusive := decide (r.p 20 1 = 0), quota := r.p 24 4 }).nsChange k 1) =
      s.setTenant k (t.assigned gs (decide (r.p 20 1 = 0)) (r.p 24 4)) := by
    unfold Tenant.assigned
    split
    · rfl
    · exact hns _ hfn
  have hend : (s.setTenant k (t.assigned gs (decide (r.p 20 1 = 0)) (r.p 24 4))).Rests := State.rests_zones hrest ht rfl
  unfold diegroupAssignRun
  dsimp only
  rw [tenantD_of ht, hrec, State.pump_rests hend, State.tidy_rests hend]
  rfl

/-- The handler of DIEGROUP_ASSIGN where the write path rests. -/
theorem diegroupAssignCmd_assigns {f : FnId} {gs : List Nat} {ex : Bool} (c : MbxCmd) (hi : s.Takes r) (hn : s.Names 1 r k k t)
    (hf : t.frozen = false) (hs : s.MayStore r) (hrest : s.Rests) (hfn : t.fn = some f) (haec : (s.fn f).aec.getLsbD 8 = false)
    (hgs : gs = bitsOf (r.p 16 4) 32) (hpres : ∀ g ∈ gs, g ∈ s.presentGroups) (hmask : r.p 16 4 ≠ 0) (hmode : r.p 20 1 ≤ 1)
    (hex : ex = decide (r.p 20 1 = 0)) (hsame : ex = t.exclusive ∨ s.boltsOf k = [])
    (hkeep : ∀ g ∈ t.groups, g ∈ gs ∨ s.holdsIn k g = false) (hplace : ∀ p ∈ t.placements, p.index = 0 ∨ ∀ g ∈ p.mask, g ∈ gs)
    (hclash : s.setClash k gs ex = false) (hquota : t.quota ≤ r.p 24 4)
    (hfits : s.fits k { t with groups := gs, exclusive := ex, quota := r.p 24 4 } = true) (hz : r.Zero [(21, 3), (28, 36)]) :
    diegroupAssignCmd c r (s.begun op r) = MbxRes.ok ((s.begun op r).setTenant k (t.assigned gs ex (r.p 24 4))) (s.handleOf 1 k)
      (fld 20 4 (maskOf gs) + fld 24 4 (s.boltsHeld k)) := by
  unfold diegroupAssignCmd
  dsimp only
  rw [← hgs, ← hex]
  refine (hi.guardH hn (.inr hf) ?_ ?_).trans ?_
  · simp only [List.forall_mem_cons]
    refine ⟨badIf_none (Bool.or_eq_false_iff.mpr ⟨?_, by rw [decide_eq_false hmask]; rfl⟩), outOf_none (Nat.zero_le _) hmode,
      rsv_none hz (by simp), rsv_none hz (by simp), offences_nil⟩
    refine List.any_eq_false.mpr fun g hg hc => ?_
    have : (s.begun op r).presentGroups.contains g = true := List.contains_iff_mem.mpr (hpres g hg)
    rw [this] at hc
    cases hc
  · refine conditions_cons ?_ (conditions_cons ?_ (conditions_cons ?_ (conditions_cons hclash (conditions_cons ?_ (conditions_cons ?_
      (hi.writes hs.1))))))
    · rcases hsame with h | h
      · rw [decide_eq_false (not_not.mpr h)]; rfl
      · rw [show (s.begun op r).boltsOf k = [] from h]; simp
    · refine List.any_eq_false.mpr fun g hg hc => ?_
      obtain ⟨h1, h2⟩ := Bool.and_eq_true_iff.mp hc
      rcases hkeep g hg with h | h
      · rw [List.contains_iff_mem.mpr h] at h1; cases h1
      · rw [show (s.begun op r).holdsIn k g = false from h] at h2; cases h2
    · refine List.any_eq_false.mpr fun p hp hc => ?_
      obtain ⟨h1, h2⟩ := Bool.and_eq_true_iff.mp hc
      rcases hplace p hp with h | h
      · exact of_decide_eq_true h1 h
      · obtain ⟨g, hg, hg'⟩ := List.any_eq_true.mp h2
        rw [List.contains_iff_mem.mpr (h g hg)] at hg'
        cases hg'
    · rw [decide_eq_false (Nat.not_lt.mpr hquota)]; rfl
    · rw [show (s.begun op r).fits k _ = true from hfits]; rfl
  · refine hs.hem.trans ((diegroupAssignRun_rests (s := s.begun op r) r gs hrest hn.2 hfn haec).trans ?_)
    rw [← hex]
    rfl

/-- The queue pairs that QPAIR_GRANT adds for slots, the first with index `base + 1`. -/
def grantedPairs (qs : List Nat) (base : Nat) (now : Bool) : List Qpair := qs.zipIdx.map (fun p => ⟨p.1, base + 1 + p.2, now, false⟩)

theorem grantedPairs_slots (qs : List Nat) (base : Nat) (now : Bool) : (grantedPairs qs base now).map (·.slot) = qs := by
  unfold grantedPairs
  rw [List.map_map]
  exact List.zipIdx_map_fst 0 qs

theorem grantedPairs_flatMap {β : Type} (qs : List Nat) (base : Nat) (now : Bool) (g : Nat → List β) :
    (grantedPairs qs base now).flatMap (fun q => g q.slot) = qs.flatMap g := by
  conv => rhs; rw [← grantedPairs_slots qs base now, List.flatMap_map]

/-- QPAIR_GRANT past its checks. -/
theorem qpairGrantRun_grants (r : MbxReq) {qs : List Nat} (hne : qs ≠ [])
    (hqs : qs = freeSlots (s.host.tenants.flatMap (fun p => p.2.qpairs.map (·.slot))) (r.p 28 2)) :
    qpairGrantRun r k t s = MbxRes.ok
      (r.output (s.setTenant k { t with qpairs := t.qpairs ++ grantedPairs qs t.qpairs.length (!s.tenantEn t) }) 16 24
        (qs.flatMap (fun q => bytesLE 4 (s.handleOf 2 q))))
      (s.handleOf 2 (qs.headD 0))
      (fld 20 2 (t.qpairs.length + 1) + fld 22 2 (r.p 28 2) + fld 24 2 (t.qpairs.length + r.p 28 2)) := by
  have hbytes := grantedPairs_flatMap qs t.qpairs.length (!s.tenantEn t) (fun q => bytesLE 4 (s.handleOf 2 q))
  obtain ⟨q, rest, hcons⟩ := List.exists_cons_of_ne_nil hne
  have hpairs : (freeSlots (s.host.tenants.flatMap (fun p => p.2.qpairs.map (·.slot))) (r.p 28 2)).zipIdx.map
      (fun p => (⟨p.1, t.qpairs.length + 1 + p.2, !s.tenantEn t, false⟩ : Qpair)) = grantedPairs qs t.qpairs.length (!s.tenantEn t) := by
    rw [← hqs]
    rfl
  have hhead : grantedPairs qs t.qpairs.length (!s.tenantEn t) =
      ⟨q, t.qpairs.length + 1, !s.tenantEn t, false⟩ :: (rest.zipIdx 1).map
        (fun p => ⟨p.1, t.qpairs.length + 1 + p.2, !s.tenantEn t, false⟩) := by
    rw [hcons]
    rfl
  have hfirst : qs.headD 0 = q := by rw [hcons]; rfl
  unfold qpairGrantRun
  dsimp only
  rw [hpairs, hfirst, ← hbytes, hhead]
  dsimp only
  rw [State.handleOf_output]
  rfl

/-- CONV_REGION_SET takes effect at once where no write is under way beyond the region. -/
theorem State.convGo_idle (c : MbxCmd) (ht : s.tenant k = some t) (hb : s.convBusy k (c.req.p 16 4) = false) {u : State}
    (hu : u = (s.setTenant k { t with convCmd := none }).setConv k (c.req.p 16 4)) :
    (s.setTenant k { t with convCmd := some c }).convGo k = u.mbxFinish c stOk 0xFFFF (u.handleOf 1 k)
      (fld 20 4 (c.req.p 16 4) + fld 24 8 (c.req.p 16 4 * u.dp.zoneCap)) := by
  have hset : (s.setTenant k { t with convCmd := some c }).tenant k = some { t with convCmd := some c } := by
    rw [State.tenant_setTenant, if_pos rfl]
  have hbusy : (s.setTenant k { t with convCmd := some c }).convBusy k (c.req.p 16 4) = false :=
    (State.convBusy_setTenant (x := { t with convCmd := some c }) _ ht rfl).trans hb
  have hclear : (s.setTenant k { t with convCmd := some c }).updTenant k (fun t => { t with convCmd := none }) =
      s.setTenant k { t with convCmd := none } := State.updTenant_setTenant _ _ _ _
  unfold State.convGo
  rw [tenantD_of hset]
  dsimp only
  rw [hbusy, if_neg Bool.false_ne_true, hclear, ← hu]

/-- The handler of CONV_REGION_SET leaves the command to the region's wait. -/
theorem convRegionSetCmd_waits (c : MbxCmd) (hi : s.Takes r) (hn : s.Names 1 r k k t) (hf : t.frozen = false) (hs : s.MayStore r)
    (hgrp : r.p 16 4 = 0 ∨ t.groups ≠ [])
    (hroom : r.p 16 4 ≤ t.conv ∨ s.sumOthers k (·.conv) + r.p 16 4 ≤ s.convLimit ∧ s.fits k { t with conv := r.p 16 4 } = true)
    (hz : r.Zero [(20, 44)]) : convRegionSetCmd c r (s.begun op r) =
      MbxRes.goesOn (((s.begun op r).setTenant k { t with convCmd := some c }).convGo k) := by
  unfold convRegionSetCmd
  dsimp only
  refine (hi.guardH hn (.inr hf) (reserved_zero hz) (conditions_cons ?_ (conditions_cons ?_ (hi.writes hs.1)))).trans hs.hem
  · rcases hgrp with h | h
    · rw [decide_eq_false (not_not.mpr h)]; rfl
    · rw [List.isEmpty_eq_false_iff.mpr h, Bool.and_false]
  · rcases hroom with h | ⟨hsum, hfits⟩
    · rw [decide_eq_false (Nat.not_lt.mpr h)]; rfl
    · have h1 : ¬ (s.begun op r).convLimit < (s.begun op r).sumOthers k (·.conv) + r.p 16 4 := Nat.not_lt.mpr hsum
      have h2 : (s.begun op r).fits k { t with conv := r.p 16 4 } = true := hfits
      rw [decide_eq_false h1, h2, Bool.not_true, Bool.or_false, Bool.and_false]

end

end Sys2Proof.Machine
end

section
/-! The statement about a tenant's contract, life and sets. -/

namespace Sys2Proof

open Machine

/-- Settles O21: each command passes its checks, and its handler leaves the state named. -/
theorem tenantLifeCommands : Obligations.TenantLifeCommands := by
  unfold Obligations.TenantLifeCommands
  refine ⟨?_, ?_, ?_, ?_, ?_, ?_, ?_, ?_, ?_⟩
  · -- TENANT_SET_QOS
    intro s r k t hi hn hf hs hrest hiops hbw hb1 hb2 hw hz1 hz2 hsw hpool hact hz
    have hcalm := State.calm_tenant hi.2.1 hn.2
    refine State.does_target_settled (off := 0xFFFF) hi (.inl rfl) rfl ⟨rfl, rfl, rfl⟩ (State.calm_setTenant hi.2.1 hcalm.1 hcalm.2) ?_
    rw [tenantSetQosCmd_rests _ hi hn hf hs hrest hiops hbw hb1 hb2 hw hz1 hz2 hsw hpool hact hz, State.setTenant_begun]
    rfl
  · -- TENANT_RELEASE without a reset
    intro s r k t f hi hn hf hs hq hfn h0 hz
    have hcalm := State.calm_tenant hi.2.1 hn.2
    obtain ⟨x, hx⟩ : ∃ x, x = ({ t with quarantined := false, violations := 0 } : Tenant) := ⟨_, rfl⟩
    have hxc : x.formatting ≠ 1 ∧ x.convCmd = none := by rw [hx]; exact hcalm
    rw [← hx]
    have ha := State.apart_unhold ((s.begun 0x0108#16 r).setTenant k x) k f
    have hm : (((s.begun 0x0108#16 r).setTenant k x).unhold k f).mbx = s.begunMbx 0x0108#16 r := State.mbx_of_apart ha
    have hsup : (((s.begun 0x0108#16 r).setTenant k x).unhold k f).supply = s.supply :=
      (State.supply_of_apart ha).trans rfl
    have hd : (((s.begun 0x0108#16 r).setTenant k x).unhold k f).dbg.armed = s.dbg.armed :=
      (State.armed_of_apart ha).trans rfl
    have hu : ((s.begun 0x0108#16 r).setTenant k x).mapart = (s.setTenant k x).mapart :=
      State.mapart_of_mkept (State.mkept_begunIn (s := s) (v := s.setTenant k x) 0x0108#16 r rfl)
    have hrel : (s.begun 0x0108#16 r).release k t (r.bit 16 0) = ((s.begun 0x0108#16 r).setTenant k x).unhold k f := by
      rw [State.release_some _ hfn, show r.bit 16 0 = false by simp [MbxReq.bit, h0], hx]
      exact congrArg (fun u : State => u.unhold k f) (State.updTenant_of (s := s.begun 0x0108#16 r) hn.2 _)
    exact State.does_apart_settled (handle := 0) (off := 0xFFFF) hi rfl
      ((tenantReleaseCmd_releases _ hi hn hf hs hq (by omega) hz).trans (congrArg (fun u => MbxRes.ok u) hrel))
      hm hsup hd ((State.mapart_of_apart ha).trans hu) (State.calm_setTenant hi.2.1 hxc.1 hxc.2)
  · -- TENANT_RELEASE with a reset
    intro s r k t f hi hn hf hs hq hfn h1 hz
    refine State.ends (handle := 0) hi rfl ?_
    rw [tenantReleaseCmd_releases _ hi hn hf hs hq h1.le hz, State.release_some _ hfn,
      show r.bit 16 0 = true by simp [MbxReq.bit, h1], if_pos rfl]
    rfl
  · -- TENANT_RESET of an enabled function
    intro s r k t f hi hn hf hfn hen hz
    refine State.ends (handle := 0) hi rfl ?_
    refine (hi.guardH hn (.inr hf) (reserved_zero hz) hi.acts).trans ?_
    rw [State.resetTenant_enabled (s := s.begun _ r) hfn hen]
    rfl
  · -- TENANT_RESET of one that is not
    intro s r k t f hi hn hf hfn hen hz
    refine State.does_target_settled (off := 0xFFFF) hi (.inl rfl) rfl ⟨rfl, rfl, rfl⟩ hi.2.1 ?_
    refine (hi.guardH hn (.inr hf) (reserved_zero hz) hi.acts).trans ?_
    rw [State.resetTenant_disabled (s := s.begun _ r) hfn hen]
    rfl
  · -- TENANT_DESTROY
    intro s r k t hi hn hs hk hz
    refine State.ends (handle := 0) hi rfl ?_
    exact (hi.guardH hn (.inl rfl) (reserved_zero hz) (conditions_cons (decide_eq_false (by omega)) (hi.writes hs.1))).trans
      (hs.hem.trans rfl)
  · -- QPAIR_GRANT
    intro s r k t qs hi hn hf hs hbme hbuf hn1 hn2 hrev hquota hpool hqs hne hz
    have hlt : r.p 28 2 < 2 ^ 20 := by omega
    have hne0 : s.handleOf 2 (qs.headD 0) ≠ 0 := State.handleOf_ne s (by decide)
    have hd := State.does_telling (off := 0xFFFF) (handle := s.handleOf 2 (qs.headD 0)) (i := .qpairGrant r) (op := 0x0201#16)
      (v := s.setTenant k { t with qpairs := t.qpairs ++ grantedPairs qs t.qpairs.length (!s.tenantEn t) })
      (result := fld 20 2 (t.qpairs.length + 1) + fld 22 2 (r.p 28 2) + fld 24 2 (t.qpairs.length + r.p 28 2))
      (ao := 16) (lo := 24) (bytes := qs.flatMap (fun q => bytesLE 4 (s.handleOf 2 q)))
      (handler := qpairGrantCmd) hi rfl ⟨rfl, rfl, rfl⟩ ?_
    · rwa [if_neg hne0] at hd
    · unfold qpairGrantCmd
      refine (hi.guardH hn (.inr hf) (offences_append (bufOffences_none hbuf) ?_) ?_).trans ?_
      · simp only [List.forall_mem_cons]
        exact ⟨outOf_none hn1 hn2, rsv_none hz (by simp), offences_nil⟩
      · refine conditions_cons ?_ (conditions_cons (decide_eq_false (by omega)) (conditions_cons (decide_eq_false (by
          exact Nat.not_lt.mpr hpool)) (conditions_append (buffers_calm ?_) (hi.writes hs.1))))
        · exact List.any_eq_false.mpr fun q hq hc => by rw [hrev q hq] at hc; cases hc
        · exact (State.begun_bme s _ r).trans hbme
      · exact (buffer_pass hbuf).trans (hs.hem.trans ((qpairGrantRun_grants (s := s.begun 0x0201#16 r) r hne hqs).trans rfl))
  · -- DIEGROUP_ASSIGN
    intro s r k t f gs ex hi hn hf hs hrest hfn haec hgs hpres hmask hmode hex hsame hkeep hplace hclash hquota hfits hz
    have hcalm := State.calm_tenant hi.2.1 hn.2
    have hne : s.handleOf 1 k ≠ 0 := State.handleOf_ne s (by decide)
    have hv : (s.setTenant k (t.assigned gs ex (r.p 24 4))).Calm := State.calm_setTenant hi.2.1 hcalm.1 hcalm.2
    have hd := State.does_settled (off := 0xFFFF) (handle := s.handleOf 1 k) (i := .diegroupAssign r) (op := 0x0302#16)
      (v := s.setTenant k (t.assigned gs ex (r.p 24 4))) (result := fld 20 4 (maskOf gs) + fld 24 4 (s.boltsHeld k))
      (handler := diegroupAssignCmd) hi rfl ⟨rfl, rfl, rfl⟩ hv ?_
    · rwa [if_neg hne] at hd
    · rw [diegroupAssignCmd_assigns _ hi hn hf hs hrest hfn haec hgs hpres hmask hmode hex hsame hkeep hplace hclash hquota hfits hz,
        State.setTenant_begun]
      rfl
  · -- CONV_REGION_SET
    intro s r k t hi hn hf hs hgrp hroom hbusy hz u hu
    have hgo := State.convGo_idle (s := s.begun 0x0307#16 r) (s.queuedCmd 0x0307#16 r) hn.2 hbusy hu
    have hx := State.waits hi (i := .convRegionSet r) rfl (convRegionSetCmd_waits (s.queuedCmd 0x0307#16 r) hi hn hf hs hgrp hroom hz)
    rw [hgo] at hx
    exact hx

end Sys2Proof
end

section
/-! SUPPORT. Commands that answer through the manager's buffer (R44, R61). -/

namespace Sys2Proof.Machine

theorem fld_zero (off len : Nat) : fld off len 0 = 0 := by simp [fld]

section
variable {s : State} {r : MbxReq} {i : Instr} {op : BitVec 16} {handler : MbxCmd → MbxReq → State → MbxRes}

theorem State.Takes.buffers (_ : s.Takes r) (hb : s.bme = true) : ∀ p ∈ (s.begun op r).buffers, p.1 = false :=
  buffers_calm ((State.begun_bme s op r).trans hb)

/-- A command without a TARGET that fills a buffer passes its checks. -/
theorem State.Takes.query0 (hi : s.Takes r) (hb : s.bme = true) (ht : r.target = 0#32) {least : Nat} (hbuf : r.Buffer 16 24 least)
    (hz : r.Zero [(28, 36)]) {act : Unit → MbxRes} :
    r.guard0 (s.begun op r) (r.bufOffences 16 24 least ++ [r.rsv 28 36]) (s.begun op r).buffers
      (fun _ => r.buffer (s.begun op r) 16 act) = act () :=
  (hi.guard0 ht (offences_append (bufOffences_none hbuf) (reserved_zero hz)) (hi.buffers hb)).trans (buffer_pass hbuf)

/-- `tells`, for a command without a TARGET, whose RESULT_HANDLE is 0. -/
theorem State.tells_none {off result ao lo : Nat} {bytes : List Byte} (hi : s.Takes r) (ht : r.target = 0#32)
    (hx : exec i s = .next (s.mbxSubmit op handler r))
    (hh : handler (s.queuedCmd op r) r (s.begun op r) = ⟨r.output (s.begun op r) ao lo bytes, some stOk, off, 0, result⟩) :
    s.Tells i op r 0 result ao lo bytes := by
  have h := State.tells hi hx hh
  rwa [if_pos rfl, ht] at h

/-- `tells`, for a RESULT_HANDLE that is the TARGET. -/
theorem State.tells_target {off result ao lo : Nat} {bytes : List Byte} (hi : s.Takes r)
    (hx : exec i s = .next (s.mbxSubmit op handler r))
    (hh : handler (s.queuedCmd op r) r (s.begun op r) = ⟨r.output (s.begun op r) ao lo bytes, some stOk, off, 0, result⟩) :
    s.Tells i op r r.target.toNat result ao lo bytes := by
  have h := State.tells hi hx hh
  rwa [if_pos rfl] at h

end

end Sys2Proof.Machine
end

section
/-! The statement about the commands that answer through a buffer. -/

namespace Sys2Proof

open Machine

/-- Settles O22: each command passes its checks and writes its area, which the start of a command does not change. -/
theorem queryCommandsAnswer : Obligations.QueryCommandsAnswer := by
  unfold Obligations.QueryCommandsAnswer
  refine ⟨?_, ?_, ?_, ?_, ?_, ?_, ?_, ?_, ?_, ?_, ?_⟩
  · -- TENANT_QUERY
    intro s r k t hi hb hn hbuf hz
    refine State.tells_target (off := 0xFFFF) hi rfl ?_
    exact (hi.guardH hn (.inl rfl) (offences_append (bufOffences_none hbuf) (reserved_zero hz)) (hi.buffers hb)).trans
      ((buffer_pass hbuf).trans rfl)
  · -- TENANT_LIST
    intro s r hi hb ht hbuf hz
    exact State.tells_none (off := 0xFFFF) hi ht rfl ((hi.query0 hb ht hbuf hz).trans rfl)
  · -- GEOMETRY_QUERY
    intro s r hi hb ht hbuf hz
    exact State.tells_none (off := 0xFFFF) hi ht rfl ((hi.query0 hb ht hbuf hz).trans rfl)
  · -- DIEGROUP_QUERY
    intro s r hi hb ht hbuf hz
    exact State.tells_none (off := 0xFFFF) hi ht rfl ((hi.query0 hb ht hbuf hz).trans rfl)
  · -- WRAP_KEY_INFO
    intro s r hi hb hc ht h0 hbuf hz
    refine State.tells_none (off := 0xFFFF) hi ht rfl ?_
    unfold wrapKeyInfoCmd
    rw [State.keyCmd_cipher _ (show (s.begun _ r).cipher = true from hc)]
    dsimp only
    rw [h0]
    refine (hi.guard0 ht ?_ ?_).trans ((buffer_pass hbuf).trans rfl)
    · refine offences_append (offences_append ?_ (bufOffences_none hbuf)) ?_
      · exact offences_cons rfl (offences_cons (rsv_none hz (by simp)) offences_nil)
      · exact offences_cons (rsv_none hz (by simp)) offences_nil
    · exact conditions_cons rfl (conditions_append
        (conditions_cons (by rw [show (s.begun _ r).san.s.running = false from hi.notSanitising]; rfl) conditions_nil) (hi.buffers hb))
  · -- SNAPSHOT_READ
    intro s r slot k t hi hb hn hbuf hz
    have hslot : slot = handleSlot r.target.toNat := (checkHandle_kind hn.1).2
    have hc : (s.begun 0x0502#16 r).checkHandle 6 r.target.toNat = .valid slot k := hn.1
    refine State.tells_target (off := 0xFFFF) hi rfl ?_
    unfold snapshotReadCmd
    rw [hc, ← hslot]
    refine (hi.guardH hn (.inl rfl) (offences_append (bufOffences_none ⟨hbuf.1, hbuf.2.1, hbuf.2.2.1, Nat.zero_le _, hbuf.2.2.2.2⟩) ?_)
      (hi.buffers hb)).trans ((buffer_pass hbuf).trans rfl)
    exact offences_cons (badIf_not (Nat.not_lt.mpr hbuf.2.2.2.1)) (reserved_zero hz)
  · -- DOMAIN_QUERY
    intro s r hi hb ht hbuf hz
    exact State.tells_none (off := 0xFFFF) hi ht rfl ((hi.query0 hb ht hbuf hz).trans rfl)
  · -- HOLDUP_QUERY
    intro s r hi hb ht hbuf hz
    exact State.tells_none (off := 0xFFFF) hi ht rfl ((hi.query0 hb ht hbuf hz).trans rfl)
  · -- BOOT_QUERY
    intro s r hi hb ht hbuf hz
    exact State.tells_none (off := 0xFFFF) hi ht rfl ((hi.query0 hb ht hbuf hz).trans rfl)
  · -- SELVEDGE_READ
    intro s r hi hb ht h16 h18 h20 hbuf h32 hz hlen
    refine State.tells_none (off := 0xFFFF) hi ht rfl ?_
    have hall : (s.begun 0x0A04#16 r).selv.ring.take (r.p 32 4 / 32) = s.selv.ring := List.take_of_length_le hlen
    have hnone : ((s.begun 0x0A04#16 r).selv.ring.drop s.selv.ring.length).head? = none := by
      show (s.selv.ring.drop s.selv.ring.length).head? = none
      rw [List.drop_length]
      rfl
    unfold selvedgeReadCmd
    rw [h16]
    refine (hi.guard0 ht (offences_append (offences_append ?_ (bufOffences_none hbuf)) ?_) (hi.buffers hb)).trans
      ((buffer_pass hbuf).trans ?_)
    · exact offences_cons (outOf_none (Nat.zero_le _) (by omega)) (offences_cons (rsv_none hz (by simp))
        (offences_cons (badIf_none (by simp [h18])) offences_nil))
    · exact offences_cons (badIf_none (by simp [h32])) (offences_cons (rsv_none hz (by simp)) offences_nil)
    · rw [h20]
      simp only [zero_ne_one, decide_false, Bool.false_eq_true, if_false, if_true, hall, hnone, fld_zero, Nat.add_zero]
      rfl
  · -- YARDAGE_READ
    intro s r k t hi hb hn hbuf hle hz hclosed
    have howner : (s.begun 0x0705#16 r).handleOwner r.target.toNat = some k := handleOwner_valid (s := s.begun 0x0705#16 r) hn.1
    have htenant : (s.begun 0x0705#16 r).tenantD k = t := tenantD_of (s := s.begun 0x0705#16 r) hn.2
    refine State.tells_target (off := 0xFFFF) hi rfl ?_
    unfold yardageReadCmd
    rw [howner]
    dsimp only
    rw [htenant]
    refine (hi.guardH hn (.inl rfl) (offences_append (bufOffences_none hbuf) ?_) (hi.buffers hb)).trans ((buffer_pass hbuf).trans ?_)
    · exact offences_cons (badIf_not (Nat.not_lt.mpr hle)) (reserved_zero hz)
    · simp only [hclosed, List.filter_nil, List.reverse_nil, List.take_nil, List.flatMap_nil, List.append_nil, List.drop_nil,
        List.length_nil, List.head?_nil, Option.map_none, Option.getD_none, fld_zero, Nat.add_zero]
      rfl

end Sys2Proof
end

section
/-! SUPPORT. Commands without a TARGET, and the queue pair that QUEUE_QUERY names. -/

namespace Sys2Proof.Machine

/-- `does`, for a command without a TARGET, whose RESULT_HANDLE is 0. -/
theorem State.does_none {s v : State} {i : Instr} {r : MbxReq} {op : BitVec 16} {handler : MbxCmd → MbxReq → State → MbxRes}
    {off result : Nat} (hi : s.Takes r) (ht : r.target = 0#32) (hx : exec i s = .next (s.mbxSubmit op handler r))
    (hv : v.mbx = s.mbx ∧ v.supply = s.supply ∧ v.dbg = s.dbg)
    (hh : handler (s.queuedCmd op r) r (s.begun op r) =
      ⟨{ v with mbx := s.begunMbx op r, pow.idleUs := s.now }, some stOk, off, 0, result⟩)
    (hp : v.pow.policyDue = s.pow.policyDue := by rfl) : s.Does i op r 0 result v := by
  have h := State.does hi hx hv hh hp
  rwa [if_pos rfl, ht] at h

/-- A TARGET that names an object is not 0. -/
theorem State.Names.target_ne {s : State} {kind slot k : Nat} {r : MbxReq} {t : Tenant} (hn : s.Names kind r slot k t)
    (hk : kind ≠ 0) : r.target ≠ 0#32 := by
  intro h
  have := (checkHandle_kind hn.1).1
  rw [h] at this
  exact hk this.symm

/-- QUEUE_QUERY of a queue pair with both queues, whose tenant is not frozen. -/
theorem queueQueryRun_queues {s : State} {slot k : Nat} {t : Tenant} {f : FnId} {q : Sq} {c : Cq} (r : MbxReq)
    (hf : t.frozen = false) (hfn : t.fn = some f) (hq : (s.fn f).sq (t.qpairIn slot).qid = some q)
    (hc : (s.fn f).cq (t.qpairIn slot).qid = some c) (hrev : (t.qpairIn slot).revoked = false) :
    queueQueryRun r slot k t s = MbxRes.ok s r.target.toNat
      (fld 20 2 (t.qpairIn slot).qid + fld 22 1 (sqStateNo q.st) + fld 23 1 (flagByte [true, c.ien, !c.waiting.isEmpty]) +
        fld 24 2 q.tail + fld 26 2 (s.sqHead f (t.qpairIn slot).qid) + fld 28 2 c.head + fld 30 2 c.tail) := by
  have hfn' : s.queryFn k t = s.fn f := by simp [State.queryFn, hf, hfn]
  simp [queueQueryRun, hfn', hq, hc, hrev, hf, hfn]

end Sys2Proof.Machine
end

section
/-! The statement about the commands that answer in RESULT. -/

namespace Sys2Proof

open Machine

/-- Settles O23: each command passes its checks, and its handler changes nothing but the view that PB_QUERY names. -/
theorem statusCommandsAnswer : Obligations.StatusCommandsAnswer := by
  unfold Obligations.StatusCommandsAnswer
  refine ⟨?_, ?_, ?_, ?_, ?_, ?_, ?_⟩
  · -- QUEUE_QUERY
    intro s r slot k t f q c hi hn hz hf hfn hq hc hrev
    refine State.does_target (off := 0xFFFF) hi (.inr rfl) rfl ⟨rfl, rfl, rfl⟩ ?_
    exact (hi.guardH hn (.inl rfl) (reserved_zero hz) conditions_nil).trans
      ((queueQueryRun_queues (s := s.begun 0x0205#16 r) r hf hfn hq hc hrev).trans rfl)
  · -- PLACEMENT_QUERY
    intro s r slot k t p hi hn hz hf hp
    refine State.does_target (off := 0xFFFF) hi (.inr rfl) rfl ⟨rfl, rfl, rfl⟩ ?_
    refine (hi.guardH hn (.inr hf) (reserved_zero hz) conditions_nil).trans ?_
    dsimp only
    rw [hp]
    rfl
  · -- KEY_QUERY
    intro s r slot k t hi hc hn hz
    have hk : ((s.begun 0x0405#16 r).tenantD k) = t := tenantD_of (s := s.begun 0x0405#16 r) hn.2
    refine State.does_target (off := 0xFFFF) hi (.inr rfl) rfl ⟨rfl, rfl, rfl⟩ ?_
    unfold keyQueryCmd
    rw [State.keyCmd_cipher _ (show (s.begun _ r).cipher = true from hc)]
    refine (hi.guardH hn (.inl rfl) (reserved_zero hz) (conditions_cons ?_ conditions_nil)).trans ?_
    · rw [show (s.begun _ r).san.s.running = false from hi.notSanitising]
      rfl
    · dsimp only [State.keyCounts]
      rw [hk]
      rfl
  · -- PB_QUERY of a view of the device
    intro s r hi ht hv hz
    refine State.does_none (off := 0xFFFF) hi ht rfl ⟨rfl, rfl, rfl⟩ ?_
    unfold pbQueryCmd
    rw [if_pos ht]
    refine (guard_pass hi.2.2.1 hi.2.2.2.1 hi.2.2.2.2 ?_ conditions_nil).trans rfl
    exact offences_cons (outOf_none (Nat.zero_le _) hv) (reserved_zero hz)
  · -- PB_QUERY of a tenant's view
    intro s r k t hi hn hv hz
    refine State.does_target (off := 0xFFFF) hi (.inl rfl) rfl ⟨rfl, rfl, rfl⟩ ?_
    unfold pbQueryCmd
    rw [if_neg (hn.target_ne (by decide))]
    refine (hi.guardH hn (.inl rfl) ?_ conditions_nil).trans rfl
    exact offences_cons (outOf_none (Nat.zero_le _) hv.le) (reserved_zero hz)
  · -- SANITISE_STATUS
    intro s r hi ht hz
    refine State.does_none (off := 0xFFFF) hi ht rfl ⟨rfl, rfl, rfl⟩ ?_
    exact (hi.guard0 ht (reserved_zero hz) conditions_nil).trans rfl
  · -- FORMAT_STATUS
    intro s r k t hi hn hz
    refine State.does_target (off := 0xFFFF) hi (.inl rfl) rfl ⟨rfl, rfl, rfl⟩ ?_
    exact (hi.guardH hn (.inl rfl) (reserved_zero hz) conditions_nil).trans rfl

end Sys2Proof
end

section
/-! SUPPORT. Keys loaded and key slots emptied (R333, R342-R345). -/

namespace Sys2Proof.Machine

section
variable {s : State} {op : BitVec 16} {r : MbxReq} {slot k j : Nat} {t : Tenant} {key : BitVec 256}

theorem State.loadKey_of (ht : s.tenant k = some t) : s.loadKey k j key = s.setTenant k { t with
    keys := t.keys.set j ⟨.write, some key, some (key, s.hem.keyStoreKey), false, 0⟩
    c8 := bumpAt t.c8 2 1 } := by
  unfold State.loadKey State.c8
  rw [State.updTenant_of ht, State.updTenant_setTenant]

/-- The condition under which the key commands wait for a crypto erase does not hold while no sanitise runs. -/
theorem State.Takes.noErase (hi : s.Takes r) : ∀ p ∈ [((s.begun op r).san.s.running && decide ((s.begun op r).san.s.action = 4), stBusyRetry)],
    p.1 = false :=
  conditions_cons (by rw [show (s.begun op r).san.s.running = false from hi.notSanitising]; rfl) conditions_nil

/-- KEY_LOAD and KEY_REKEY_BEGIN load the key that a sound blob unwraps to. -/
theorem loadCmd_loads {conflict : Nat → Tenant → Bool} {done : Nat → Nat → State → MbxRes} (hi : s.Takes r) (hc : s.cipher = true)
    (hn : s.Names 4 r slot k t) (hf : t.frozen = false) (hs : s.MayStore r) (hb : s.bme = true)
    (hconf : conflict (slot % 2) t = false) (haddr : r.p 16 8 % 64 = 0) (hlen : r.p 24 4 = 160) (hok : r.env.bufOk = true)
    (hblob : s.blobBad (r.input 160) slot = false) (hkey : s.unwrapped r (r.input 160) = some key) (hz : r.Zero [(28, 36)]) :
    loadCmd r (s.begun op r) conflict done = done k (slot % 2) ((s.begun op r).setTenant k { t with
      keys := t.keys.set (slot % 2) ⟨.write, some key, some (key, s.hem.keyStoreKey), false, 0⟩
      c8 := bumpAt t.c8 2 1 }) := by
  have hslot : handleSlot r.target.toNat = slot := (checkHandle_kind hn.1).2.symm
  have howner : (s.begun op r).handleOwner r.target.toNat = some k := handleOwner_valid (s := s.begun op r) hn.1
  have ht : (s.begun op r).tenantD k = t := tenantD_of (s := s.begun op r) hn.2
  have hblob' : (s.begun op r).blobBad (r.input 160) slot = false := hblob
  have hkey' : (s.begun op r).unwrapped r (r.input 160) = some key := hkey
  unfold loadCmd
  rw [State.keyCmd_cipher _ (show (s.begun op r).cipher = true from hc)]
  dsimp only
  rw [howner, Option.getD_some, ht, hslot, hkey', hblob', ← keyOwner hn]
  refine (guard_pass hi.2.2.1 hi.2.2.2.1 hi.2.2.2.2 ?_ ?_).trans (hs.hem.trans ?_)
  · refine offences_cons (badIf_none (handleBad_valid (s := s.begun op r) hn.1)) (offences_cons (badIf_not (by omega))
      (offences_cons (badIf_not (by omega)) (offences_cons (rsv_none hz (by simp)) (offences_cons ?_ offences_nil))))
    simp [MbxReq.badInput, hok, badIf]
  · refine conditions_append (conditions_append (conditions_append ?_ hi.noErase) (hi.buffers hb)) (hi.writes hs.1)
    exact conditions_cons (handleStale_valid (s := s.begun op r) hn.1) (conditions_cons rfl (conditions_cons hf
      (conditions_cons hconf conditions_nil)))
  · rw [Option.getD_some, State.loadKey_of (s := s.begun op r) hn.2]
    rfl

/-- A key slot that is not EMPTY, emptied with the Hem store written. -/
theorem emptyKey_of {result : Nat} (hok : r.env.hemOk = true) (ht : s.tenant k = some t) (hst : (t.key j).st ≠ .empty) :
    emptyKey r k j result s = MbxRes.ok ((s.bumpGen 4 (2 * k + j)).setTenant k { t with
        keys := t.keys.set j { t.key j with st := .empty, ram := none, record := none, stale := false, conv := 0 }
        c8 := bumpAt t.c8 2 1 })
      ((s.bumpGen 4 (2 * k + j)).handleOf 4 (2 * k + j)) result := by
  unfold emptyKey
  dsimp only
  rw [if_pos hok, hok, State.destroyKey_of true ht hst]
  rfl

end

end Sys2Proof.Machine
end

section
/-! The statement about the commands on keys. -/

namespace Sys2Proof

open Machine

/-- Settles O24: two commands load a key with `loadCmd`, two empty a slot with `emptyKey`. -/
theorem keyCommandsAct : Obligations.KeyCommandsAct := by
  unfold Obligations.KeyCommandsAct
  refine ⟨?_, ?_, ?_, ?_⟩
  · -- KEY_LOAD
    intro s r slot k t key hi hc hn hf hs hb hst hw haddr hlen hok hblob hkey hz
    refine State.does_target (off := 0xFFFF) hi (.inr rfl) rfl ⟨rfl, rfl, rfl⟩ ?_
    refine (loadCmd_loads hi hc hn hf hs hb ?_ haddr hlen hok hblob hkey hz).trans rfl
    rw [hst, hw]
    rfl
  · -- KEY_REKEY_BEGIN
    intro s r slot k t key x hi hc hn hf hs hb hst hx hother haddr hlen hok hblob hkey hz
    refine State.does_target (off := 0xFFFF) hi (.inr rfl) rfl ⟨rfl, rfl, rfl⟩ ?_
    refine (loadCmd_loads hi hc hn hf hs hb ?_ haddr hlen hok hblob hkey hz).trans ?_
    · exact decide_eq_false (by simp [hst, hother])
    · dsimp only
      rw [State.updTenant_setTenant, hx]
      rfl
  · -- KEY_REKEY_END
    intro s r slot k t hi hc hn hf hs hst hfree hbit hz
    have hk := keyOwner hn
    have hslot : 2 * k + slot % 2 = slot := by omega
    have htarget : handleSlot r.target.toNat = slot := (checkHandle_kind hn.1).2.symm
    have hcounts : (s.begun 0x0403#16 r).keyCounts k (slot % 2) = (s.zonesOfKey k (slot % 2), min (t.key (slot % 2)).conv 0xFFFFFFFF) := by
      unfold State.keyCounts
      rw [tenantD_of (s := s.begun 0x0403#16 r) hn.2]
      rfl
    refine State.does_handle (off := 0xFFFF) hi (State.handleOf_ne _ (by decide)) rfl ⟨rfl, rfl, rfl⟩ ?_
    unfold keyRekeyEndCmd
    rw [State.keyCmd_cipher _ (show (s.begun _ r).cipher = true from hc)]
    dsimp only
    rw [htarget, ← hk, hcounts]
    dsimp only
    rw [hi.guardH hn (.inr hf) ?_ ?_, emptyKey_of (s := s.begun _ r) hs.2 hn.2 (by rw [hst]; decide), hslot]
    · exact if_pos (by simp [MbxRes.ok, State.handleOf_ne])
    · exact offences_cons (rsvBits_none (by omega)) (offences_cons (rsv_none hz (by simp)) offences_nil)
    · refine conditions_cons (by rw [hst]; rfl) (conditions_cons ?_ (conditions_append hi.noErase (hi.writes hs.1)))
      rcases hfree with h | ⟨h0, h1⟩
      · rw [h]; rfl
      · rw [h0, h1]; simp
  · -- KEY_DESTROY
    intro s r slot k t hi hc hn hf hs hst hz
    have hk := keyOwner hn
    have hslot : 2 * k + slot % 2 = slot := by omega
    refine State.does_handle (off := 0xFFFF) hi (State.handleOf_ne _ (by decide)) rfl ⟨rfl, rfl, rfl⟩ ?_
    unfold keyDestroyCmd
    rw [State.keyCmd_cipher _ (show (s.begun _ r).cipher = true from hc)]
    refine (hi.guardH hn (.inr hf) (reserved_zero hz) (conditions_append hi.noErase (hi.writes hs.1))).trans ?_
    dsimp only
    rw [if_neg hst, emptyKey_of (s := s.begun _ r) hs.2 hn.2 hst, hslot]
    rfl

end Sys2Proof
end

section
/-! The statement about freezing a tenant. -/

namespace Sys2Proof

open Machine

/-- Settles O25: TENANT_FREEZE passes its checks, and the events act where the tenant has drained or its time is up. -/
theorem freezeCommands : Obligations.FreezeCommands := by
  unfold Obligations.FreezeCommands
  refine ⟨?_, ?_, ?_⟩
  · -- TENANT_FREEZE
    intro s r k j t f hi hn hf hs hk hfn hj hact hms hz
    refine State.waits hi rfl ?_
    unfold tenantFreezeCmd
    refine (hi.guardH hn (.inr hf) ?_ ?_).trans ?_
    · refine offences_cons (badIf_not ?_) (reserved_zero hz)
      omega
    · refine conditions_cons (decide_eq_false (by omega)) (conditions_cons ?_ (conditions_append (conditions_cons ?_ conditions_nil)
        (hi.writes hs.1)))
      · rw [show (s.begun 0x0501#16 r).freeSlot 6 = some j from hj]; rfl
      · rw [show (s.begun 0x0501#16 r).hem.actStep = 0 from hact]; simp
    · refine hs.hem.trans ?_
      simp only [hfn]
      rfl
  · -- FREEZE_CAPTURE
    intro s u k j t x f hu hx hfn hfr hj hdr
    subst hu
    have hx' : (s.atTime t).tenantD k = x := tenantD_of (s := s.atTime t) hx
    have hj' : (s.atTime t).freeSlot 6 = some j := hj
    have hdr' : (s.atTime t).freezeDrained k f = true := hdr
    show execFreezeCapture k t s = _
    simp [execFreezeCapture, hx', hfn, hj', hfr, hdr', settled]
  · -- FREEZE_TIMEOUT
    intro s u k t x f c hu hx hfn hfr hdue hdr hc
    subst hu
    have hx' : (s.atTime t).tenantD k = x := tenantD_of (s := s.atTime t) hx
    have hdr' : (s.atTime t).freezeDrained k f = false := hdr
    have hnow : (s.atTime t).now = max s.now t := rfl
    show execFreezeTimeout k t s = _
    simp only [execFreezeTimeout, hx', hfn, hfr, hdr', hnow, hdue, hc, settled, decide_true, Bool.not_false, Bool.and_self, if_true]

end Sys2Proof
end

section
/-! SUPPORT. Restoring a tenant from either source (R289, R308). -/

namespace Sys2Proof.Machine

theorem State.dropSnap_of {s : State} {k : Nat} {x : Snap} (h : s.snapOf k = some x) : s.dropSnap k =
    ({ s with host.snaps := s.host.snaps.map (fun y => if y.tenant = k then { y with held := false } else y) } : State).bumpGen 6
      x.slot := by
  simp only [State.dropSnap, h]

section
variable {s : State} {r : MbxReq} {p : Port} {k vf : Nat} {t : Tenant} {x : Snap}

/-- TENANT_RESTORE passes the checks that both sources share, and restores the snapshot that they name. -/
theorem tenantRestoreCmd_restores (c : MbxCmd) (hi : s.Takes r) (ht : r.target = 0#32) (hs : s.MayStore r)
    (hport : r.p 17 1 ≤ 1) (hp : p = portOf (r.p 17 1)) (hv1 : 1 ≤ r.p 18 2) (hv2 : r.p 18 2 ≤ 1023 ∨ r.p 18 2 = 0xFFFF)
    (hk : s.tenant k = some t) (hfz : t.frozen = true) (hfr : t.freezing = false) (hvf : s.pickVf p (r.p 18 2) = some vf)
    (hbme : (s.fn ⟨p, vf⟩).bme = true) (hvec : t.vectors = 0 ∨ (s.fn ⟨p, vf⟩).msixEn = true)
    (hjoin : s.host.joined = true → r.p 17 1 ≠ 1) (hfree : ∀ q ∈ s.host.tenants, q.1 = k ∨ q.2.fn ≠ some ⟨p, vf⟩)
    (hx : s.host.snaps.find? (fun y => decide (y.tenant = k ∧ y.seq = t.freezeSeq)) = some x) (hz : r.Zero [(36, 28)])
    (hkind : r.p 16 1 ≤ 1) (hsrc : MbxReq.source r (s.begun 0x0504#16 r) = (k, (t.freezeSeq, 1)))
    (hoff : ∀ o ∈ r.sourceOffences (s.begun 0x0504#16 r), o = none)
    (hstale : (if decide (r.p 16 1 = 0) then (s.begun 0x0504#16 r).handleStale 6 (r.p 20 4)
      else (s.begun 0x0504#16 r).bme && (s.begun 0x0504#16 r).handleStale 1 (bufNum (r.input (r.p 32 4)) 12 4)) = false)
    (hauth : r.p 16 1 = 0 ∨ r.env.sigOk = true ∧
      bufNum (r.input (r.p 32 4)) 40 8 = Config.digest 100 s.hem.bootCount % 2 ^ 64)
    (hbuf : r.p 16 1 = 0 ∨ s.bme = true) :
    tenantRestoreCmd c r (s.begun 0x0504#16 r) = MbxRes.ok ((s.begun 0x0504#16 r).restore x ⟨p, vf⟩) (s.handleOf 1 k)
      (fld 20 1 (r.p 17 1) + fld 22 2 vf) := by
  have hvf' : (s.begun 0x0504#16 r).pickVf p (r.p 18 2) = some vf := hvf
  have hk' : (s.begun 0x0504#16 r).tenantD k = t := tenantD_of (s := s.begun 0x0504#16 r) hk
  have hx' : (s.begun 0x0504#16 r).host.snaps.find? (fun y => decide (y.tenant = k ∧ y.seq = t.freezeSeq)) = some x := hx
  unfold tenantRestoreCmd
  rw [hsrc]
  dsimp only
  rw [← hp, hvf', Option.getD_some, hk', hx', hstale]
  refine (hi.guard0 ht ?_ ?_).trans hs.hem
  · refine offences_append (offences_append ?_ hoff) (reserved_zero hz)
    exact offences_cons (outOf_none (Nat.zero_le _) hkind) (offences_cons (outOf_none (Nat.zero_le _) hport)
      (offences_cons (badIf_not (by omega)) offences_nil))
  · refine conditions_append (conditions_append ?_ ?_) (hi.writes hs.1)
    · refine conditions_cons rfl (conditions_cons ?_ (conditions_cons ?_ (conditions_cons ?_ (conditions_cons ?_ (conditions_cons rfl
        (conditions_cons ?_ (conditions_cons ?_ (conditions_cons rfl conditions_nil))))))))
      · rw [show ((s.begun 0x0504#16 r).fn ⟨p, vf⟩).bme = true from hbme]
        rcases hvec with h | h
        · simp [h]
        · rw [show ((s.begun 0x0504#16 r).fn ⟨p, vf⟩).msixEn = true from h]; simp
      · rcases hauth with h | ⟨h1, h2⟩
        · simp [h]
        · rw [h1, h2]
          show (_ && (false || ((s.begun 0x0504#16 r).bme &&
            decide (Config.digest 100 s.hem.bootCount % 2 ^ 64 ≠ Config.digest 100 s.hem.bootCount % 2 ^ 64)) || _)) = _
          simp
      · rw [hfz, hfr]; rfl
      · exact decide_eq_false (not_not.mpr rfl)
      · by_cases hj : s.host.joined = true
        · simp [hjoin hj]
        · rw [show (s.begun 0x0504#16 r).host.joined = false from Bool.eq_false_iff.mpr hj]; rfl
      · refine List.any_eq_false.mpr fun q hq hc => ?_
        obtain ⟨h1, h2⟩ := of_decide_eq_true hc
        exact (hfree q hq).elim h1 (fun h => h h2)
    · rcases hbuf with h | h
      · simp [h]
      · split
        · exact conditions_nil
        · exact hi.buffers h

end

end Sys2Proof.Machine
end

section
/-! The statement about snapshots, restoring and thawing. -/

namespace Sys2Proof

open Machine

/-- Settles O26: each command passes its checks; a restore's two sources name the same snapshot. -/
theorem snapshotCommands : Obligations.SnapshotCommands := by
  unfold Obligations.SnapshotCommands
  refine ⟨?_, ?_, ?_, ?_⟩
  · -- SNAPSHOT_DISCARD
    intro s r slot k t x hi hn hf hx hz
    refine State.does_target (off := 0xFFFF) hi (.inl rfl) rfl ⟨rfl, rfl, rfl⟩ ?_
    refine (hi.guardH hn (.inl rfl) (reserved_zero hz) hi.acts).trans ?_
    exact congrArg (fun u => MbxRes.ok u) (State.dropSnap_of (s := s.begun 0x0503#16 r) hx)
  · -- TENANT_RESTORE from a snapshot
    intro s r p slot k vf t x hi ht hok hew h16 hport hp hv1 hv2 hsnap h24 h32 htn hseq hk hfz hfr hvf hbme hvec hjoin hfree hx hz
    have hslot : handleSlot (r.p 20 4) = slot := (checkHandle_kind hsnap).2.symm
    have hsrc : MbxReq.source r (s.begun 0x0504#16 r) = (k, (t.freezeSeq, 1)) := by
      unfold MbxReq.source
      rw [if_pos h16, hslot]
      show ((s.snapIn slot).tenant, ((s.snapIn slot).seq, 1)) = _
      rw [htn, hseq]
    have hx := State.finishes (i := .tenantRestore r) hi rfl (tenantRestoreCmd_restores _ hi ht ⟨hew, hok⟩ hport hp hv1 hv2 hk hfz hfr hvf
      hbme hvec hjoin hfree hx hz (by omega) hsrc ?_ ?_ (.inl h16) (.inl h16))
    · rwa [if_neg (State.handleOf_ne s (by decide))] at hx
    · unfold MbxReq.sourceOffences
      rw [if_pos h16]
      exact offences_cons (badIf_none (handleBad_valid (s := s.begun 0x0504#16 r) hsnap)) (offences_cons (badIf_not (not_not.mpr h24))
        (offences_cons (badIf_not (not_not.mpr h32)) offences_nil))
    · rw [if_pos (decide_eq_true h16)]
      exact handleStale_valid (s := s.begun 0x0504#16 r) hsnap
  · -- TENANT_RESTORE from a blob
    intro s r p k vf t x b hi ht hok hb hew h16 hport hp hv1 hv2 h20 hbuf hbb hmag hver hlen hh hseq hboot hsig hk hfz hfr hvf hbme hvec
      hjoin hfree hx hz
    have hslot : handleSlot (bufNum b 12 4) = k := (checkHandle_kind hh).2.symm
    have h16' : r.p 16 1 ≠ 0 := by omega
    subst hbb
    have hsrc : MbxReq.source r (s.begun 0x0504#16 r) = (k, (t.freezeSeq, 1)) := by
      unfold MbxReq.source
      rw [if_neg h16']
      dsimp only
      rw [hslot, hseq, hver]
    have hx := State.finishes (i := .tenantRestore r) hi rfl (tenantRestoreCmd_restores _ hi ht ⟨hew, hok⟩ hport hp hv1 hv2 hk hfz hfr hvf
      hbme hvec hjoin hfree hx hz (by omega) hsrc ?_ ?_ (.inr ⟨hsig, hboot⟩) (.inr hb))
    · rwa [if_neg (State.handleOf_ne s (by decide))] at hx
    · unfold MbxReq.sourceOffences
      rw [if_neg h16']
      refine offences_append (offences_append (offences_cons (badIf_not (not_not.mpr h20)) offences_nil) (bufOffences_none hbuf)) ?_
      refine offences_cons (badIf_none ?_) (offences_cons (badIf_none ?_) offences_nil)
      · rw [hmag, handleBad_valid (s := s.begun 0x0504#16 r) hh, hbuf.2.2.2.2]
        simp
      · rw [hlen]
        simp
    · rw [if_neg (by simp [h16']), handleStale_valid (s := s.begun 0x0504#16 r) hh, Bool.and_false]
  · -- TENANT_THAW
    intro s r k t hi hn hf hs hz
    refine State.ends (handle := 0) hi rfl ?_
    refine (hi.guardH hn (.inl rfl) (reserved_zero hz) ?_).trans (hs.hem.trans rfl)
    exact conditions_cons (by rw [hf]; rfl) (conditions_append (conditions_cons (by rw [hf]; rfl) conditions_nil) (hi.writes hs.1))

end Sys2Proof
end

section
/-! SUPPORT. Commands that save what they set where a bit of PARAMS asks for it. -/

namespace Sys2Proof.Machine

section
variable {s : State} {r : MbxReq} {op : BitVec 16} {b : Bool}

/-- A command that writes the Hem store only where a bit asks for it. -/
theorem State.Takes.saves (hi : s.Takes r) (hs : b = true → s.MayStore r) :
    ∀ p ∈ (if b then (s.begun op r).writes else (s.begun op r).acts), p.1 = false := by
  cases b with
  | false => exact hi.acts
  | true => exact hi.writes (hs rfl).1

theorem hem_saves (hs : b = true → s.MayStore r) (x : MbxRes) : (if b then r.hem (s.begun op r) (fun _ => x) else x) = x := by
  cases b with
  | false => rfl
  | true => exact (if_pos rfl).trans (hs rfl).hem

theorem State.begun_storedPolicy (s : State) (op : BitVec 16) (r : MbxReq) : (s.begun op r).mbx.storedPolicy = s.mbx.storedPolicy := by
  unfold State.begun State.begunMbx State.begunWith State.setMbxPort
  cases r.port <;> rfl

/-- MANAGER_POLICY past its checks where the manager role stays. -/
theorem managerPolicyRun_stays (hm : (r.bit 18 0 && decide (portOf (r.p 16 1) ≠ s.mbx.manager)) = false) :
    managerPolicyRun r s = MbxRes.ok { s with
        mbx.preferred := portOf (r.p 16 1)
        mbx.failover := decide (r.p 17 1 = 1)
        mbx.storedPolicy := if r.bit 18 1 then some (portOf (r.p 16 1), decide (r.p 17 1 = 1)) else s.mbx.storedPolicy }
      0 (fld 20 1 (portNo s.mbx.manager) + fld 21 1 (r.bit 18 1).toNat) := by
  unfold managerPolicyRun
  simp only [hm]
  cases r.bit 18 1 <;> rfl

theorem thermalOffences_begun : thermalOffences r (s.begun op r) = thermalOffences r s := by
  unfold thermalOffences MbxReq.badInput
  rw [State.begun_bme]
  rfl

/-- THERMAL_CONFIG asks for the manager's buffer only where it changes the enabled inputs with a map of its own. -/
theorem State.Takes.mapBuffers (hi : s.Takes r) (hb : r.bit 16 2 = true → r.p 32 8 ≠ 0 → s.bme = true) :
    ∀ p ∈ (if r.bit 16 2 && decide (r.p 32 8 ≠ 0) then (s.begun op r).buffers else []), p.1 = false := by
  split
  · rename_i h
    obtain ⟨h1, h2⟩ := Bool.and_eq_true_iff.mp h
    exact hi.buffers (hb h1 (of_decide_eq_true h2))
  · exact conditions_nil

/-- THERMAL_CONFIG past its checks. -/
theorem thermalConfigCmd_runs (c : MbxCmd) (hi : s.Takes r) (ht : r.target = 0#32) (hs : r.bit 16 3 = true → s.MayStore r)
    (hoff : ∀ o ∈ thermalOffences r s, o = none) (hb : r.bit 16 2 = true → r.p 32 8 ≠ 0 → s.bme = true) :
    thermalConfigCmd c r (s.begun op r) = thermalRun r (s.begun op r) := by
  unfold thermalConfigCmd
  rw [thermalOffences_begun]
  exact (hi.guard0 ht hoff (conditions_append (hi.mapBuffers hb) (hi.saves hs))).trans (hem_saves hs _)

/-- VCORE_POLICY past its checks. -/
theorem vcorePolicyCmd_runs (c : MbxCmd) (hi : s.Takes r) (ht : r.target = 0#32) (hact : s.hem.actStep = 0)
    (hs : r.bit 21 0 = true → s.MayStore r) (hlev : ∀ o ∈ levelOffences r, o = none) (h21 : r.p 21 1 < 2) (hz : r.Zero [(22, 42)]) :
    vcorePolicyCmd c r (s.begun op r) = vcorePolicyRun r (s.begun op r) := by
  unfold vcorePolicyCmd
  refine (hi.guard0 ht (offences_append hlev ?_) (conditions_cons ?_ (hi.saves hs))).trans (hem_saves hs _)
  · exact offences_cons (rsvBits_none h21) (reserved_zero hz)
  · exact decide_eq_false (not_not.mpr hact)

/-- `finishes`, for a command without a TARGET, whose RESULT_HANDLE is 0. -/
theorem State.finishes_none {i : Instr} {handler : MbxCmd → MbxReq → State → MbxRes} {u : State} {result : Nat} (hi : s.Takes r)
    (ht : r.target = 0#32) (hx : exec i s = .next (s.mbxSubmit op handler r))
    (hh : handler (s.queuedCmd op r) r (s.begun op r) = MbxRes.ok u 0 result) : s.Finishes i op r 0 result u := by
  have h := State.finishes hi hx hh
  rwa [if_pos rfl, ht] at h

end

end Sys2Proof.Machine
end

section
/-! The statement about the commands that set policies. -/

namespace Sys2Proof

open Machine

/-- Settles O27: each command passes its checks, and its handler sets what it names. -/
theorem policyCommands : Obligations.PolicyCommands := by
  unfold Obligations.PolicyCommands
  refine ⟨?_, ?_, ?_, ?_, ?_, ?_, ?_, ?_⟩
  · -- POWER_POLICY
    intro s u r hi ht hs h16 h17 hflags h18a h18b hprof hz hu
    subst hu
    refine State.finishes_none hi ht rfl ?_
    unfold powerPolicyCmd
    refine (hi.guard0 ht (offences_append ?_ hprof) (hi.saves hs)).trans ((hem_saves hs _).trans ?_)
    · refine offences_cons (outOf_none (Nat.zero_le _) h16) (offences_cons (rsvBits_none h17) (offences_cons (badIf_none ?_)
        (offences_cons (outOf_none h18a h18b) (offences_cons (rsv_none hz (by simp)) (offences_cons (rsv_none hz (by simp))
          offences_nil)))))
      cases h : r.bit 17 1 with
      | false => rfl
      | true => rw [hflags h]; rfl
    · unfold powerPolicyRun
      cases r.bit 17 3 <;> rfl
  · -- VCORE_POLICY that leaves the level
    intro s v r hi ht hact hs hlev h21 hz hv hsame
    subst hv
    refine State.does_none (off := 0xFFFF) hi ht rfl ⟨rfl, rfl, rfl⟩ ?_
    rw [vcorePolicyCmd_runs _ hi ht hact hs hlev h21 hz]
    exact if_neg fun h => h.2.2.2 hsame
  · -- VCORE_POLICY that moves the level
    intro s u r hi ht hact hs hlev h21 hz hu hne hlast hstep
    subst hu
    refine State.stays hi rfl ?_
    rw [vcorePolicyCmd_runs _ hi ht hact hs hlev h21 hz]
    obtain ⟨-, -, -, -, -, -, -, -, -, -, -, hps, hnone, -⟩ := hi.1
    have hcall : (!(s.begun 0x0603#16 r).lastCall) = true := by
      rw [show (s.begun 0x0603#16 r).lastCall = false from hlast]
      rfl
    exact (if_pos ⟨hnone, hps, hcall, hne⟩).trans (if_neg hstep)
  · -- THERMAL_CONFIG that leaves the enabled inputs
    intro s v r hi ht hs hoff h16 hv
    subst hv
    refine State.does_none (off := 0xFFFF) hi ht rfl ⟨rfl, rfl, rfl⟩ ?_
    rw [thermalConfigCmd_runs _ hi ht hs hoff (fun h => absurd (h16.symm.trans h) Bool.false_ne_true)]
    unfold thermalRun
    rw [h16]
    cases r.bit 16 3 <;> rfl
  · -- THERMAL_CONFIG that changes the enabled inputs
    intro s u r hi ht hs hoff h16 hb hu
    subst hu
    refine State.finishes_none hi ht rfl ?_
    rw [thermalConfigCmd_runs _ hi ht hs hoff (fun _ => hb)]
    unfold thermalRun
    rw [h16]
    cases r.bit 16 3 <;> rfl
  · -- CAPACITANCE_TEST
    intro s r hi ht hew hwait hrun hz
    refine State.stays hi rfl ?_
    refine (hi.guard0 ht (reserved_zero hz) ?_).trans rfl
    refine conditions_cons hew (conditions_cons ?_ hi.acts)
    rw [show (s.begun 0x0606#16 r).supply.testWait = none from hwait, show (s.begun 0x0606#16 r).supply.testRun = none from hrun]
    rfl
  · -- EXPOSED_CAP_SET
    intro s u r hi ht hs hoff h20 hz hu
    subst hu
    refine State.finishes_none hi ht rfl ?_
    unfold exposedCapSetCmd
    refine (hi.guard0 ht (offences_append ?_ hoff) (hi.saves hs)).trans ((hem_saves hs _).trans rfl)
    exact offences_cons (rsvBits_none h20) (offences_cons (rsv_none hz (by simp)) (offences_cons (rsv_none hz (by simp)) offences_nil))
  · -- MANAGER_POLICY
    intro s r hi ht h16 h17 h18 hsel hjoin hmove hact hs hz
    have hmoves : (r.bit 18 0 && decide (portOf (r.p 16 1) ≠ (s.begun 0x0806#16 r).mbx.manager)) = false := by
      rw [State.begun_manager]
      cases h : r.bit 18 0 with
      | false => rfl
      | true => simp [hmove h]
    refine State.finishes_none hi ht rfl ?_
    unfold managerPolicyCmd
    dsimp only
    rw [hmoves]
    refine (hi.guard0 ht ?_ (conditions_append ?_ hi.acts)).trans ((hem_saves hs _).trans ?_)
    · exact offences_cons (outOf_none (Nat.zero_le _) h16) (offences_cons (outOf_none (Nat.zero_le _) h17)
        (offences_cons (rsvBits_none h18) (reserved_zero hz)))
    · refine conditions_cons (decide_eq_false (not_not.mpr hsel)) (conditions_cons ?_ (conditions_cons rfl (conditions_cons rfl
        (conditions_cons (decide_eq_false (not_not.mpr hact)) (conditions_cons ?_ conditions_nil)))))
      · cases h : (s.begun 0x0806#16 r).host.joined with
        | false => rfl
        | true => simp [hjoin h]
      · cases h : r.bit 18 1 with
        | false => rfl
        | true => exact (hs h).1
    · rw [managerPolicyRun_stays hmoves]
      dsimp only
      rw [State.begun_storedPolicy, State.begun_manager]

end Sys2Proof
end

section
/-! SUPPORT. The twins, and the firmware commands past their checks (R392, R393, R403-R406). -/

namespace Sys2Proof.Machine

section
variable (s : State) (n : Nat) (x y : Twin)

theorem State.twin_setTwin : (s.setTwin n x).twin n = x := by
  unfold State.setTwin State.twin
  split <;> rfl

theorem State.setTwin_setTwin : (s.setTwin n x).setTwin n y = s.setTwin n y := by
  unfold State.setTwin
  split <;> rfl

/-- What a twin's replacement leaves of the state that the checks and the completion of a command read. -/
theorem State.setTwin_leaves : (s.setTwin n x).mbx = s.mbx ∧ (s.setTwin n x).supply = s.supply ∧ (s.setTwin n x).dbg = s.dbg :=
  ⟨State.mbx_setTwin s n x, State.supply_setTwin s n x, State.dbg_setTwin s n x⟩

theorem State.session_setTwin : (s.setTwin n x).hem.session = s.hem.session := by
  unfold State.setTwin
  split <;> rfl

theorem State.otherTwin_setTwin : (s.setTwin n x).otherTwin = s.otherTwin := by
  unfold State.setTwin
  split <;> rfl

theorem State.recovery_setTwin : (s.setTwin n x).hem.recovery = s.hem.recovery := by
  unfold State.setTwin
  split <;> rfl

theorem State.selectSeq_setTwin : (s.setTwin n x).selectSeq = s.selectSeq := by
  unfold State.setTwin
  split <;> rfl

theorem State.setSession_setTwin (v : Option (Nat × List Nat)) :
    ({ s.setTwin n x with hem.session := v } : State) = ({ s with hem.session := v } : State).setTwin n x := by
  unfold State.setTwin
  split <;> rfl

/-- A twin replaced while a command executes. -/
theorem State.setTwin_begunWith (m : Mbx) (us : Nat) : ({ s with mbx := m, pow.idleUs := us } : State).setTwin n x =
    { s.setTwin n x with mbx := m, pow.idleUs := us } := by
  unfold State.setTwin
  split <;> rfl

variable {s}

theorem State.calm_setTwin (h : s.Calm) : (s.setTwin n x).Calm := by
  unfold State.setTwin
  split <;> exact h

end

section
variable {s : State} {r : MbxReq} {op : BitVec 16}

/-- The conditions of the firmware commands, with no activation under way. -/
theorem State.Takes.fwBusy (hi : s.Takes r) (hs : s.supply.ewLatched = false) (ha : s.hem.actStep = 0) :
    ∀ p ∈ (s.begun op r).fwBusy, p.1 = false :=
  conditions_cons (decide_eq_false (not_not.mpr ha)) (hi.writes hs)

/-- A twin that passes every check of R390. -/
theorem State.verdictOf_passes {x : Twin} {env : Nat} (hmagic : x.magic = true) (hhdr : x.headerOk = true) (hrev : x.revision = 0x21)
    (hpart : x.parts.testBit s.board.part.no = true) (hsvn : s.hem.minSvn ≤ x.svn) (hkey : x.keyIndex ≤ 1) (hwhole : x.whole = true)
    (henv : env < 7 ∨ 9 < env) : s.verdictOf x true env = 0 := by
  unfold State.verdictOf
  have h5 : ¬ x.svn < s.hem.minSvn := Nat.not_lt.mpr hsvn
  have h6 : ¬ 1 < x.keyIndex := Nat.not_lt.mpr hkey
  have h7 : ¬ (7 ≤ env ∧ env ≤ 9) := by omega
  simp [hmagic, hhdr, hrev, hpart, h5, h6, h7, hwhole]

theorem State.verifyTwin_valid {n env : Nat} (hv : s.verdictOf (s.twin n) true env = 0) : s.verifyTwin n true env =
    (0, ({ s with fresh := s.fresh + 1 } : State).setTwin n { s.twin n with verdict := 0, st := 3, digest := Config.freeNat s.fresh }) := by
  unfold State.verifyTwin
  dsimp only
  rw [hv]
  rfl

/-- The completion fields of FW_VERIFY where the inactive twin has just been replaced. -/
theorem State.verifyResult_setTwin (x : Twin) : (s.setTwin s.otherTwin x).verifyResult =
    fld 20 1 x.verdict + fld 21 1 (if (s.setTwin s.otherTwin x).resetFree then 1 else 0) + fld 22 2 x.svn + fld 24 8 x.fwRev.toNat := by
  unfold State.verifyResult
  rw [State.otherTwin_setTwin, State.twin_setTwin]

/-- FW_VERIFY of a whole image that passes. -/
theorem fwVerifyCmd_valid (c : MbxCmd) {v : State} (hi : s.Takes r) (ht : r.target = 0#32) (hew : s.supply.ewLatched = false)
    (hact : s.hem.actStep = 0) (hfull : s.sessionFull = true) (hz : r.Zero [(16, 48)])
    (hv : s.verdictOf (s.twin s.otherTwin) true r.env.verdict = 0)
    (hw : v = ({ s.begun op r with fresh := s.fresh + 1, hem.session := none } : State).setTwin s.otherTwin
      { s.twin s.otherTwin with verdict := 0, st := 3, digest := Config.freeNat s.fresh }) :
    fwVerifyCmd c r (s.begun op r) = MbxRes.ok v 0 v.verifyResult := by
  have hfull' : (s.begun op r).sessionFull = true := hfull
  have hv' : (s.begun op r).verdictOf ((s.begun op r).twin (s.begun op r).otherTwin) true r.env.verdict = 0 := hv
  unfold fwVerifyCmd
  rw [hi.guard0 ht (reserved_zero hz) (hi.fwBusy hew hact), hfull', State.verifyTwin_valid hv']
  dsimp only
  rw [if_pos rfl, State.setSession_setTwin, hw]
  rfl

/-- The pages that an image part of `len` bytes at offset `off` adds to those of a session. -/
def stagedPages (off len : Nat) (ys : List Nat) : List Nat := ((List.range ((len + 4095) / 4096)).map (off / 4096 + ·)).foldl addOnce ys

/-- Whether a session holds every page of its image. -/
def allStaged (want : Nat) (xs : List Nat) : Bool := (List.range ((want + 4095) / 4096)).all xs.contains

/-- FW_STAGE past its checks, for the first part of an image. -/
theorem fwStageRun_first (hok : r.env.bufOk = true) (hs : r.env.hemOk = true) (h0 : r.p 28 4 = 0) :
    fwStageRun r s = MbxRes.ok
      (({ s with
        hem.session := some (bufNum r.env.buf 8 4, stagedPages 0 (r.p 24 4) [])
        hem.sessionHdr := headerTwin r.env.buf } : State).setTwin s.otherTwin { headerTwin r.env.buf with
          whole := allStaged (bufNum r.env.buf 8 4) (stagedPages 0 (r.p 24 4) []) })
      0 (fld 20 4 (bufNum r.env.buf 8 4) + fld 24 4 (stagedPages 0 (r.p 24 4) []).length) := by
  unfold fwStageRun
  simp only [hok, hs, h0, Bool.not_true, Bool.false_eq_true, if_false, if_true, State.session_setTwin, State.setSession_setTwin,
    State.twin_setTwin, State.setTwin_setTwin, State.sessionFull]
  rfl

/-- FW_STAGE past its checks, for a later part. -/
theorem fwStageRun_later {want : Nat} {ys : List Nat} (hok : r.env.bufOk = true) (hs : r.env.hemOk = true) (h0 : r.p 28 4 ≠ 0)
    (hses : s.hem.session = some (want, ys)) :
    fwStageRun r s = MbxRes.ok
      (({ s with hem.session := some (want, stagedPages (r.p 28 4) (r.p 24 4) ys) } : State).setTwin s.otherTwin
        { s.twin s.otherTwin with st := 1, digest := 0, whole := allStaged want (stagedPages (r.p 28 4) (r.p 24 4) ys) })
      0 (fld 20 4 want + fld 24 4 (stagedPages (r.p 28 4) (r.p 24 4) ys).length) := by
  unfold fwStageRun
  simp only [hok, hs, h0, Bool.not_true, Bool.false_eq_true, if_false, State.session_setTwin, hses, State.setSession_setTwin,
    State.twin_setTwin, State.setTwin_setTwin, State.sessionFull]
  rfl

/-- FW_ACTIVATE past its checks: the conditions of R405 hold of the inactive twin. -/
theorem State.Takes.activateConds (hi : s.Takes r) (hs : s.supply.ewLatched = false) (ha : s.hem.actStep = 0) {mode : Nat}
    (hst : (s.twin s.otherTwin).st = 3 ∨ (s.twin s.otherTwin).st = 6) (hsvn : s.hem.minSvn ≤ (s.twin s.otherTwin).svn)
    (hmode : mode = 0 → s.resetFree = true ∧ s.standby.isSome = true) : ∀ p ∈ (s.begun op r).activateConds mode, p.1 = false := by
  obtain ⟨-, -, -, -, -, -, -, -, -, -, -, -, -, -, hrec, -⟩ := hi.1
  refine conditions_append (conditions_cons ?_ (conditions_cons ?_ (conditions_cons ?_ conditions_nil))) (hi.fwBusy hs ha)
  · exact decide_eq_false fun h => hst.elim h.1 h.2
  · exact decide_eq_false (Nat.not_lt.mpr hsvn)
  · by_cases h0 : mode = 0
    · obtain ⟨hfree, hstand⟩ := hmode h0
      have h1 : (s.begun op r).resetFree = true := hfree
      have h2 : (s.begun op r).standby.isNone = false := by
        rw [← Option.not_isSome]
        exact congrArg (! ·) hstand
      have h3 : (s.begun op r).hem.recovery = false := hrec
      rw [h1, h2, h3, Bool.not_true, Bool.or_self, Bool.or_self, Bool.and_false]
    · rw [decide_eq_false h0, Bool.false_and]

end

end Sys2Proof.Machine
end

section
/-! The statement about the firmware commands. -/

namespace Sys2Proof

open Machine

/-- Settles O28: each command passes its checks; the two twins lie beside what the start of a command changes. -/
theorem firmwareCommands : Obligations.FirmwareCommands := by
  unfold Obligations.FirmwareCommands
  refine ⟨?_, ?_, ?_, ?_, ?_, ?_, ?_⟩
  · -- FW_STAGE of the first part
    intro s r xs hi ht hs hb hbuf hact h28 hhdr hle hmax hpage hst hz hxs
    subst hxs
    have hbme : (s.begun 0x0801#16 r).bme = true := (State.begun_bme s _ r).trans hb
    refine State.does_none (off := 0xFFFF) hi ht rfl (State.setTwin_leaves _ _ _) ?_ (congrArg (·.policyDue) (State.pow_setTwin _ _ _))
    unfold fwStageCmd
    dsimp only
    rw [h28, hbme, hbuf.2.2.2.2]
    refine (hi.guard0 ht (offences_append (bufOffences_none hbuf) ?_) (conditions_append ?_ (hi.fwBusy hs.1 hact))).trans ?_
    · refine offences_cons (badIf_none ?_) (offences_cons (badIf_not ?_) (offences_cons (badIf_not (by omega)) (offences_cons
        (badIf_none ?_) (reserved_zero hz))))
      · simp only [Nat.zero_add, Bool.and_self, Bool.or_true, Bool.true_and, if_true]
        exact decide_eq_false fun h => hpage.elim h.1 h.2
      · simp only [Nat.zero_add, Bool.and_self, Bool.or_true, if_true]
        omega
      · rw [hhdr, Bool.and_false]
    · exact conditions_cons rfl (conditions_cons (decide_eq_false hst) (buffers_calm hbme))
    · exact (fwStageRun_first hbuf.2.2.2.2 hs.2 h28).trans (congrArg (fun v => MbxRes.ok v 0 _) (State.setTwin_begunWith { s with
        hem.session := some (bufNum r.env.buf 8 4, stagedPages 0 (r.p 24 4) [])
        hem.sessionHdr := headerTwin r.env.buf } _ _ (s.begunMbx 0x0801#16 r) s.now))
  · -- FW_STAGE of a later part
    intro s r want ys xs hi ht hs hb hbuf hact hpos hal hses hle hmax hpage hst hz hxs
    subst hxs
    have hbme : (s.begun 0x0801#16 r).bme = true := (State.begun_bme s _ r).trans hb
    have h0 : r.p 28 4 ≠ 0 := by omega
    have hses' : (s.begun 0x0801#16 r).hem.session = some (want, ys) := hses
    refine State.does_none (off := 0xFFFF) hi ht rfl (State.setTwin_leaves _ _ _) ?_ (congrArg (·.policyDue) (State.pow_setTwin _ _ _))
    unfold fwStageCmd
    dsimp only
    rw [if_neg h0, hses']
    refine (hi.guard0 ht (offences_append (bufOffences_none hbuf) ?_) (conditions_append ?_ (hi.fwBusy hs.1 hact))).trans ?_
    · refine offences_cons (badIf_none ?_) (offences_cons (badIf_not (by dsimp only; omega)) (offences_cons (badIf_not (by omega))
        (offences_cons (badIf_none ?_) (reserved_zero hz))))
      · have hpart : decide (r.p 24 4 % 4096 ≠ 0 ∧ r.p 28 4 + r.p 24 4 ≠ want) = false := decide_eq_false fun h => hpage.elim h.1 h.2
        exact (congrArg (_ && ·) hpart).trans (Bool.and_false _)
      · rw [decide_eq_false h0, Bool.false_and, Bool.false_and]
    · exact conditions_cons (Bool.and_false _) (conditions_cons (decide_eq_false hst) (buffers_calm hbme))
    · exact (fwStageRun_later hbuf.2.2.2.2 hs.2 h0 hses').trans (congrArg (fun v => MbxRes.ok v 0 _) (State.setTwin_begunWith
        { s with hem.session := some (want, stagedPages (r.p 28 4) (r.p 24 4) ys) } _ _ (s.begunMbx 0x0801#16 r) s.now))
  · -- FW_VERIFY
    intro s u r x hi ht hew hact hfull hx hmagic hhdr hrev hpart hsvn hkey hwhole hverdict hz hu
    subst hu hx
    have hv : s.verdictOf (s.twin s.otherTwin) true r.env.verdict = 0 :=
      State.verdictOf_passes hmagic hhdr hrev hpart hsvn hkey hwhole hverdict
    obtain ⟨x, hx⟩ : ∃ x, x = ({ s.twin s.otherTwin with verdict := 0, st := 3, digest := Config.freeNat s.fresh } : Twin) := ⟨_, rfl⟩
    have hset := State.setTwin_begunWith ({ s with fresh := s.fresh + 1, hem.session := none } : State) s.otherTwin x
      (s.begunMbx 0x0802#16 r) s.now
    have hresult := State.verifyResult_setTwin (s := { s with fresh := s.fresh + 1, hem.session := none }) x
    refine State.does_none (off := 0xFFFF) hi ht rfl (State.setTwin_leaves _ _ _) ?_ (congrArg (·.policyDue) (State.pow_setTwin _ _ _))
    rw [fwVerifyCmd_valid _ hi ht hew hact hfull hz hv rfl, ← hx]
    refine (congrArg (fun w : State => MbxRes.ok w 0 w.verifyResult) hset).trans (congrArg (fun n => MbxRes.ok _ 0 n) (hresult.trans ?_))
    rw [show x.verdict = 0 by rw [hx], show x.svn = (s.twin s.otherTwin).svn by rw [hx],
      show x.fwRev = (s.twin s.otherTwin).fwRev by rw [hx]]
    rfl
  · -- FW_ACTIVATE at the next power-on
    intro s r hi ht hs hact hst hsvn h16 hz
    have hrec : (s.selectNext s.otherTwin).hem.recovery = false := by
      obtain ⟨-, -, -, -, -, -, -, -, -, -, -, -, -, -, hrec, -⟩ := hi.1
      exact (State.recovery_setTwin _ _ _).trans hrec
    refine State.does_none (off := 0xFFFF) hi ht rfl (State.setTwin_leaves _ _ _) ?_ (congrArg (·.policyDue) (State.pow_setTwin _ _ _))
    refine (hi.guard0 ht (offences_cons (outOf_none (Nat.zero_le _) h16.le) (reserved_zero hz))
      (hi.activateConds hs.1 hact hst hsvn fun h => absurd (h16.symm.trans h) (by decide))).trans (hs.hem.trans ((if_pos h16).trans ?_))
    have hsel := State.setTwin_begunWith (s.writeSelect s.otherTwin 2 s.hem.running false) s.otherTwin
      { (s.writeSelect s.otherTwin 2 s.hem.running false).twin s.otherTwin with st := 6 } (s.begunMbx 0x0803#16 r) s.now
    have hnext : (s.begun 0x0803#16 r).selectNext s.otherTwin =
        { s.selectNext s.otherTwin with mbx := s.begunMbx 0x0803#16 r, pow.idleUs := s.now } := hsel
    show MbxRes.ok (if ((s.begun 0x0803#16 r).selectNext s.otherTwin).hem.recovery then _ else _) 0 _ = _
    rw [show ((s.begun 0x0803#16 r).selectNext s.otherTwin).hem.recovery = false by rw [hnext]; exact hrec,
      if_neg Bool.false_ne_true]
    exact congrArg (fun w : State => MbxRes.ok w 0 (activateResult 1 0 0 w.selectSeq)) hnext
  · -- FW_ACTIVATE now
    intro s r hi ht hs hact hst hsvn h16 hfree hstand hz
    refine State.waits hi rfl ?_
    refine (hi.guard0 ht (offences_cons (outOf_none (Nat.zero_le _) (by omega)) (reserved_zero hz))
      (hi.activateConds hs.1 hact hst hsvn fun _ => ⟨hfree, hstand⟩)).trans (hs.hem.trans (if_neg (by omega)))
  · -- FW_ROLLBACK of a PENDING twin
    intro s r hi ht hs hact hst hz
    have hd := State.does_settled (off := 0xFFFF) (handle := 0) (i := .fwRollback r) (op := 0x0804#16) (handler := fwRollbackCmd)
      (v := (s.writeSelect s.hem.running 4 0 true).setTwin s.otherTwin { s.twin s.otherTwin with st := 3 })
      (result := activateResult 1 0 0 (s.writeSelect s.hem.running 4 0 true).selectSeq) hi rfl (State.setTwin_leaves _ _ _)
      (State.calm_setTwin (s := s.writeSelect s.hem.running 4 0 true) _ _ hi.2.1) ?_ (congrArg (·.policyDue) (State.pow_setTwin _ _ _))
    · rwa [if_pos rfl, ht] at hd
    · refine (if_pos (show ((s.begun 0x0804#16 r).twin (s.begun 0x0804#16 r).otherTwin).st = 6 from hst)).trans ?_
      refine (hi.guard0 ht (reserved_zero hz) (hi.fwBusy hs.1 hact)).trans (hs.hem.trans ?_)
      have hset := State.setTwin_begunWith (s.writeSelect s.hem.running 4 0 true) s.otherTwin { s.twin s.otherTwin with st := 3 }
        (s.begunMbx 0x0804#16 r) s.now
      have hseq := State.selectSeq_setTwin (s.writeSelect s.hem.running 4 0 true) s.otherTwin { s.twin s.otherTwin with st := 3 }
      refine (congrArg (fun w : State => MbxRes.ok w 0 (activateResult 1 0 0 w.selectSeq)) hset).trans ?_
      exact congrArg (fun n => MbxRes.ok _ 0 (activateResult 1 0 0 n)) hseq
  · -- FW_ROLLBACK to a VALID twin
    intro s r hi ht hs hact hst hsvn hfree hstand hz
    refine State.waits hi rfl ?_
    have hne : ((s.begun 0x0804#16 r).twin (s.begun 0x0804#16 r).otherTwin).st ≠ 6 := fun h => absurd (hst.symm.trans h) (by decide)
    exact (if_neg hne).trans ((hi.guard0 ht (reserved_zero hz) (hi.activateConds hs.1 hact (.inl hst) hsvn fun _ => ⟨hfree, hstand⟩)).trans
      (hs.hem.trans rfl))

end Sys2Proof
end

section
/-! SUPPORT. The commands on records past their checks (R499, R502, R505, R507, R509, R533). -/

namespace Sys2Proof.Machine

section
variable {s : State} {op : BitVec 16} {r : MbxReq} {k : Nat} {t : Tenant}

/-- `finishes`, for a RESULT_HANDLE that is the TARGET. -/
theorem State.finishes_target {i : Instr} {handler : MbxCmd → MbxReq → State → MbxRes} {u : State} {result : Nat} (hi : s.Takes r)
    (hx : exec i s = .next (s.mbxSubmit op handler r)) (hh : handler (s.queuedCmd op r) r (s.begun op r) = MbxRes.ok u 0 result) :
    s.Finishes i op r r.target.toNat result u := by
  have h := State.finishes hi hx hh
  rwa [if_pos rfl] at h

/-- `finishes`, for a command without a TARGET, whose RESULT_HANDLE holds a number of its own. -/
theorem State.finishes_number {i : Instr} {handler : MbxCmd → MbxReq → State → MbxRes} {u : State} {n result : Nat} (hi : s.Takes r)
    (ht : r.target = 0#32) (hx : exec i s = .next (s.mbxSubmit op handler r))
    (hh : handler (s.queuedCmd op r) r (s.begun op r) = MbxRes.ok u n result) : s.Finishes i op r n result u := by
  have h := State.finishes hi hx hh
  by_cases hn : n = 0
  · rwa [if_pos hn, ht, show (0#32).toNat = n from hn.symm] at h
  · rwa [if_neg hn] at h

theorem State.kept_pbExtremeNow (s : State) (i : Nat) (x : Extreme) : (s.pbExtremeNow i x).kept = s.kept := by
  unfold State.pbExtremeNow
  exact State.kept_ite _ _ _ s rfl rfl

/-- What the end of a freeze of the Pattern Book leaves, but for the records that it takes up again. -/
theorem State.kept_pbRelease (s : State) : s.pbRelease.kept =
    ({ s with pb.frozen := none, pb.deletedRecs := [], pb.deferred := s.ckptDue } : State).kept := by
  unfold State.pbRelease
  exact (foldl_kept (fun v (p : Nat × Nat × Nat) => v.pbTenant p.1 p.2.1 p.2.2) (fun v p => State.kept_pbTenant v p.1 p.2.1 p.2.2) _ _).trans
    ((foldl_kept (fun v (p : Nat × Nat) => v.pbCount p.1 p.2) (fun v p => State.kept_pbCount v p.1 p.2) _ _).trans
      ((foldl_kept (fun v (p : Nat × Extreme) => v.pbExtremeNow p.1 p.2) (fun v p => State.kept_pbExtremeNow v p.1 p.2) _ _).trans rfl))

theorem epochOffences_none (h1 : 60 ≤ r.p 16 4) (h2 : r.p 16 4 ≤ 86400) (h3 : r.p 20 1 < 8) (hz : r.Zero [(21, 43)]) :
    ∀ o ∈ epochOffences r, o = none :=
  offences_cons (badIf_not (by omega)) (offences_cons (rsvBits_none h3) (reserved_zero hz))

/-- YARDAGE_SET_EPOCH on one tenant passes its checks. -/
theorem yardageSetEpochCmd_one (c : MbxCmd) (hi : s.Takes r) (ht : r.target ≠ 0#32) (hn : s.Names 1 r k k t) (hf : t.frozen = false)
    (hs : r.bit 20 2 = true → s.MayStore r) (hoff : ∀ o ∈ epochOffences r, o = none) :
    yardageSetEpochCmd c r (s.begun op r) = epochOneRun r k (s.begun op r) := by
  unfold yardageSetEpochCmd
  dsimp only
  rw [if_neg ht]
  exact (hi.guardH hn (.inr hf) hoff (hi.saves hs)).trans (hem_saves hs _)

/-- The epoch settings of a tenant. -/
theorem State.setEpoch_of (ht : s.tenant k = some t) (lenS : Nat) (align close persist : Bool) :
    s.setEpoch k lenS align close persist = if close then
        (s.setTenant k { t with
          nextLenS := lenS
          nextAlign := align
          savedEpoch := if persist then some (lenS, align) else t.savedEpoch }).closeEpoch k 2
      else s.setTenant k { t with
        nextLenS := lenS
        nextAlign := align
        savedEpoch := if persist then some (lenS, align) else t.savedEpoch } := by
  unfold State.setEpoch
  rw [State.updTenant_of ht]

theorem State.tenantD_setTenant (s : State) (k : Nat) (x : Tenant) : (s.setTenant k x).tenantD k = x :=
  tenantD_of (by rw [State.tenant_setTenant, if_pos rfl])

/-- A threshold set for one tenant. -/
theorem State.setThreshold_of (ht : s.tenant k = some t) (v : Nat) : s.setThreshold k v =
    if s.overThreshold k { t with threshold := v } then (s.setTenant k { t with threshold := v }).quarantine k
    else s.setTenant k { t with threshold := v } := by
  unfold State.setThreshold
  rw [State.updTenant_of ht]
  dsimp only
  rw [State.tenantD_setTenant]
  rfl

theorem State.overThreshold_begun (k : Nat) (t : Tenant) : (s.begun op r).overThreshold k t = s.overThreshold k t := by
  unfold State.overThreshold
  rw [State.begun_managerBase]

/-- SELVEDGE_SET_THRESHOLD on one tenant passes its checks. -/
theorem selvedgeThresholdCmd_one (c : MbxCmd) (hi : s.Takes r) (ht : r.target ≠ 0#32) (hn : s.Names 1 r k k t) (hf : t.frozen = false)
    (hs : s.MayStore r) (h18 : r.p 18 1 = 0) (hz : r.Zero [(19, 45)]) : selvedgeThresholdCmd c r (s.begun op r) =
      MbxRes.ok ((s.begun op r).setThreshold k (r.p 16 2)) 0 (fld 20 2 (r.p 16 2) + fld 24 4 t.violations) := by
  unfold selvedgeThresholdCmd
  dsimp only
  rw [if_neg ht]
  refine (hi.guardH hn (.inr hf) ?_ (hi.writes hs.1)).trans hs.hem
  exact offences_cons (badIf_none (by simp [MbxReq.bit, h18])) (offences_cons (rsvBits_none (by omega)) (reserved_zero hz))

end

end Sys2Proof.Machine
end

section
/-! The statement about the commands on records. -/

namespace Sys2Proof

open Machine

/-- Settles O29: each command passes its checks, and its handler sets the records it names. -/
theorem recordCommands : Obligations.RecordCommands := by
  unfold Obligations.RecordCommands
  refine ⟨?_, ?_, ?_, ?_, ?_, ?_, ?_, ?_, ?_⟩
  · -- PB_FREEZE
    intro s r hi ht h16 hfz hdef hz
    refine State.Does.congr (u := { s with
        pb.frozen := some (s.now + 1000 * (if r.p 16 2 = 0 then 100 else r.p 16 2))
        pb.freezeUs := s.now
        pb.missed := 0 }) (State.does_none (off := 0xFFFF) hi ht rfl ⟨rfl, rfl, rfl⟩ ?_) rfl
    refine (hi.guard0 ht ?_ (conditions_cons hfz (conditions_cons hdef hi.acts))).trans rfl
    exact offences_cons (badIf_not (by omega)) (reserved_zero hz)
  · -- PB_THAW
    intro s r hi ht hfz hz
    obtain ⟨v, hv⟩ : ∃ v, v = ({ s with pb.frozen := none, pb.deletedRecs := [], pb.deferred := s.ckptDue } : State) := ⟨_, rfl⟩
    have hk : (s.begun 0x0702#16 r).pbRelease.kept = ({ v with mbx := s.begunMbx 0x0702#16 r, pow.idleUs := s.now } : State).kept := by
      rw [State.kept_pbRelease, hv]
      rfl
    have hm : (s.begun 0x0702#16 r).pbRelease.mbx = s.begunMbx 0x0702#16 r := State.mbx_of_kept hk
    have hsup : (s.begun 0x0702#16 r).pbRelease.supply = s.supply := (State.supply_of_kept hk).trans (by rw [hv])
    have hd : (s.begun 0x0702#16 r).pbRelease.dbg.armed = s.dbg.armed :=
      (State.armed_of_apart (State.apart_of_kept hk)).trans (by rw [hv])
    have hu : (s.begun 0x0702#16 r).pbRelease.mkept = v.mkept :=
      (State.mkept_of_kept hk).trans (State.mkept_begunIn (s := s) (v := v) 0x0702#16 r (by rw [hv]))
    have hp : (s.begun 0x0702#16 r).pbRelease.pow.policyDue = s.pow.policyDue :=
      (State.policyDue_of_mkept hu).trans (by rw [hv])
    have hdo := State.does_mkept (i := .pbThaw r) (handler := pbThawCmd) (off := 0xFFFF) (handle := 0) (v := v) hi rfl
      ((hi.guard0 ht (reserved_zero hz) (conditions_cons ?_ hi.acts)).trans rfl) hm hsup hd hu hp
    · rw [if_pos rfl, ht, hv] at hdo
      exact hdo
    · rw [show (s.begun 0x0702#16 r).pbFrozen = true from hfz]
      rfl
  · -- YARDAGE_SET_EPOCH on one tenant
    intro s r k t hi ht hn hf hs h1 h2 h3 hclose hz
    refine State.does_target (off := 0xFFFF) hi (.inl rfl) rfl ⟨rfl, rfl, rfl⟩ ?_
    rw [yardageSetEpochCmd_one _ hi ht hn hf hs (epochOffences_none h1 h2 h3 hz)]
    unfold epochOneRun
    rw [State.setEpoch_of (s := s.begun _ r) hn.2, hclose, if_neg Bool.false_ne_true]
    dsimp only
    rw [State.tenantD_setTenant]
    rfl
  · -- YARDAGE_SET_EPOCH on one tenant that closes the epoch now
    intro s u r k t hi ht hn hf hs h1 h2 h3 hclose hz hu
    refine State.finishes_target hi rfl ?_
    rw [yardageSetEpochCmd_one _ hi ht hn hf hs (epochOffences_none h1 h2 h3 hz)]
    unfold epochOneRun
    rw [State.setEpoch_of (s := s.begun _ r) hn.2, hclose, if_pos rfl, ← hu]
  · -- YARDAGE_SET_EPOCH on all tenants
    intro s u r hi ht hs h1 h2 h3 hz hu
    refine State.finishes_number hi ht rfl ?_
    unfold yardageSetEpochCmd
    dsimp only
    rw [if_pos ht]
    refine (guard_pass hi.2.2.1 hi.2.2.2.1 hi.2.2.2.2 (epochOffences_none h1 h2 h3 hz) (hi.saves hs)).trans ((hem_saves hs _).trans ?_)
    unfold epochAllRun
    dsimp only
    rw [hu]
    cases r.bit 20 2 <;> rfl
  · -- HOST_TIME_SET
    intro s u r hi ht hok hew h16 hz hu
    subst hu
    refine State.finishes_none hi ht rfl ?_
    refine (hi.guard0 ht (offences_cons (badIf_not h16) (reserved_zero hz)) (hi.writes hew)).trans ?_
    exact (State.MayStore.hem ⟨hew, hok⟩).trans rfl
  · -- SELVEDGE_SET_THRESHOLD of a tenant that is not over it
    intro s r k t hi ht hn hf hs hover h18 hz
    have hcalm := State.calm_tenant hi.2.1 hn.2
    refine State.does_target_settled (off := 0xFFFF) hi (.inl rfl) rfl ⟨rfl, rfl, rfl⟩ (State.calm_setTenant hi.2.1 hcalm.1 hcalm.2) ?_
    rw [selvedgeThresholdCmd_one _ hi ht hn hf hs h18 hz, State.setThreshold_of (s := s.begun _ r) hn.2, State.overThreshold_begun, hover]
    rfl
  · -- SELVEDGE_SET_THRESHOLD of a tenant that is over it
    intro s r k t hi ht hn hf hs hover hq h18 hz
    have hcalm := State.calm_tenant hi.2.1 hn.2
    obtain ⟨x, hx⟩ : ∃ x, x = ({ t with threshold := r.p 16 2, quarantined := true } : Tenant) := ⟨_, rfl⟩
    have hxc : x.formatting ≠ 1 ∧ x.convCmd = none := by rw [hx]; exact hcalm
    have hset : (s.begun 0x0A05#16 r).setThreshold k (r.p 16 2) = ((s.begun 0x0A05#16 r).setTenant k x).quarantineEffects k := by
      rw [State.setThreshold_of (s := s.begun _ r) hn.2, State.overThreshold_begun, hover, if_pos rfl, State.quarantine_unfrozen
        (t := { t with threshold := r.p 16 2 }) (by rw [State.tenant_setTenant, if_pos rfl]) hf, State.setTenant_setTenant, hx]
    rw [← hx]
    have ha := State.apart_quarantineEffects ((s.begun 0x0A05#16 r).setTenant k x) k
    have hm : (((s.begun 0x0A05#16 r).setTenant k x).quarantineEffects k).mbx = s.begunMbx 0x0A05#16 r := State.mbx_of_apart ha
    have hsup : (((s.begun 0x0A05#16 r).setTenant k x).quarantineEffects k).supply = s.supply := (State.supply_of_apart ha).trans rfl
    have hd : (((s.begun 0x0A05#16 r).setTenant k x).quarantineEffects k).dbg.armed = s.dbg.armed := (State.armed_of_apart ha).trans rfl
    have hu : ((s.begun 0x0A05#16 r).setTenant k x).mapart = (s.setTenant k x).mapart :=
      State.mapart_of_mkept (State.mkept_begunIn (s := s) (v := s.setTenant k x) 0x0A05#16 r rfl)
    exact State.does_apart_settled (handle := 0) (off := 0xFFFF) hi rfl
      ((selvedgeThresholdCmd_one _ hi ht hn hf hs h18 hz).trans (congrArg (fun v => MbxRes.ok v 0 _) hset))
      hm hsup hd ((State.mapart_of_apart ha).trans hu) (State.calm_setTenant hi.2.1 hxc.1 hxc.2)
  · -- SELVEDGE_SET_THRESHOLD of the default
    intro s u r hi ht hs h18 hz hu
    have he := State.ends (i := .selvedgeSetThreshold r) (handle := 0) (handler := selvedgeThresholdCmd)
      (u := if r.bit 18 0 then
          s.host.tenants.foldl (fun v p => if p.2.frozen then v else v.setThreshold p.1 (r.p 16 2)) u
        else u) (result := fld 20 2 (r.p 16 2)) hi rfl ?_
    · rwa [if_pos rfl, ht] at he
    · subst hu
      unfold selvedgeThresholdCmd
      dsimp only
      rw [if_pos ht]
      refine (guard_pass hi.2.2.1 hi.2.2.2.1 hi.2.2.2.2 ?_ (hi.writes hs.1)).trans (hs.hem.trans rfl)
      exact offences_cons (rsvBits_none h18) (reserved_zero hz)

end Sys2Proof
end

section
/-! SUPPORT. The ACTION that a SANITISE_START row fixes (R444), and its checks. -/

namespace Sys2Proof.Machine

section
variable {s : State} {r : MbxReq} {op : BitVec 16}

/-- The low byte of a word whose low byte is cleared and then set. -/
theorem low_byte_set {m a : Nat} (x : Nat) (hm : 8 ≤ m) (ha : a < 2 ^ 8) : ((x >>> 8 <<< 8) % 2 ^ m ||| a % 2 ^ m) % 2 ^ 8 = a := by
  have hlow : (x >>> 8 <<< 8) % 2 ^ m % 2 ^ 8 = 0 := by
    rw [Nat.mod_mod_of_dvd _ (Nat.pow_dvd_pow 2 hm), Nat.shiftLeft_eq]
    exact Nat.mul_mod_left _ _
  have hset : a % 2 ^ m % 2 ^ 8 = a := by
    rw [Nat.mod_mod_of_dvd _ (Nat.pow_dvd_pow 2 hm)]
    exact Nat.mod_eq_of_lt ha
  rw [Nat.or_mod_two_pow, hlow, hset, Nat.zero_or]

/-- A row's ACTION is the first byte of PARAMS. -/
theorem withAction_p (r : MbxReq) {a : Nat} (h : a < 256) : (withAction r a).p 16 1 = a := by
  simp only [MbxReq.p, fieldLE, withAction, Nat.sub_self, Nat.mul_zero, pow_zero, Nat.div_one, BitVec.toNat_or, BitVec.toNat_shiftLeft,
    BitVec.toNat_ushiftRight, BitVec.toNat_ofNat, Nat.mul_one]
  exact low_byte_set (m := 384) (a := a) r.params.toNat (by decide) h

/-- `does_settled`, for a command without a TARGET, whose RESULT_HANDLE is 0. -/
theorem State.does_none_settled {v : State} {i : Instr} {handler : MbxCmd → MbxReq → State → MbxRes} {off result : Nat} (hi : s.Takes r)
    (ht : r.target = 0#32) (hx : exec i s = settled (.next (s.mbxSubmit op handler r)))
    (hv : v.mbx = s.mbx ∧ v.supply = s.supply ∧ v.dbg = s.dbg) (hc : v.Calm)
    (hh : handler (s.queuedCmd op r) r (s.begun op r) =
      ⟨{ v with mbx := s.begunMbx op r, pow.idleUs := s.now }, some stOk, off, 0, result⟩)
    (hp : v.pow.policyDue = s.pow.policyDue := by rfl) : s.Does i op r 0 result v := by
  have h := State.does_settled hi hx hv hc hh hp
  rwa [if_pos rfl, ht] at h

/-- The conditions under which a sanitise waits do not hold. -/
theorem State.Takes.sanitiseFree (hi : s.Takes r) (hact : s.hem.actStep = 0) (hfmt : ∀ p ∈ s.host.tenants, p.2.formatting ≠ 1) :
    ((s.begun op r).san.s.running || decide ((s.begun op r).hem.actStep ≠ 0) ||
      (s.begun op r).host.tenants.any (fun p => decide (p.2.formatting = 1))) = false := by
  have h1 : (s.begun op r).san.s.running = false := hi.notSanitising
  have h2 : (s.begun op r).hem.actStep = 0 := hact
  have h3 : (s.begun op r).host.tenants.any (fun p => decide (p.2.formatting = 1)) = false :=
    List.any_eq_false.mpr fun p hp hc => hfmt p hp (of_decide_eq_true hc)
  rw [h1, h2, h3]
  rfl

/-- SANITISE_START of an erase passes its checks and starts it. -/
theorem sanitiseStartCmd_erases (c : MbxCmd) {a n : Nat} {ok : Bool} (hi : s.Takes r) (ht : r.target = 0#32) (ha : r.p 16 1 = a)
    (hkind : a = 1 ∨ a = 2 ∧ s.cipher = true) (hew : s.supply.ewLatched = false) (hact : s.hem.actStep = 0)
    (hfmt : ∀ p ∈ s.host.tenants, p.2.formatting ≠ 1)
    (hfail : ¬ (s.san.s.failMode = true ∧ s.san.s.failRestricted = true ∧ r.bit 17 0 = true)) (h17 : r.p 17 1 < 2)
    (hz : r.Zero [(18, 46)]) (hact2 : n = 2 * a) (hok : ok = r.env.hemOk) : sanitiseStartCmd c r (s.begun op r) =
      MbxRes.goesOn ((s.begun op r).sanitiseStart n (r.bit 17 0) (BitVec.ofNat 32 (n + (if r.bit 17 0 then 8 else 0)))
        (some c) none ok).sanitiseGo := by
  subst hact2 hok
  have h3 : a ≠ 3 := by omega
  unfold sanitiseStartCmd
  rw [ha]
  refine (hi.guard0 ht ?_ ?_).trans (if_neg h3)
  · refine offences_cons (badIf_not ?_) (offences_cons (rsvBits_none h17) (reserved_zero hz))
    rintro (h | h | ⟨h, hc⟩)
    · omega
    · omega
    · obtain rfl | ⟨-, hcip⟩ := hkind
      · cases h
      · rw [show (s.begun op r).cipher = true from hcip] at hc
        cases hc
  · refine conditions_cons hew (conditions_cons (hi.sanitiseFree hact hfmt) (conditions_cons ?_ (conditions_cons ?_ conditions_nil)))
    · rw [decide_eq_false h3, Bool.false_and]
    · rw [decide_eq_false h3, Bool.false_or]
      refine Bool.eq_false_iff.mpr fun h => hfail ?_
      obtain ⟨h, hb⟩ := Bool.and_eq_true_iff.mp h
      obtain ⟨hm, hr⟩ := Bool.and_eq_true_iff.mp h
      exact ⟨hm, hr, hb⟩

/-- SANITISE_START with ACTION 3 passes its checks in an unrestricted failure mode. -/
theorem sanitiseStartCmd_exits (c : MbxCmd) (hi : s.Takes r) (ht : r.target = 0#32) (ha : r.p 16 1 = 3)
    (hew : s.supply.ewLatched = false) (hact : s.hem.actStep = 0) (hfmt : ∀ p ∈ s.host.tenants, p.2.formatting ≠ 1)
    (hmode : s.san.s.failMode = true) (hrestr : s.san.s.failRestricted = false) (h17 : r.p 17 1 < 2) (hz : r.Zero [(18, 46)]) :
    sanitiseStartCmd c r (s.begun op r) = MbxRes.ok { s.begun op r with san.s.failMode := false } := by
  have hm : (s.begun op r).san.s.failMode = true := hmode
  have hr : (s.begun op r).san.s.failRestricted = false := hrestr
  unfold sanitiseStartCmd
  rw [ha]
  refine (hi.guard0 ht ?_ ?_).trans (if_pos rfl)
  · exact offences_cons (badIf_not (by omega)) (offences_cons (rsvBits_none h17) (reserved_zero hz))
  · refine conditions_cons hew (conditions_cons (hi.sanitiseFree hact hfmt) (conditions_cons ?_ (conditions_cons ?_ conditions_nil)))
    · rw [hm]; rfl
    · rw [hr, Bool.and_false, Bool.false_and]

end

end Sys2Proof.Machine
end

section
/-! The statement about sanitise and format. -/

namespace Sys2Proof

open Machine

/-- Settles O30: each command passes its checks and starts its work; ACTION 3 only leaves failure mode. -/
theorem sanitiseCommands : Obligations.SanitiseCommands := by
  unfold Obligations.SanitiseCommands
  refine ⟨?_, ?_, ?_, ?_⟩
  · -- SANITISE_START with ACTION 1
    intro s r q hq hi ht hew hact hfmt hfail h17 hz
    subst hq
    exact State.waits hi rfl (sanitiseStartCmd_erases _ hi ht (withAction_p r (by decide)) (.inl rfl) hew hact hfmt hfail h17 hz rfl rfl)
  · -- SANITISE_START with ACTION 2
    intro s r q hq hi ht hc hew hact hfmt hfail h17 hz
    subst hq
    exact State.waits hi rfl (sanitiseStartCmd_erases _ hi ht (withAction_p r (by decide)) (.inr ⟨rfl, hc⟩) hew hact hfmt hfail h17 hz rfl rfl)
  · -- SANITISE_START with ACTION 3
    intro s r q hq hi ht hew hact hfmt hmode hrestr h17 hz
    subst hq
    refine State.does_none_settled (off := 0xFFFF) (v := { s with san.s.failMode := false }) hi ht rfl ⟨rfl, rfl, rfl⟩ hi.2.1 ?_
    exact sanitiseStartCmd_exits _ hi ht (withAction_p r (by decide)) hew hact hfmt hmode hrestr h17 hz
  · -- FORMAT_START
    intro s r k t hi hn hf hew h1 h2 h17 hses h18 hns1 hns2 hz
    refine State.waits hi rfl ?_
    unfold formatStartCmd
    refine (hi.guardH hn (.inr hf) ?_ ?_).trans rfl
    · refine offences_cons (badIf_not (by omega)) (offences_cons (badIf_not ?_) (offences_cons (badIf_not (by omega)) (reserved_zero hz)))
      rintro (h | ⟨h, hc⟩)
      · omega
      · rw [show (s.begun 0x0903#16 r).cipher = true from hses h] at hc
        cases hc
    · have hcalm := State.calm_tenant hi.2.1 hn.2
      refine conditions_cons hew (conditions_cons ?_ (conditions_cons ?_ conditions_nil))
      · have hb : ∀ n, (nsHas (r.p 16 1) n = true → s.nsze t n ≠ 0) → (nsHas (r.p 16 1) n && decide (s.nsze t n = 0)) = false := by
          intro n h
          cases hh : nsHas (r.p 16 1) n with
          | false => rfl
          | true => exact decide_eq_false (h hh)
        exact Bool.or_eq_false_iff.mpr ⟨hb 1 hns1, hb 2 hns2⟩
      · exact Bool.or_eq_false_iff.mpr ⟨decide_eq_false hcalm.1, hi.notSanitising⟩

end Sys2Proof
end

section
/-! SUPPORT. The debug authorisation and the Fray unit behind their commands (R521, R528-R531). -/

namespace Sys2Proof.Machine

section
variable {s : State} {op : BitVec 16} {r : MbxReq}

theorem State.authLeft_of_kept {s t : State} (h : s.kept = t.kept) : s.authLeft = t.authLeft := by
  have k := congrArg (fun p : State × (FnId → Fn) × (Nat → Option Tenant) => p.1.authLeft) h
  exact k

theorem State.perms_of_kept {s t : State} (h : s.kept = t.kept) : s.dbg.perms = t.dbg.perms := by
  have k := congrArg (fun p : State × (FnId → Fn) × (Nat → Option Tenant) => p.1.dbg.perms) h
  exact k

/-- What the debug commands report, once a buffer has been written, is as before it. -/
theorem State.authDone_output (s : State) (r : MbxReq) (ao lo : Nat) (bytes : List Byte) : (r.output s ao lo bytes).authDone =
    MbxRes.ok (r.output s ao lo bytes) 0 (fld 20 4 s.authLeft + fld 24 1 s.dbg.perms.toNat) := by
  have hk : (r.output s ao lo bytes).kept = s.kept := State.kept_emit _ _
  unfold State.authDone
  rw [State.authLeft_of_kept hk, State.perms_of_kept hk]

theorem authZeros_none (hz : r.Zero [(17, 7), (36, 28)]) : ∀ o ∈ authZeros r, o = none :=
  offences_cons (rsv_none hz (by simp)) (offences_cons (rsv_none hz (by simp)) offences_nil)

theorem State.Takes.buffersWrites (hi : s.Takes r) (hb : s.bme = true) (hew : s.supply.ewLatched = false) :
    ∀ p ∈ (s.begun op r).buffers ++ (s.begun op r).writes, p.1 = false :=
  conditions_append (hi.buffers hb) (hi.writes hew)

/-- A token that is signed for this device and the live nonce. -/
theorem State.tokenGood_of {n : Nat} {b : List Byte} (hsig : r.env.sigOk = true) (hn : s.liveNonce = some n)
    (hnonce : bufNum b 16 32 = Config.freeNat n % 2 ^ 256) (hdev : bufNum b 48 48 = Config.deviceId % 2 ^ 384) :
    s.tokenGood r b = true := by
  unfold State.tokenGood
  rw [hn, hsig, decide_eq_true hdev]
  exact decide_eq_true hnonce

/-- A command that ends with OK and names no object gives no RESULT_HANDLE. -/
theorem State.endRun_ok {c : MbxCmd} {u : State} {result : Nat} (ht : r.target = 0#32) :
    State.endRun c r (MbxRes.ok u 0 result) = u.mbxFinish c stOk 0xFFFF 0 result := by
  have h : (if stOk = stOk ∧ 0 = 0 then r.target.toNat else 0) = 0 := by rw [if_pos ⟨rfl, rfl⟩, ht]; rfl
  exact congrArg (fun n => u.mbxFinish c stOk 0xFFFF n result) h

/-- DEBUG_AUTHORISE with a sound token passes its checks. -/
theorem debugTokenCheck_good (c : MbxCmd) {n : Nat} (hi : s.Takes r) (ht : r.target = 0#32) (hb : s.bme = true)
    (hew : s.supply.ewLatched = false) (h16 : r.p 16 1 = 1) (haddr : r.p 24 8 % 64 = 0) (hlen : r.p 32 4 = 256) (hok : r.env.bufOk = true)
    (hform : tokenMalformed (r.input 256) = false) (hn : s.liveNonce = some n) (hsig : r.env.sigOk = true)
    (hnonce : bufNum (r.input 256) 16 32 = Config.freeNat n % 2 ^ 256) (hdev : bufNum (r.input 256) 48 48 = Config.deviceId % 2 ^ 384)
    (hz : r.Zero [(17, 7), (36, 28)]) : debugTokenCheck c r (s.begun op r) =
      (({ s.begun op r with
        dbg.nonce := none
        dbg.authUntil := some (s.now + 1000000 * bufNum (r.input 256) 12 4)
        dbg.perms := BitVec.ofNat 8 (bufNum (r.input 256) 9 1) } : State).authNote 0).authDone := by
  have hgood : (s.begun op r).tokenGood r (r.input 256) = true := State.tokenGood_of (s := s.begun op r) hsig hn hnonce hdev
  have hlive : (s.begun op r).liveNonce = some n := hn
  unfold debugTokenCheck
  dsimp only
  rw [hgood, hlive, hform]
  refine (hi.guard0 ht (offences_append ?_ (authZeros_none hz)) ?_).trans rfl
  · refine offences_cons (outOf_none (Nat.zero_le _) (by omega)) (offences_cons (badIf_not (not_not.mpr haddr))
      (offences_cons (badIf_not (not_not.mpr hlen)) (offences_cons ?_ offences_nil)))
    simp [MbxReq.badInput, hok, badIf]
  · exact conditions_cons (Bool.and_false _) (conditions_cons rfl (hi.buffersWrites hb hew))

/-- FRAY_ARM with well-formed rules passes its checks. -/
theorem frayArmCmd_arms (c : MbxCmd) {bs : List (List Byte)} (hi : s.Takes r) (ht : r.target = 0#32) (hb : s.bme = true)
    (hew : s.supply.ewLatched = false) (h1 : 1 ≤ r.p 16 1) (h2 : r.p 16 1 ≤ 16) (h17 : r.p 17 1 < 2) (haddr : r.p 24 8 % 64 = 0)
    (hlen : r.p 32 4 = 32 * r.p 16 1) (hok : r.env.bufOk = true)
    (hbs : bs = (List.range (r.p 16 1)).map (fun i => ((r.input (32 * r.p 16 1)).drop (32 * i)).take 32))
    (hrules : ∀ b ∈ bs, s.frayRuleOk b = true) (hauth : s.authorised = true) (hperm : s.dbg.perms.getLsbD 0 = true)
    (hz : r.Zero [(18, 6), (36, 28)]) : frayArmCmd c r (s.begun op r) = MbxRes.ok
      (({ s.begun op r with dbg.armed := true, dbg.trigOut := r.bit 17 0, dbg.rules := bs.map frayRuleOf } : State).selvedge
        { source := 5, code := 0x62, detail := 1, answer := 5 }) 0 (fld 20 1 (r.p 16 1)) := by
  have hall : bs.all (s.begun op r).frayRuleOk = true := List.all_eq_true.mpr hrules
  have hauth' : (s.begun op r).authorised = true := hauth
  have hperm' : (s.begun op r).dbg.perms.getLsbD 0 = true := hperm
  unfold frayArmCmd
  dsimp only
  rw [← hbs, hall, hauth', hperm']
  refine (hi.guard0 ht ?_ (conditions_append (conditions_append ?_ (hi.buffers hb)) (hi.writes hew))).trans rfl
  · refine offences_cons (outOf_none h1 h2) (offences_cons (rsvBits_none h17) (offences_cons (rsv_none hz (by simp)) (offences_cons
      (badIf_not (not_not.mpr haddr)) (offences_cons (badIf_not (not_not.mpr hlen)) (offences_cons ?_ (offences_cons
        (rsv_none hz (by simp)) offences_nil))))))
    simp [MbxReq.badInput, hok, badIf]
  · exact conditions_cons rfl (conditions_cons hi.1.unarmed conditions_nil)

end

end Sys2Proof.Machine
end

section
/-! The statement about the debug and Fray commands. -/

namespace Sys2Proof

open Machine

/-- Settles O31: each command passes its checks; FRAY_DISARM is taken while the unit is armed too. -/
theorem debugCommands : Obligations.DebugCommands := by
  unfold Obligations.DebugCommands
  refine ⟨?_, ?_, ?_, ?_, ?_⟩
  · -- DEBUG_AUTHORISE with MODE 0
    intro s u r hi ht hb hew h16 hbuf hz hu
    subst hu
    refine State.finishes_none hi ht rfl ?_
    unfold debugAuthCmd
    rw [h16]
    refine (hi.guard0 ht (offences_append (offences_append ?_ (bufOffences_none hbuf)) (authZeros_none hz))
      (hi.buffersWrites hb hew)).trans ((buffer_pass hbuf).trans (State.authDone_output _ _ _ _ _))
    exact offences_cons (outOf_none (Nat.zero_le _) (by omega)) offences_nil
  · -- DEBUG_AUTHORISE with MODE 1
    intro s u r n hi ht hb hew h16 haddr hlen hok hform hn hsig hnonce hdev hz hu
    subst hu
    refine State.finishes_none hi ht rfl ?_
    unfold debugAuthCmd
    rw [h16]
    dsimp only [debugTokenCmd]
    rw [debugTokenCheck_good _ hi ht hb hew h16 haddr hlen hok hform hn hsig hnonce hdev hz]
    exact if_neg (fun h => absurd (Option.some.inj h) (by decide))
  · -- DEBUG_AUTHORISE with MODE 2
    intro s u r hi ht hew h16 hlen hz hu
    subst hu
    refine State.finishes_none hi ht rfl ?_
    unfold debugAuthCmd
    rw [h16]
    refine (hi.guard0 ht (offences_append ?_ (authZeros_none hz)) (hi.writes hew)).trans rfl
    exact offences_cons (outOf_none (Nat.zero_le _) (by omega)) (offences_cons (badIf_not (not_not.mpr hlen)) offences_nil)
  · -- FRAY_ARM
    intro s u r bs hi ht hb hew h1 h2 h17 haddr hlen hok hbs hrules hauth hperm hz hu
    subst hu
    exact State.finishes_none hi ht rfl
      (frayArmCmd_arms _ hi ht hb hew h1 h2 h17 haddr hlen hok hbs hrules hauth hperm hz)
  · -- FRAY_DISARM
    intro s r hi ht hew hz
    have hx : exec (.frayDisarm r) s = .next (s.mbxSubmit 0x0A03#16 frayDisarmCmd r) := rfl
    have hpass : frayDisarmCmd (s.queuedCmd 0x0A03#16 r) r (s.begun 0x0A03#16 r) = MbxRes.ok (s.begun 0x0A03#16 r).disarm 0
        (fld 20 8 (if s.dbg.armed then s.totalHits else 0)) :=
      guard0_pass hi.2.2.1 hi.2.2.2.1 hi.2.2.2.2 ht (reserved_zero hz)
        (writes_calm (s := s.begun 0x0A03#16 r) hi.notSanitising hew)
    rw [hx, State.mbxSubmit_go _ _ hi.1, hpass]
    exact congrArg Host.Outcome.next (State.endRun_ok ht)

end Sys2Proof
end

section
/-! SUPPORT. The queued command that starts next (R52). -/

namespace Sys2Proof.Machine

/-- Of two queued commands the earlier, as MBX_QUEUED_START takes them one by one. -/
def earlier (best : Option MbxCmd) (c : MbxCmd) : Option MbxCmd :=
  match best with
  | none => some c
  | some b => if c.seq < b.seq then some c else some b

theorem State.nextQueued_eq (s : State) : s.nextQueued = (s.mbx.accepted.filter s.mbxMayStart).foldl earlier none := rfl

/-- Once the first command is the best, no later one takes its place. -/
theorem foldl_earlier_stays {c : MbxCmd} {l : List MbxCmd} (hl : ∀ d ∈ l, d = c ∨ c.seq < d.seq) :
    l.foldl earlier (some c) = some c := by
  induction l with
  | nil => rfl
  | cons d l ih =>
    have hd : earlier (some c) d = some c := by
      rcases hl d List.mem_cons_self with rfl | h
      · simp [earlier]
      · simp [earlier, Nat.not_lt.mpr h.le]
    rw [List.foldl_cons, hd]
    exact ih fun e he => hl e (List.mem_cons_of_mem _ he)

/-- The command that is before all others of a list is the one found, whatever comes first. -/
theorem foldl_earlier_first {c : MbxCmd} {l : List MbxCmd} {best : Option MbxCmd} (hc : c ∈ l) (hl : ∀ d ∈ l, d = c ∨ c.seq < d.seq)
    (hb : ∀ b, best = some b → b = c ∨ c.seq < b.seq) : l.foldl earlier best = some c := by
  induction l generalizing best with
  | nil => simp at hc
  | cons d l ih =>
    have hrest : ∀ e ∈ l, e = c ∨ c.seq < e.seq := fun e he => hl e (List.mem_cons_of_mem _ he)
    rw [List.foldl_cons]
    rcases List.mem_cons.mp hc with rfl | hmem
    · have h : earlier best c = some c := by
        cases best with
        | none => rfl
        | some b =>
          rcases hb b rfl with rfl | h
          · simp [earlier]
          · simp [earlier, h]
      rw [h]
      exact foldl_earlier_stays hrest
    · refine ih hmem hrest fun b h => ?_
      cases best with
      | none => exact Option.some.inj h ▸ hl d List.mem_cons_self
      | some b' =>
        by_cases hlt : d.seq < b'.seq
        · rw [earlier, if_pos hlt] at h
          exact Option.some.inj h ▸ hl d List.mem_cons_self
        · rw [earlier, if_neg hlt] at h
          exact Option.some.inj h ▸ hb b' rfl

/-- The accepted command with the least SEQ of those that may start is the one started. -/
theorem State.nextQueued_oldest {s : State} {c : MbxCmd} (hc : c ∈ s.mbx.accepted) (hm : s.mbxMayStart c = true)
    (hl : ∀ d ∈ s.mbx.accepted, s.mbxMayStart d = true → d = c ∨ c.seq < d.seq) : s.nextQueued = some c := by
  rw [State.nextQueued_eq]
  refine foldl_earlier_first (List.mem_filter.mpr ⟨hc, hm⟩) (fun d hd => ?_) (by simp)
  obtain ⟨h1, h2⟩ := List.mem_filter.mp hd
  exact hl d h1 h2

/-- WARM_RESET is held for its reset. -/
theorem warmResetCmd_holds {s : State} {op : BitVec 16} {r : MbxReq} (c : MbxCmd) (hi : s.Takes r) (ht : r.target = 0#32)
    (hew : s.supply.ewLatched = false) (hz : r.Zero [(16, 48)]) : warmResetCmd c r (s.begun op r) =
      MbxRes.goesOn (State.tryWarm { (s.begun op r).updMbxPort r.port (fun x => { x with ready := false, readyAt := none })
        with aon.warmCmd := some c }) := by
  obtain ⟨-, -, -, hman, -⟩ := hi.1
  have hwarm : (s.begun op r).aon.warmCmd.isSome = false := congrArg Option.isSome hi.2.1.1
  unfold warmResetCmd
  refine (hi.guard0 ht (reserved_zero hz) (conditions_cons hwarm (hi.writes hew))).trans ?_
  dsimp only
  rw [State.begun_manager, hman]

end Sys2Proof.Machine
end

section
/-! The statement about WARM_RESET and the start of a queued command. -/

namespace Sys2Proof

open Machine

/-- Settles O32: the oldest queued command that may start is the least of a fold over the accepted ones. -/
theorem queuedStartAndWarmReset : Obligations.QueuedStartAndWarmReset := by
  unfold Obligations.QueuedStartAndWarmReset
  refine ⟨?_, ?_⟩
  · -- WARM_RESET
    intro s r hi ht hew hz
    exact State.stays hi rfl (warmResetCmd_holds _ hi ht hew hz)
  · -- MBX_QUEUED_START
    intro s c hc hm hl
    have hx : exec .mbxQueuedStart s = execMbxQueuedStart s := rfl
    rw [hx, execMbxQueuedStart, State.nextQueued_oldest hc hm hl]
    rfl

end Sys2Proof
end

section
/-! SUPPORT. The granted I/O commands: the row's meaning where its checks pass. -/

namespace Sys2Proof.Machine

section
variable {s u : State} {c : NvmeCmd} {e : Sqe} {op : BitVec 8}

/-- A granted command's row, with the work that waits on commands ending. -/
theorem exec_granted {i : Instr} {v : State} {sel : Sqe → Bool} (act : State → State) (h : s.Granted c e op u) (hs : sel e = true)
    (hx : exec i s = .next (s.onGrant c op sel act).after) (hv : act u = v) : exec i s = .next v.after := by
  rw [hx, State.onGrant_of h hs, hv]

/-- A write whose range lies in its namespace starts. -/
theorem writeRun_starts {slot n : Nat} {t : Tenant} (kind : WKind) (io : IoArgs) (hslot : u.tenantOf c.fn = some slot)
    (ht : t = u.tenantD slot) (hn : n = io.nlb + 1)
    (hr : (if c.nsid.toNat = 1 then io.slba + 1 else io.slba + n) ≤ u.nsze t c.nsid.toNat) :
    writeRun kind c io u = u.startWrite { (default : Wr) with
      fn := c.fn, sqid := c.sqid, cid := c.cid, tenant := slot, nsid := c.nsid.toNat, kind := kind, lba := io.slba, len := n,
      dtype := io.dtype, dspec := io.dspec, dataErr := if kind = .zeroes then [] else dataFaults c io.mptr t.lbaf } := by
  subst hn ht
  unfold writeRun
  rw [hslot]
  exact if_neg (Nat.not_lt.mpr hr)

/-- A Zone Management Send of all zones, or of the start of a zone of the namespace, starts. -/
theorem sendRun_starts {slot slba : Nat} {all : Bool} (action : Nat) (hslot : u.tenantOf c.fn = some slot)
    (hz : all = true ∨ slba < u.nsze (u.tenantD slot) 1 ∧ slba % max 1 u.zsize = 0) :
    sendRun action c slba all u = (u.startSend ⟨0, c.fn, c.sqid, c.cid, slot, action, slba, all, false, false⟩).tidy := by
  have h1 : ¬ (!all ∧ u.nsze (u.tenantD slot) 1 ≤ slba) := by
    rcases hz with rfl | ⟨h, -⟩
    · simp
    · omega
  have h2 : ¬ (!all ∧ slba % max 1 u.zsize ≠ 0) := by
    rcases hz with rfl | ⟨-, h⟩
    · simp
    · exact fun k => k.2 h
  unfold sendRun
  rw [hslot]
  exact (if_neg h1).trans (if_neg h2)

end

end Sys2Proof.Machine
end

section
/-! The statement about the I/O commands. -/

namespace Sys2Proof

open Machine

/-- Settles O33: each command is taken from the grants, and its checks pass. -/
theorem ioCommands : Obligations.IoCommands := by
  unfold Obligations.IoCommands
  refine ⟨?_, ?_, ?_, ?_, ?_, ?_, ?_⟩
  · -- READ
    intro s u c e io slot n t o h hio hslot ht ho hn hr hd
    refine exec_granted (readCmdRun c io) h hio rfl ?_
    subst ht hn
    unfold readCmdRun
    rw [hslot, ho]
    exact (if_neg (Nat.not_lt.mpr hr)).trans (State.dataStage_of hd)
  · -- WRITE
    intro s u c e io slot n t h hio hslot ht hn hr
    exact exec_granted (writeRun .write c io) h hio rfl (writeRun_starts .write io hslot ht hn hr)
  · -- ZONE APPEND
    intro s u c e io slot n t h hio hslot ht hn hns hr
    have hid : c.nsid.toNat = 1 := congrArg BitVec.toNat hns
    refine exec_granted (writeRun .append c io) h hio rfl ?_
    rw [writeRun_starts .append io hslot ht hn (by rwa [hid, if_pos rfl]), hid]
    rfl
  · -- WRITE ZEROES
    intro s u c e io slot n t h hio hslot ht hn hr
    exact exec_granted (writeRun .zeroes c io) h hio rfl (writeRun_starts .zeroes io hslot ht hn hr)
  · -- FLUSH
    intro s u c e h
    exact exec_granted (fun s => s.okCmd c) (sel := fun _ => true) h rfl rfl rfl
  · -- ZONE OPEN, CLOSE, FINISH and RESET
    intro s u c e slot slba action all h hsend hslot hz
    refine ⟨?_, ?_, ?_, ?_⟩ <;> intro hact <;> subst hact <;>
      exact exec_granted (sendRun _ c slba all) h hsend rfl (sendRun_starts _ hslot hz)
  · -- REPORT ZONES
    intro s u c e slot slba zrasf z0 maxDesc addr t part zs h hsl hslot ht hzr hr hd hz0 hzs
    refine exec_granted (reportRun c slba 0 zrasf part maxDesc addr) h (decide_eq_true hsl) rfl ?_
    subst ht hz0 hzs
    unfold reportRun
    rw [hslot]
    exact (if_neg (by omega)).trans ((if_neg (Nat.not_le.mpr hr)).trans (State.dataStage_of hd))

end Sys2Proof
end

section
/-! SUPPORT. The granted admin commands on firmware and media: the row's meaning where its checks pass. -/

namespace Sys2Proof.Machine

section
variable {s u : State} {c : NvmeCmd} {e : Sqe}

/-- FIRMWARE IMAGE DOWNLOAD of whole pages that overlap none held. -/
theorem downloadRun_adds {ofst : Nat} {data : List Byte} (ho : ofst % 4096 = 0) (hl : data.length % 4096 = 0) (h0 : data.length ≠ 0)
    (hmax : ofst + data.length ≤ 8388608)
    (hover : ∀ p ∈ u.hem.download, ofst + data.length ≤ p.1 * 4096 ∨ (p.1 + p.2) * 4096 ≤ ofst) (hd : dataFaults c 0 0 = []) :
    downloadRun c ofst data u = ({ u with
      hem.download := u.hem.download ++ [(ofst / 4096, data.length / 4096)]
      hem.downloadHdr := if ofst = 0 then headerTwin data else u.hem.downloadHdr } : State).okCmd c := by
  have hfree : (u.hem.download.any fun p => decide (p.1 * 4096 < ofst + data.length ∧ ofst < (p.1 + p.2) * 4096)) = false := by
    refine List.any_eq_false.mpr fun p hp k => ?_
    have hk := of_decide_eq_true k
    rcases hover p hp with h | h <;> omega
  unfold downloadRun
  refine (if_neg (by omega)).trans ((if_neg (by rw [hfree]; decide)).trans ?_)
  exact State.dataStage_of hd

/-- With no activation in progress, FIRMWARE COMMIT is taken. -/
theorem exec_firmwareCommit {v : State} {ca : BitVec 3} {fs verdict : Nat} (h : s.Granted c e 0x10#8 u) (ha : s.hem.actStep = 0)
    (hfs : e.dw10.toNat % 8 = fs) (hca : e.dw10.extractLsb' 3 3 = ca) (hv : commitRun c ca fs verdict true u = v) :
    exec (.firmwareCommit c ca fs verdict true) s = .next v.after := by
  have hx : exec (.firmwareCommit c ca fs verdict true) s = settled (rowFirmwareCommit c ca fs verdict true s) := rfl
  rw [hx, rowFirmwareCommit, if_neg (not_not.mpr ha), State.onGrant_of h (decide_eq_true ⟨hfs, hca⟩), hv]
  rfl

/-- The state FIRMWARE COMMIT works on: the download buffer is emptied. -/
def State.downloadTaken (u : State) : State := { u with hem.download := [], hem.downloadHdr := (default : Twin) }

/-- FIRMWARE COMMIT of a sound twin with action 2 selects it. -/
theorem commitRun_selects {fs slot : Nat} (verdict : Nat) (hfs : fs ≤ 2) (hslot : slot = if fs = 0 then u.otherTwin else fs)
    (hew : u.supply.ewLatched = false) (hrun : slot ≠ u.hem.running) (hst : (u.twin slot).st = 3 ∨ (u.twin slot).st = 6)
    (hsvn : u.hem.minSvn ≤ (u.twin slot).svn) :
    commitRun c 2#3 fs verdict true u = (u.downloadTaken.selectNext slot).okCmd c := by
  unfold commitRun
  dsimp only
  rw [← hslot]
  refine (if_neg (not_or.mpr ⟨Nat.not_lt.mpr hfs, by decide⟩)).trans ((if_neg (ne_true_of_eq_false hew)).trans ?_)
  exact (if_neg (by simpa using hrun)).trans ((if_neg (show ¬ ((u.twin slot).st ≠ 3 ∧ (u.twin slot).st ≠ 6) by omega)).trans
    ((if_neg (Nat.not_lt.mpr hsvn)).trans rfl))

/-- FIRMWARE COMMIT of a sound twin with action 3 starts the activation where no other function needs a reset. -/
theorem commitRun_activates {fs slot : Nat} (verdict : Nat) (hfs : fs ≤ 2) (hslot : slot = if fs = 0 then u.otherTwin else fs)
    (hew : u.supply.ewLatched = false) (hrun : slot ≠ u.hem.running) (hst : (u.twin slot).st = 3 ∨ (u.twin slot).st = 6)
    (hsvn : u.hem.minSvn ≤ (u.twin slot).svn) (hfree : u.downloadTaken.resetFree = true)
    (hsb : u.downloadTaken.standby.isSome = true) :
    commitRun c 3#3 fs verdict true u = u.downloadTaken.startActivation none (some (c.fn, c.cid)) verdict := by
  unfold commitRun
  dsimp only
  rw [← hslot]
  refine (if_neg (not_or.mpr ⟨Nat.not_lt.mpr hfs, by decide⟩)).trans ((if_neg (ne_true_of_eq_false hew)).trans ?_)
  refine (if_neg (by simpa using hrun)).trans ((if_neg (show ¬ ((u.twin slot).st ≠ 3 ∧ (u.twin slot).st ≠ 6) by omega)).trans
    ((if_neg (Nat.not_lt.mpr hsvn)).trans ?_))
  have hn : u.downloadTaken.standby.isNone = false := by rw [← Option.not_isSome, hsb]; rfl
  have hno : ¬ ((!u.downloadTaken.resetFree) = true ∨ u.downloadTaken.standby.isNone = true) := by simp [hfree, hn]
  exact if_neg hno

/-- FIRMWARE COMMIT with action 0 or 1 writes the downloaded image to a twin and verifies it. -/
theorem commitRun_writes {ca : BitVec 3} {fs slot : Nat} {w : State} (verdict : Nat) (hfs : fs ≤ 2)
    (hslot : slot = if fs = 0 then u.otherTwin else fs) (hew : u.supply.ewLatched = false) (hrun : slot ≠ u.hem.running)
    (hca : ca.toNat ≤ 1)
    (hw : (({ u.downloadTaken with hem.session := none } : State).setTwin slot
      { u.hem.downloadHdr with st := 1, whole := u.downloadFull }).verifyTwin slot u.downloadFull verdict = (0, w)) :
    commitRun c ca fs verdict true u = (if ca = 1#3 then w.selectNext slot else w).okCmd c := by
  have hcases : ca = 0#3 ∨ ca = 1#3 := by
    revert hca; revert ca; decide
  unfold commitRun
  dsimp only
  rw [← hslot]
  refine (if_neg (not_or.mpr ⟨Nat.not_lt.mpr hfs, by omega⟩)).trans ((if_neg (ne_true_of_eq_false hew)).trans ?_)
  rcases hcases with rfl | rfl
  · refine (if_neg (by simpa using hrun)).trans ?_
    refine (congrArg (fun p : Nat × State => if p.1 = 5 then p.2.failCmd c.fn c nvFwProhibited else if p.1 ≠ 0 then
      p.2.failCmd c.fn c nvFwImage else p.2.okCmd c) hw).trans rfl
  · refine (if_neg (by simpa using hrun)).trans ?_
    refine (congrArg (fun p : Nat × State => if p.1 = 5 then p.2.failCmd c.fn c nvFwProhibited else if p.1 ≠ 0 then
      p.2.failCmd c.fn c nvFwImage else (p.2.selectNext slot).okCmd c) hw).trans rfl

/-- FORMAT NVM starts the format of the namespaces named. -/
theorem formatNvmRun_starts {lbaf ses slot ns : Nat} (hemOk : Bool) (hl : lbaf ≤ 1) (hs : ses ≤ 2) (hc : ses = 2 → u.cipher = true)
    (hslot : u.tenantOf c.fn = some slot)
    (hns : ns = if c.nsid = 0xFFFFFFFF#32 then (if u.nsze (u.tenantD slot) 1 = 0 then 0 else 1) +
      (if u.nsze (u.tenantD slot) 2 = 0 then 0 else 2) else c.nsid.toNat)
    (hf : (u.tenantD slot).formatting ≠ 1) (hew : u.supply.ewLatched = false) :
    formatNvmRun c lbaf ses false 0 false hemOk u =
      (u.formatStart slot ns ses lbaf hemOk none (some (c.fn, c.cid))).formatGo slot := by
  have hok : ¬ (1 < lbaf ∨ 0 ≠ 0 ∨ false = true ∨ false = true ∨ 2 < ses ∨ (ses = 2 ∧ (!u.cipher) = true)) := by
    rintro (h | h | h | h | h | ⟨h, k⟩)
    · omega
    · exact h rfl
    · cases h
    · cases h
    · omega
    · rw [hc h] at k; cases k
  unfold formatNvmRun
  rw [hslot, hns]
  exact (if_neg hok).trans ((if_neg hf).trans (if_neg (ne_true_of_eq_false hew)))

/-- SANITIZE with an erase action starts that sanitise. -/
theorem sanitizeRun_starts {sanact : Nat} {ause : Bool} (hemOk : Bool) (hc : sanact = 4 → u.cipher = true)
    (hrun : u.san.s.running = false) (hfail : (u.san.s.failMode && u.san.s.failRestricted && ause) = false) (ha : u.hem.actStep = 0)
    (hform : ∀ p ∈ u.host.tenants, p.2.formatting ≠ 1) (hew : u.supply.ewLatched = false) :
    sanitizeRun c sanact ause false hemOk u = (u.sanitiseStart sanact ause (BitVec.ofNat 32 (sanact + if ause then 8 else 0))
      none (some (c.fn, c.cid)) hemOk).sanitiseGo := by
  have hok : ¬ (false = true ∨ (sanact = 4 ∧ (!u.cipher) = true)) := by
    rintro (h | ⟨h, k⟩)
    · cases h
    · rw [hc h] at k; cases k
  have hidle : ¬ (u.hem.actStep ≠ 0 ∨ (u.host.tenants.any fun p => decide (p.2.formatting = 1)) = true) := by
    rintro (h | h)
    · exact h ha
    · obtain ⟨p, hp, hk⟩ := List.any_eq_true.mp h
      exact hform p hp (of_decide_eq_true hk)
  unfold sanitizeRun
  exact (if_neg hok).trans ((if_neg (ne_true_of_eq_false hrun)).trans ((if_neg (ne_true_of_eq_false hfail)).trans
    ((if_neg hidle).trans (if_neg (ne_true_of_eq_false hew)))))

end

end Sys2Proof.Machine
end

section
/-! The statement about the admin commands on firmware and media. -/

namespace Sys2Proof

open Machine

/-- Settles O34: each command is taken from the grants, and its checks pass. -/
theorem adminMediaCommands : Obligations.AdminMediaCommands := by
  unfold Obligations.AdminMediaCommands
  refine ⟨?_, ?_, ?_, ?_, ?_, ?_, ?_, ?_⟩
  · -- FIRMWARE IMAGE DOWNLOAD
    intro s u c e ofst data h ho hl ho4 hl4 hmax hover hd
    have hx : exec (.firmwareImageDownload c ofst data) s = execFirmwareImageDownload c ofst data s := rfl
    rw [hx, execFirmwareImageDownload, State.onGrant_of h (decide_eq_true ⟨ho, hl⟩),
      downloadRun_adds ho4 hl4 (by omega) hmax hover hd]
  · -- FIRMWARE COMMIT with action 2
    intro s u v c e ca fs slot verdict h ha hfs hca hle hslot hv hew hrun hca2 hst hsvn
    subst hca2 hv
    exact exec_firmwareCommit h ha hfs hca (commitRun_selects verdict hle hslot hew hrun hst hsvn)
  · -- FIRMWARE COMMIT with action 3
    intro s u v c e ca fs slot verdict h ha hfs hca hle hslot hv hew hrun hca3 hst hsvn hfree hsb
    subst hca3 hv
    exact exec_firmwareCommit h ha hfs hca (commitRun_activates verdict hle hslot hew hrun hst hsvn hfree hsb)
  · -- FIRMWARE COMMIT with action 0 or 1
    intro s u v w c e ca fs slot verdict h ha hfs hca hle hslot hv hew hrun hca1 hw
    subst hv
    exact exec_firmwareCommit h ha hfs hca (commitRun_writes verdict hle hslot hew hrun hca1 hw)
  · -- FORMAT NVM
    intro s u c e lbaf ses slot ns hemOk h hl hs h4 h5 h8 hl1 hs2 hc hslot hns hf hew
    exact exec_granted (formatNvmRun c lbaf ses false 0 false hemOk) h (decide_eq_true ⟨hl, hs, h4, h5, h8⟩) rfl
      (formatNvmRun_starts hemOk hl1 hs2 hc hslot hns hf hew)
  · -- SANITIZE, block erase
    intro s u c e ause hemOk h hsel hrun hfail ha hform hew
    exact exec_granted (sanitizeRun c 2 ause false hemOk) h hsel rfl
      (sanitizeRun_starts hemOk (fun k => absurd k (by decide)) hrun hfail ha hform hew)
  · -- SANITIZE, crypto erase
    intro s u c e ause hemOk h hsel hc hrun hfail ha hform hew
    exact exec_granted (sanitizeRun c 4 ause false hemOk) h hsel rfl
      (sanitizeRun_starts hemOk (fun _ => hc) hrun hfail ha hform hew)
  · -- SANITIZE, exit failure mode
    intro s u c e h hsel hrun hfail
    refine exec_granted (exitFailureRun c) h (decide_eq_true hsel) rfl ?_
    exact (if_neg (ne_true_of_eq_false hrun)).trans (if_neg (ne_true_of_eq_false hfail))

end Sys2Proof
end

section
/-! SUPPORT. The creation and deletion of I/O queues where their checks pass (R239, R254). -/

namespace Sys2Proof.Machine

section
variable {u : State} {c : NvmeCmd} {qid qsize prp1 : Nat}

theorem createVerdict_none {n : Nat} {used : Bool} (h1 : 1 ≤ qid) (h2 : qid ≤ n) (hu : used = false) (h3 : 1 ≤ qsize)
    (h4 : qsize ≤ 4095) (h5 : prp1 % 4096 = 0) : createVerdict n qid qsize prp1 used true = none := by
  subst hu
  unfold createVerdict
  rw [if_neg (by simp; omega), if_neg (by omega), if_neg (by simp [h5])]

/-- CREATE I/O SUBMISSION QUEUE adds the queue. -/
theorem createSqRun_adds {cqid : Nat} (qprio : BitVec 2)
    (hv : createVerdict (u.tenantD ((u.tenantOf c.fn).getD 1024)).pairsInForce qid qsize prp1 ((u.fn c.fn).sq qid).isSome true = none)
    (h0 : cqid ≠ 0) (hcq : ((u.fn c.fn).cq cqid).isSome = true) :
    createSqRun c qid qsize true prp1 cqid qprio u = (u.updFn c.fn (fun x => { x with
      sqs := x.sqs ++ [{ (default : Sq) with
        qid := qid, base := prp1, size := qsize + 1, cqid := cqid, prio := qprio.toNat, st := .active }] })).okCmd c := by
  have hok : ¬ (cqid = 0 ∨ ((u.fn c.fn).cq cqid).isNone = true) := by
    rw [← Option.not_isSome, hcq]
    simpa using h0
  unfold createSqRun
  dsimp only
  rw [hv]
  exact if_neg hok

/-- CREATE I/O COMPLETION QUEUE adds the queue. -/
theorem createCqRun_adds {ien : Bool} {iv : Nat}
    (hv : createVerdict (u.tenantD ((u.tenantOf c.fn).getD 1024)).pairsInForce qid qsize prp1 ((u.fn c.fn).cq qid).isSome true = none)
    (hi : ien = false ∨ (u.blockOf c.fn iv).isSome = true) :
    createCqRun c qid qsize true prp1 ien iv u = (u.updFn c.fn (fun x => { x with
      cqs := x.cqs ++ [{ (default : Cq) with
        qid := qid, base := prp1, size := qsize + 1, ien := ien, iv := iv, phase := true }] })).okCmd c := by
  have hok : ¬ (ien = true ∧ (u.blockOf c.fn iv).isNone = true) := by
    rw [← Option.not_isSome]
    rcases hi with h | h <;> simp [h]
  unfold createCqRun
  dsimp only
  rw [hv]
  exact if_neg hok

end

end Sys2Proof.Machine
end

section
/-! The statement about the creation and deletion of queues. -/

namespace Sys2Proof

open Machine

/-- Settles O35: each command is taken from the grants, and its checks pass. -/
theorem queueCreation : Obligations.QueueCreation := by
  unfold Obligations.QueueCreation
  refine ⟨?_, ?_, ?_, ?_⟩
  · -- CREATE I/O SUBMISSION QUEUE
    intro s u c e qid qsize prp1 cqid qprio h hdw hpc hprio hcqid h1 h2 hfree h3 h4 h5 h0 hcq
    exact exec_granted (createSqRun c qid qsize true prp1 cqid qprio) h (decide_eq_true ⟨hdw, hpc, hprio, hcqid⟩) rfl
      (createSqRun_adds qprio (createVerdict_none h1 h2 hfree h3 h4 h5) h0 hcq)
  · -- CREATE I/O COMPLETION QUEUE
    intro s u c e qid qsize prp1 iv ien h hdw hpc hien hiv h1 h2 hfree h3 h4 h5 hi
    exact exec_granted (createCqRun c qid qsize true prp1 ien iv) h (decide_eq_true ⟨hdw, hpc, hien, hiv⟩) rfl
      (createCqRun_adds (createVerdict_none h1 h2 hfree h3 h4 h5) hi)
  · -- DELETE I/O SUBMISSION QUEUE
    intro s u c e qid q h hdw h0 hq hst
    have hok : ¬ (qid = 0 ∨ q.st = .deleting) := by simp [h0, hst]
    refine exec_granted (deleteSqRun c qid) h (decide_eq_true hdw) rfl ?_
    unfold deleteSqRun
    rw [hq]
    exact if_neg hok
  · -- DELETE I/O COMPLETION QUEUE
    intro s u c e qid h hdw h0 hcq hsq
    have hok : ¬ (qid = 0 ∨ ((u.fn c.fn).cq qid).isNone = true) := by
      rw [← Option.not_isSome, hcq]
      simpa using h0
    refine exec_granted (deleteCqRun c qid) h (decide_eq_true hdw) rfl ?_
    exact (if_neg hok).trans (if_neg (ne_true_of_eq_false hsq))

end Sys2Proof
end

section
/-! SUPPORT. Get and Set Features where their checks pass (R258). -/

namespace Sys2Proof.Machine

section
variable {s u : State} {c : NvmeCmd} {e : Sqe} {op : BitVec 8} {fid : Nat} {dw11 : BitVec 32}

theorem State.Granted.pow (h : s.Granted c e op u) : u.pow = s.pow := by
  obtain ⟨-, -, -, -, hu⟩ := h
  have k := congrArg (fun v : State => v.pow) hu
  exact k

/-- A Set Features whose function, SV, NSID and value are in order sets its feature. -/
theorem setFeature_sets {sv valid hemOk : Bool} (act : State → State) (hf : featureIds.contains fid = true)
    (hm : managerFeatures.contains fid = true → u.isManager c.fn = true)
    (hsv : sv = true → saveableFeatures.contains fid = true ∧ u.supply.ewLatched = false ∧ hemOk = true)
    (hns : c.nsid = 0#32 ∨ c.nsid = 0xFFFFFFFF#32) (hv : valid = true) : setFeature c fid sv valid hemOk act u = act u := by
  have h1 : ¬ ((!featureIds.contains fid) = true ∨ (managerFeatures.contains fid && !u.isManager c.fn) = true) := by
    cases hk : managerFeatures.contains fid with
    | false => rw [hf]; simp
    | true => rw [hf, hm hk]; decide
  have h2 : ¬ (c.nsid ≠ 0#32 ∧ c.nsid ≠ 0xFFFFFFFF#32) := fun k => hns.elim k.1 k.2
  unfold setFeature
  cases sv with
  | false => rw [if_neg h1, if_neg (by simp), if_neg h2, if_neg (by simp [hv]), if_neg (by simp), if_neg (by simp)]
  | true =>
    obtain ⟨hsave, hew, hok⟩ := hsv rfl
    rw [if_neg h1, if_neg (by rw [hsave]; decide), if_neg h2, if_neg (by simp [hv]), if_neg (by simp [hew]), if_neg (by simp [hok])]

/-- `setFeature_sets` for a feature that is not saved. -/
theorem State.setOne_sets {valid : State → Bool} (act : State → State) (h : s.Granted c e 0x09#8 u) (hsel : setInEntry fid dw11 e = true)
    (hsv : svOf e = false) (hns : c.nsid = 0#32 ∨ c.nsid = 0xFFFFFFFF#32) (hf : featureIds.contains fid = true)
    (hm : managerFeatures.contains fid = true → u.isManager c.fn = true) (hv : valid u = true) :
    s.setOne c fid dw11 valid act = act u := by
  refine (State.onAdmin_of h hsel).trans (setFeature_sets act hf hm ?_ hns hv)
  rw [hsv]
  exact nofun

/-- A saveable feature of the manager is set. -/
theorem saveable_sets {sv valid hemOk : Bool} (act : State → State) (hf : featureIds.contains fid = true)
    (hsave : saveableFeatures.contains fid = true) (hman : u.isManager c.fn = true)
    (hsv : sv = true → u.supply.ewLatched = false ∧ hemOk = true) (hns : c.nsid = 0#32 ∨ c.nsid = 0xFFFFFFFF#32)
    (hv : valid = true) : setFeature c fid sv valid hemOk act u = act u :=
  setFeature_sets act hf (fun _ => hman) (fun k => ⟨hsave, hsv k⟩) hns hv

/-- A feature without a row of its own is taken. -/
theorem exec_setFeatures {v : State} {dw12 : BitVec 32} {data : List Byte} (h : s.Granted c e 0x09#8 u)
    (hsel : setInEntry fid dw11 e = true) (hdw12 : e.dw12 = dw12) (hsv : svOf e = false)
    (hp : [0x05, 0x0B, 0x16, 0x1D].contains fid = true) (hv : plainFeature c fid false dw11 dw12 data u = v) :
    exec (.setFeatures c fid false dw11 dw12 data) s = .next v.after := by
  refine exec_granted (plainFeature c fid false dw11 dw12 data) h ?_ rfl hv
  rw [hsel, hp, decide_eq_true ⟨hdw12, hsv⟩, Bool.or_true]
  rfl

section
variable {dw12 : BitVec 32} {data : List Byte} (hns : c.nsid = 0#32 ∨ c.nsid = 0xFFFFFFFF#32)
include hns

/-- A feature of every function that is not saved is set. -/
theorem plain_sets {valid : Bool} (g : Fn → Fn) (hf : featureIds.contains fid = true) (hm : managerFeatures.contains fid = false)
    (hv : valid = true) : setFeature c fid false valid true (fun s => (s.updFn c.fn g).okCmd c) u = (u.updFn c.fn g).okCmd c :=
  setFeature_sets _ hf (fun hk => by rw [hm] at hk; cases hk) nofun hns hv

theorem plainFeature_tler (hlt : dw11.toNat < 65536) : plainFeature c 0x05 false dw11 dw12 data u =
    (u.updFn c.fn (fun x => { x with tler := dw11.extractLsb' 0 16 })).okCmd c :=
  plain_sets hns _ rfl rfl (decide_eq_true hlt)

theorem plainFeature_aec (hz : dw11 &&& ~~~0x080003FF#32 = 0#32) : plainFeature c 0x0B false dw11 dw12 data u =
    (u.updFn c.fn (fun x => { x with aec := dw11 })).okCmd c :=
  plain_sets hns _ rfl rfl (decide_eq_true hz)

theorem plainFeature_acre (hz : dw11 = 0#32) (hdata : (data.headD 0#8).toNat ≤ 1) (hd : dataFaults c 0 0 = []) :
    plainFeature c 0x16 false dw11 dw12 data u =
      (u.updFn c.fn (fun x => { x with acre := decide (data.headD 0#8 = 1#8) })).okCmd c := by
  unfold plainFeature
  dsimp only
  rw [State.dataStage_of hd]
  refine plain_sets hns _ rfl rfl ?_
  rw [hz, decide_eq_true hdata]
  rfl

theorem plainFeature_sgl (h1 : dw12 = 1#32) : plainFeature c 0x1D false dw11 dw12 data u = (u.updFn c.fn id).okCmd c :=
  plain_sets hns _ rfl rfl (decide_eq_true h1)

end

/-- With no transition in progress, SET FEATURES of power management is taken. -/
theorem exec_setPowerManagement {v : State} (h : s.Granted c e 0x09#8 u) (hsel : setInEntry 0x02 dw11 e = true) (hsv : svOf e = false)
    (hns : c.nsid = 0#32 ∨ c.nsid = 0xFFFFFFFF#32) (hman : u.isManager c.fn = true) (hstep : s.pow.step = .none)
    (hn : dw11.toNat ≤ 4) (h3 : dw11.toNat = 3 → u.pow.polFlags % 2 = 1) (h4 : dw11.toNat = 4 → u.pow.polFlags / 2 % 2 = 1)
    (hv : setPsRun c dw11.toNat u = v) : exec (.setPowerManagement c dw11) s = .next v.after := by
  have hmod : dw11.toNat % 32 = dw11.toNat := Nat.mod_eq_of_lt (by omega)
  have hx : exec (.setPowerManagement c dw11) s = execSetPowerManagement c dw11 s := rfl
  rw [hx]
  unfold execSetPowerManagement
  dsimp only
  rw [hstep, if_neg (by decide), hmod, State.setOne_sets _ h hsel hsv hns rfl (fun _ => hman), hv]
  · rfl
  · have h5 : dw11.toNat < 2 ^ 5 := by omega
    simp [zeroFrom, hn]
    omega

/-- An operational state is set at once where it is the one the device is in. -/
theorem setPsRun_same {n : Nat} (hn : n ≤ 2) (hstep : u.pow.step = .none)
    (ho : ({ u with pow.opPs := n, pow.target := none, pow.attempts := 0, pow.held := none, pow.step := .none } : State).opState =
      u.pow.ps) :
    setPsRun c n u = ({ u with pow.opPs := n, pow.target := none, pow.attempts := 0, pow.held := none } : State).okCmd c := by
  have heq : ({ u with pow.opPs := n, pow.target := none, pow.attempts := 0, pow.held := none, pow.step := .none } : State) =
      { u with pow.opPs := n, pow.target := none, pow.attempts := 0, pow.held := none } :=
    congrArg (fun k => ({ u with pow.opPs := n, pow.target := none, pow.attempts := 0, pow.held := none, pow.step := k } : State))
      hstep.symm
  unfold setPsRun
  exact (if_neg (by omega)).trans ((if_pos ho).trans (congrArg (fun v : State => v.okCmd c) heq))

/-- Features without a data structure. -/
theorem State.featureData_none {f : FnId} {sel v : Nat} (h1 : fid ≠ 0x0C) (h2 : fid ≠ 0x0E) (h3 : fid ≠ 0x16) :
    u.featureData f fid sel v = none := by
  unfold State.featureData
  split
  · exact absurd rfl h1
  · exact absurd rfl h2
  · exact absurd rfl h3
  · rfl

/-- The value that a Get Features with SEL 0, 1 or 2 gives. -/
def State.featureValue (u : State) (f : FnId) (fid sel : Nat) (dw11 : BitVec 32) : BitVec 32 :=
  if sel = 0 then u.featureNow f fid dw11 else if sel = 1 then featureDefault fid dw11 else u.featureSaved fid dw11

/-- GET FEATURES of a value without a data structure. -/
theorem getFeaturesRun_value {sel addr : Nat} (hf : featureIds.contains fid = true) (hsel : sel ≤ 2)
    (h4 : fid = 0x04 → fieldLE dw11 2 1 % 16 ≤ 2 ∧ fieldLE dw11 2 1 / 16 % 4 ≤ 1) (hts : fid ≠ 0x0E)
    (hd : u.featureData c.fn fid sel 0 = none) :
    getFeaturesRun c fid sel dw11 addr u = u.okCmd c (u.featureValue c.fn fid sel dw11) (u.featureSecond fid sel) := by
  unfold getFeaturesRun
  dsimp only
  rw [if_neg (by rw [hf]; simp; omega), if_neg (fun k => by have := h4 k.1; omega), if_neg (by omega), if_neg (fun k => hts k.1), hd]
  rfl

/-- GET FEATURES of a value with a data structure. -/
theorem getFeaturesRun_data {sel addr : Nat} {b : List Byte} (hf : featureIds.contains fid = true) (hsel : sel ≤ 2)
    (h4 : fid = 0x04 → fieldLE dw11 2 1 % 16 ≤ 2 ∧ fieldLE dw11 2 1 / 16 % 4 ≤ 1) (hts : fid ≠ 0x0E)
    (hd : u.featureData c.fn fid sel 0 = some b) :
    getFeaturesRun c fid sel dw11 addr u = u.sendData c addr b (fun s => s.okCmd c (u.featureValue c.fn fid sel dw11)) := by
  unfold getFeaturesRun
  dsimp only
  rw [if_neg (by rw [hf]; simp; omega), if_neg (fun k => by have := h4 k.1; omega), if_neg (by omega), if_neg (fun k => hts k.1), hd]
  rfl

end

end Sys2Proof.Machine
end

section
/-! The statement about Get and Set Features. -/

namespace Sys2Proof

open Machine

/-- Settles O36: each row's command is taken and its checks pass; the value set is then the row's own. -/
theorem featureCommands : Obligations.FeatureCommands := by
  unfold Obligations.FeatureCommands
  refine ⟨?_, ?_, ?_, ?_, ?_, ?_, ?_, ?_, ?_, ?_, ?_, ?_, ?_, ?_, ?_, ?_, ?_, ?_, ?_, ?_⟩
  · -- SET FEATURES 05h, 0Bh, 16h and 1Dh
    intro s u c e dw11 dw12 data fid g h hsel hdw12 hsv hns hg
    rcases hg with ⟨rfl, hlt, rfl⟩ | ⟨rfl, hz, rfl⟩ | ⟨rfl, hz, hdata, hd, rfl⟩ | ⟨rfl, h1, rfl⟩
    · exact exec_setFeatures h hsel hdw12 hsv rfl (plainFeature_tler hns hlt)
    · exact exec_setFeatures h hsel hdw12 hsv rfl (plainFeature_aec hns hz)
    · exact exec_setFeatures h hsel hdw12 hsv rfl (plainFeature_acre hns hz hdata hd)
    · exact exec_setFeatures h hsel hdw12 hsv rfl (plainFeature_sgl hns h1)
  · -- GET FEATURES of a value
    intro s u c e fid sel addr dw11 h hsel hs8 hf hs2 h4 hC hE h16
    refine exec_granted (getFeaturesRun c fid sel dw11 addr) h (by rw [hsel, decide_eq_true hs8]; rfl) rfl ?_
    exact getFeaturesRun_value hf hs2 h4 hE (State.featureData_none hC hE h16)
  · -- GET FEATURES of the transition table
    intro s u c e sel addr dw11 h hsel hs8 hs2 hd
    refine exec_granted (getFeaturesRun c 0x0C sel dw11 addr) h (by rw [hsel, decide_eq_true hs8]; rfl) rfl ?_
    exact (getFeaturesRun_data (fid := 0x0C) rfl hs2 (fun k => absurd k (by decide)) (by decide) rfl).trans (State.dataStage_of hd)
  · -- GET FEATURES of the capabilities
    intro s u c e fid addr dw11 h hsel hs8 hf h4
    refine exec_granted (getFeaturesRun c fid 3 dw11 addr) h (by rw [hsel, decide_eq_true hs8]; rfl) rfl ?_
    unfold getFeaturesRun
    rw [if_neg (by rw [hf]; simp), if_neg (fun k => by have := h4 k.1; omega), if_pos rfl]
  · -- SET FEATURES of arbitration
    intro s u c e dw11 h hsel hsv hns hz
    exact congrArg (fun v => settled (.next v)) (State.setOne_sets _ h hsel hsv hns rfl nofun (decide_eq_true hz))
  · -- SET FEATURES of power management, the state the device is in
    intro s u c e dw11 h hsel hsv hns hman hstep hn ho
    rw [← h.pow] at ho
    exact exec_setPowerManagement h hsel hsv hns hman hstep (by omega) (fun k => by omega) (fun k => by omega)
      (setPsRun_same hn (h.pow ▸ hstep) ho)
  · -- SET FEATURES of power management, another operational state
    intro s u v c e dw11 h hsel hsv hns hman hstep hn hv ho
    rw [← h.pow] at ho
    refine exec_setPowerManagement h hsel hsv hns hman hstep (by omega) (fun k => by omega) (fun k => by omega) ?_
    subst hv
    exact (if_neg (by omega)).trans (if_neg ho)
  · -- SET FEATURES of power management, a non-operational state
    intro s u c e dw11 h hsel hsv hns hman hstep hn
    exact exec_setPowerManagement h hsel hsv hns hman hstep (by omega) (fun k => by omega) (fun k => by omega) (if_pos (by omega))
  · -- SET FEATURES of an over-temperature threshold
    intro s u c e sel k dw11 h hsel hsv hns hman hlt hs hs2 hth hk
    subst hs hk
    refine congrArg (fun v => settled (.next v)) ((State.setOne_sets _ h hsel hsv hns rfl (fun _ => hman) ?_).trans
      (congrArg (fun v : State => (v.okCmd c).watchFeature) (if_pos hth)))
    simp only [zeroFrom, Bool.and_eq_true, decide_eq_true_eq]
    omega
  · -- SET FEATURES of an under-temperature threshold
    intro s u c e sel k dw11 h hsel hsv hns hman hlt hs hs2 hth hk
    subst hs hk
    refine congrArg (fun v => settled (.next v)) ((State.setOne_sets _ h hsel hsv hns rfl (fun _ => hman) ?_).trans
      (congrArg (fun v : State => (v.okCmd c).watchFeature) (if_neg (by omega))))
    simp only [zeroFrom, Bool.and_eq_true, decide_eq_true_eq]
    omega
  · -- SET FEATURES of the number of queues
    intro s u c e dw11 h hsel hsv hns hsq hcq
    refine congrArg (fun v => settled (.next v)) ((State.setOne_sets _ h hsel hsv hns rfl nofun rfl).trans (if_neg ?_))
    simp only [Bool.or_eq_true, List.any_eq_true, decide_eq_true_eq]
    rintro (⟨q, hq, k⟩ | ⟨q, hq, k⟩)
    · exact k (hsq q hq)
    · exact k (hcq q hq)
  · -- SET FEATURES of interrupt coalescing
    intro s u c e dw11 h hsel hsv hns hlt
    exact congrArg (fun v => settled (.next v)) (State.setOne_sets _ h hsel hsv hns rfl nofun (decide_eq_true hlt))
  · -- SET FEATURES of the interrupt vector configuration
    intro s u c e v dw11 h hsel hsv hns hlt hv hb
    subst hv
    refine congrArg (fun v => settled (.next v)) (State.setOne_sets _ h hsel hsv hns rfl nofun ?_)
    rw [hb, zeroFrom, decide_eq_true hlt]
    rfl
  · -- SET FEATURES of autonomous transitions
    intro s u c e sv hemOk dw11 table h hsel hsv hns hman hlt htab hd hsave
    have hx : exec (.setApst c sv dw11 table hemOk) s = execSetApst c sv dw11 table hemOk s := rfl
    rw [hx, execSetApst, State.onGrant_of h (by rw [hsel, decide_eq_true hsv]; rfl)]
    refine congrArg (fun v => settled (.next v)) ((State.dataStage_of hd).trans
      ((saveable_sets _ rfl rfl hman hsave hns ?_).trans ?_))
    · rw [htab, zeroFrom, decide_eq_true (show dw11.toNat < 2 ^ 1 from hlt)]
      rfl
    · cases sv <;> rfl
  · -- SET FEATURES of the timestamp
    intro s u c e timestamp h hdw hsv hns hd
    have hx : exec (.setTimestamp c timestamp) s = execSetTimestamp c timestamp s := rfl
    rw [hx, execSetTimestamp, State.onAdmin_of h (decide_eq_true hdw), hsv]
    exact congrArg (fun v => settled (.next v)) ((State.dataStage_of hd).trans (setFeature_sets _ rfl nofun nofun hns rfl))
  · -- SET FEATURES C2h
    intro s u c e sv hemOk dw11 dw12 h hsel hdw12 hsv hns hman hsave h1 h2 h3 h4 h5 h6 h7 h8
    have hx : exec (.setDarningControl c sv dw11 dw12 hemOk) s = execSetDarningControl c sv dw11 dw12 hemOk s := rfl
    rw [hx, execSetDarningControl, State.onGrant_of h (by rw [hsel, decide_eq_true ⟨hdw12, hsv⟩]; rfl)]
    refine congrArg (fun v => settled (.next v)) ((saveable_sets _ rfl rfl hman hsave hns ?_).trans ?_)
    · simp only [within, zeroFrom, Bool.and_eq_true, decide_eq_true_eq]
      omega
    · cases sv <;> rfl
  · -- SET FEATURES C3h
    intro s u c e sv hemOk dw11 dw12 h hsel hdw12 hsv hns hman hsave h1 h2 h3 h4 h5 h6 h7 h8 h9 h10 h11 h12 h13 h14
    have hx : exec (.setReclamationControl c sv dw11 dw12 hemOk) s = execSetReclamationControl c sv dw11 dw12 hemOk s := rfl
    rw [hx, execSetReclamationControl, State.onGrant_of h (by rw [hsel, decide_eq_true ⟨hdw12, hsv⟩]; rfl)]
    refine congrArg (fun v => settled (.next v)) ((saveable_sets _ rfl rfl hman hsave hns ?_).trans ?_)
    · simp only [within, Bool.and_eq_true, decide_eq_true_eq]
      omega
    · cases sv <;> rfl
  · -- SET FEATURES C4h
    intro s u c e sv hemOk dw11 h hsel hsv hns hman hsave h1 h2 h3 h4 h5
    have hx : exec (.setChannelArbiterControl c sv dw11 hemOk) s = execSetChannelArbiterControl c sv dw11 hemOk s := rfl
    rw [hx, execSetChannelArbiterControl, State.onGrant_of h (by rw [hsel, decide_eq_true hsv]; rfl)]
    refine congrArg (fun v => settled (.next v)) ((saveable_sets _ rfl rfl hman hsave hns ?_).trans ?_)
    · simp only [within, zeroFrom, Bool.and_eq_true, decide_eq_true_eq]
      omega
    · cases sv <;> rfl
  · -- SET FEATURES C5h
    intro s u c e sv hemOk dw11 h hsel hsv hns hman hsave h1 h2 h3 h4 h5
    have hx : exec (.setIntakeArbitrationControl c sv dw11 hemOk) s = execSetIntakeArbitrationControl c sv dw11 hemOk s := rfl
    rw [hx, execSetIntakeArbitrationControl, State.onGrant_of h (by rw [hsel, decide_eq_true hsv]; rfl)]
    refine congrArg (fun v => settled (.next v)) ((saveable_sets _ rfl rfl hman hsave hns ?_).trans ?_)
    · simp only [within, Bool.and_eq_true, decide_eq_true_eq]
      omega
    · cases sv <;> rfl
  · -- SET FEATURES C6h
    intro s u c e dw11 h hsel hsv hns hlt hman
    refine congrArg (fun v => settled (.next v)) (State.setOne_sets _ h hsel hsv hns rfl nofun ?_)
    rw [zeroFrom, decide_eq_true (show dw11.toNat < 2 ^ 3 from hlt)]
    cases hb : dw11.getLsbD 0 with
    | false => rfl
    | true => rw [hman hb]; rfl

end Sys2Proof
end

section
/-! SUPPORT. Get Log Page and Abort where their checks pass (R253, R259). -/

namespace Sys2Proof.Machine

section
variable {s u : State} {c : NvmeCmd} {e : Sqe} {op : BitVec 8}

/-- A granted command's row that reads its entry, with the work that waits on commands ending. -/
theorem exec_grantedEntry {i : Instr} {v : State} {sel : Sqe → Bool} (act : Sqe → State → State) (h : s.Granted c e op u)
    (hs : sel e = true) (hx : exec i s = .next (s.onAdmin c op sel act).after) (hv : act e u = v) : exec i s = .next v.after := by
  rw [hx, State.onAdmin_of h hs, hv]

/-- Get Log Page of a page there is, from an offset within it. -/
theorem getLogRun_sends {lid lsi addr off : Nat} {rae : Bool} {page : List Byte} (hlid : lid = 0x02 → u.composite ≠ none)
    (hp : u.logData c.fn lid lsi 0 = .inr page) (hoff : off = e.dw12.toNat + e.dw13.toNat * 2 ^ 32) (h4 : off % 4 = 0)
    (hlen : off ≤ page.length) (hd : dataFaults c 0 0 = []) :
    getLogRun c lid lsi rae addr e u =
      ((u.emit (.mem c.fn.port addr ((page.drop off).take e.xfer))).logRead c.fn lid rae).okCmd c := by
  subst hoff
  have hno : ¬ ((e.dw12.toNat + e.dw13.toNat * 2 ^ 32) % 4 ≠ 0 ∨ page.length < e.dw12.toNat + e.dw13.toNat * 2 ^ 32) :=
    not_or.mpr ⟨not_not.mpr h4, Nat.not_lt.mpr hlen⟩
  unfold getLogRun
  dsimp only
  rw [if_neg (fun k => hlid k.1 k.2)]
  dsimp only
  rw [hp]
  dsimp only
  rw [if_neg hno]
  exact State.dataStage_of hd

/-- The waiting command that an Abort names. -/
def State.abortTarget (u : State) (f : FnId) (sqid acid : Nat) : Option Fetched :=
  if sqid = 0 then none else ((u.fn f).sq sqid).bind (fun q => q.pre.find? (fun e => decide (e.sqe.cmd.cid = acid)))

theorem State.abortTarget_none {f : FnId} {sqid acid : Nat}
    (h : sqid = 0 ∨ ∀ q, (u.fn f).sq sqid = some q → q.pre.find? (fun x => decide (x.sqe.cmd.cid = acid)) = none) :
    u.abortTarget f sqid acid = none := by
  unfold State.abortTarget
  split
  · rfl
  · rename_i h0
    cases hq : (u.fn f).sq sqid with
    | none => rfl
    | some q => exact h.resolve_left h0 q hq

theorem State.abortTarget_some {f : FnId} {sqid acid : Nat} {q : Sq} {x : Fetched} (h0 : sqid ≠ 0) (hq : (u.fn f).sq sqid = some q)
    (hx : q.pre.find? (fun x => decide (x.sqe.cmd.cid = acid)) = some x) : u.abortTarget f sqid acid = some x := by
  unfold State.abortTarget
  rw [if_neg h0, hq]
  exact hx

/-- Abort of a command that is not waiting. -/
theorem abortRun_missed {sqid acid : Nat} (hg : u.host.granted = []) (ht : u.abortTarget c.fn sqid acid = none) :
    abortRun c sqid acid u = u.okCmd c 1#32 := by
  unfold State.abortTarget at ht
  unfold abortRun
  dsimp only
  rw [hg, ht]
  exact if_neg (by decide : ¬ 4 ≤ 0)

/-- Abort of a waiting command takes it back and ends it. -/
theorem abortRun_aborts {sqid acid : Nat} {x : Fetched} (hg : u.host.granted = []) (ht : u.abortTarget c.fn sqid acid = some x) :
    abortRun c sqid acid u = (((u.updFn c.fn (fun f => f.updSq sqid (fun q => { q with pre := q.pre.erase x }))).completeFetched
      c.fn sqid x.sqe.cmd nvAborted).okCmd c).tryFetch c.fn sqid := by
  unfold State.abortTarget at ht
  unfold abortRun
  dsimp only
  rw [hg, ht]
  exact if_neg (by decide : ¬ 4 ≤ 0)

end

end Sys2Proof.Machine
end

section
/-! The statement about Get Log Page, Identify, Abort and Asynchronous Event Request. -/

namespace Sys2Proof

open Machine

/-- Settles O37: each command is taken from the grants, and its checks pass. -/
theorem logCommands : Obligations.LogCommands := by
  unfold Obligations.LogCommands
  refine ⟨?_, ?_, ?_, ?_, ?_, ?_, ?_⟩
  · -- GET LOG PAGE
    intro s u c e lid lsi addr off rae page h hsel hlid hp hoff h4 hlen hd
    exact exec_grantedEntry (getLogRun c lid lsi rae addr) h hsel rfl (getLogRun_sends hlid hp hoff h4 hlen hd)
  · -- GET LOG PAGE of the vendor events
    intro s u c e lsi addr off rae page h hsel hp hoff h4 hlen hd
    exact exec_grantedEntry (getLogRun c 0xC7 lsi rae addr) h hsel rfl
      (getLogRun_sends (fun k => absurd k (by decide)) hp hoff h4 hlen hd)
  · -- IDENTIFY
    intro s u c e cns csi addr page h hcns hcsi hp hd
    refine exec_granted (identifyRun c cns csi addr) h (decide_eq_true ⟨hcns, hcsi⟩) rfl ?_
    unfold identifyRun
    rw [hp]
    exact State.dataStage_of hd
  · -- ABORT of a command that is not waiting
    intro s u c e sqid acid h hdw hg hq
    exact exec_granted (abortRun c sqid acid) h (decide_eq_true hdw) rfl (abortRun_missed hg (State.abortTarget_none hq))
  · -- ABORT of a waiting command
    intro s u c e sqid acid q x h hdw hg h0 hq hx
    exact exec_granted (abortRun c sqid acid) h (decide_eq_true hdw) rfl (abortRun_aborts hg (State.abortTarget_some h0 hq hx))
  · -- ASYNCHRONOUS EVENT REQUEST, with an event held
    intro s u c e x r h hlt hheld
    refine exec_granted (eventRequestRun c) (sel := fun _ => true) h rfl rfl ?_
    unfold eventRequestRun
    dsimp only
    rw [hheld]
    exact if_neg (Nat.not_le.mpr hlt)
  · -- ASYNCHRONOUS EVENT REQUEST that waits
    intro s u c e h hlt hheld
    refine exec_granted (eventRequestRun c) (sel := fun _ => true) h rfl rfl ?_
    unfold eventRequestRun
    dsimp only
    rw [hheld]
    exact if_neg (Nat.not_le.mpr hlt)

end Sys2Proof
end

section
/-! SUPPORT. Doorbells that land on a queue of a tenant's function (R233-R235, R241). -/

namespace Sys2Proof.Machine

section
variable {s u : State} {f : FnId} {qid slot v : Nat}

/-- A 32-bit doorbell of a tenant's function wakes the device and acts. -/
theorem State.doorbell_acts (act : Nat → State → State) (hf : s.fnExists f = true) (ht : s.tenantOf f = some slot) :
    s.doorbell f qid 32 v act = act slot (s.wakeUp 1 slot) := by
  unfold State.doorbell
  rw [hf, ht]
  rfl

theorem State.landTail_adds {q : Sq} (hq : (u.fn f).sq qid = some q) (hst : q.st ≠ .deleting) (hlt : v < q.size) (hne : v ≠ q.tail) :
    u.landTail f qid v = (({ u with host.captures := u.host.captures + 1 } : State).updFn f
      (fun x => x.updSq qid (fun (p : Sq) => { p with
        tail := v
        landings := p.landings ++ [((v + q.size - q.tail) % q.size, u.now)]
        capture := if q.fetchPtr = q.tail then u.host.captures else q.capture }))).fetchAllFns := by
  unfold State.landTail
  rw [hq]
  exact (if_neg hst).trans ((if_neg (Nat.not_le.mpr hlt)).trans (if_neg hne))

theorem State.landTail_outOfRange {q : Sq} (hq : (u.fn f).sq qid = some q) (hst : q.st ≠ .deleting) (hle : q.size ≤ v) :
    u.landTail f qid v = u.doorbellError f qid 0x02 1 v := by
  unfold State.landTail
  rw [hq]
  exact (if_neg hst).trans (if_pos hle)

theorem State.landHead_frees {w : State} {q : Cq} (hq : (u.fn f).cq qid = some q) (hlt : v < q.size)
    (hused : (v + q.size - q.head) % q.size ≤ q.used)
    (hw : w = ((u.updFn f (fun x => x.updCq qid (fun (q : Cq) => { q with head := v }))).drainCq q.waiting.length f qid).settleDeletes f) :
    u.landHead f qid v = if qid = 0 then w.tryFetch f 0 else w := by
  subst hw
  unfold State.landHead
  rw [hq]
  exact if_neg (by omega)

theorem State.landHead_noQueue (hq : (u.fn f).cq qid = none) : u.landHead f qid v = u.doorbellError f qid 0x01 0 v := by
  unfold State.landHead
  rw [hq]

end

end Sys2Proof.Machine
end

section
/-! The statement about the events of command intake. -/

namespace Sys2Proof

open Machine

/-- Settles O38: each row's own conditions hold. -/
theorem intakeEvents : Obligations.IntakeEvents := by
  unfold Obligations.IntakeEvents
  refine ⟨?_, ?_, ?_, ?_, ?_, ?_, ?_, ?_, ?_, ?_, ?_, ?_⟩
  · -- SQ_TAIL_DOORBELL in range
    intro s u f qid slot t n v q hf ht hu hq hst hlt hne hn
    subst hu hn
    exact congrArg (fun x => settled (.next x)) ((State.doorbell_acts _ hf ht).trans (State.landTail_adds hq hst hlt hne))
  · -- SQ_TAIL_DOORBELL out of range
    intro s u f qid slot t v q hf ht hu hq hst hle
    subst hu
    exact congrArg (fun x => settled (.next x)) ((State.doorbell_acts _ hf ht).trans (State.landTail_outOfRange hq hst hle))
  · -- CQ_HEAD_DOORBELL in range
    intro s u w f qid slot v q hf ht hu hq hlt hused hw
    subst hu
    exact congrArg (fun x => settled (.next x)) ((State.doorbell_acts _ hf ht).trans (State.landHead_frees hq hlt hused hw))
  · -- CQ_HEAD_DOORBELL of no queue
    intro s u f qid slot v hf ht hu hq
    subst hu
    exact congrArg (fun x => settled (.next x)) ((State.doorbell_acts _ hf ht).trans (State.landHead_noQueue hq))
  · -- SQE_ARRIVAL
    intro s u f qid es q hq htags hstale hne hlen hlast hes hu
    have hfits : (decide (es ≠ [] ∧ es.length + (q.tags - 1) ≤ q.fetching ∧ (q.tags = 1 → es.length = q.fetching)) &&
        es.all (fun e => decide (e.cmd.fn = f ∧ e.cmd.sqid = qid))) = true := by
      rw [decide_eq_true ⟨hne, hlen, hlast⟩, List.all_eq_true.mpr fun e he => decide_eq_true (hes e he)]
      rfl
    have hx : exec (.sqeArrival f qid es) s = execSqeArrival f qid es s := rfl
    rw [hx]
    unfold execSqeArrival
    rw [hq]
    dsimp only
    rw [hfits, if_neg (by simp [htags]), if_pos hstale, ← hu]
    rfl
  · -- ARBITER_GRANT
    intro s u t h left hu hl hm hp
    have hx : exec (.arbiterGrant t) s = execArbiterGrant t s := rfl
    rw [hx, execArbiterGrant, ← hu, hl, hm, hp]
    rfl
  · -- LONGEST_WAITER_GRANT
    intro s u t h hu hl hm hp
    have hx : exec (.longestWaiterGrant t) s = execLongestWaiterGrant t s := rfl
    rw [hx, execLongestWaiterGrant, ← hu, hl, hm, hp]
    rfl
  · -- AGE_PROMOTION
    intro s u f sqid cid slot t q isIt hu ht hq h0 hit hany hcls
    have hx : exec (.agePromotion f sqid cid t) s = execAgePromotion f sqid cid t s := rfl
    rw [hx, execAgePromotion, ← hu, ht, hq]
    subst hit
    exact (if_neg h0).trans (if_pos ⟨hany, hcls⟩)
  · -- COALESCING_TIMER, at the end of the gap
    intro s u f v t hu hgap hover
    have hx : exec (.coalescingTimer f v t) s = execCoalescingTimer f v t s := rfl
    rw [hx, execCoalescingTimer, ← hu]
    exact (if_pos hgap).trans (if_pos hover)
  · -- COALESCING_TIMER, at the aggregation time
    intro s u f v t hu hgap huns hdue
    have hx : exec (.coalescingTimer f v t) s = execCoalescingTimer f v t s := rfl
    rw [hx, execCoalescingTimer, ← hu]
    exact (if_neg (ne_true_of_eq_false hgap)).trans (if_pos ⟨huns, hdue⟩)
  · -- MSIX_TABLE_WRITE of a granted entry
    intro s f entry dword v hf hd hb
    exact congrArg Host.Outcome.next (if_pos ⟨hf, hd, hb⟩)
  · -- MSIX_TABLE_WRITE outside every block
    intro s f entry dword v hb
    refine congrArg Host.Outcome.next (if_neg ?_)
    rintro ⟨-, -, k⟩
    rw [hb] at k
    cases k

end Sys2Proof
end

section
/-! SUPPORT. What the reset rows wait for (R522, R523). -/

namespace Sys2Proof.Machine

theorem State.unlessWarned_acts {s : State} (act : State → State) (h : s.supply.ewLatched = false) : s.unlessWarned act = act s := by
  unfold State.unlessWarned
  exact if_neg (ne_true_of_eq_false h)

theorem State.unlessWarned_superseded {s : State} (act : State → State) (h : s.supply.ewLatched = true) :
    s.unlessWarned act = { s with aon.superseded := true } := by
  unfold State.unlessWarned
  exact if_pos h

/-- A pulse below 1.9 us is not seen. -/
theorem State.perstSeen_short {s : State} {w : Nat} (h : w < 1900) : s.perstSeen w = (false, s) := by
  unfold State.perstSeen
  exact if_pos h

/-- A pulse of 2.1 us is seen. -/
theorem State.perstSeen_long {s : State} {w : Nat} (h : 2100 ≤ w) : s.perstSeen w = (true, s) := by
  unfold State.perstSeen
  exact (if_neg (by omega)).trans (if_pos h)

end Sys2Proof.Machine
end

section
/-! The statement about the reset rows. -/

namespace Sys2Proof

open Machine

/-- Settles O39: each row's own conditions hold. -/
theorem resetEvents : Obligations.ResetEvents := by
  unfold Obligations.ResetEvents
  refine ⟨?_, ?_, ?_, ?_, ?_, ?_, ?_, ?_, ?_, ?_, ?_, ?_⟩
  · -- CC_ENABLE
    intro s f v hf hv hen
    have hc : s.fnExists f ∧ ccEn v ∧ !ccEn (s.fn f).cc := ⟨hf, hv, by rw [hen]; rfl⟩
    exact congrArg settled (if_pos hc)
  · -- CONTROLLER_RESET
    intro s f hf hen
    exact congrArg settled (if_pos ⟨hf, hen⟩)
  · -- SHUTDOWN_NOTIFICATION
    intro s f shn hf hshn
    exact congrArg settled (if_pos ⟨hf, hshn⟩)
  · -- FLR
    intro s f hf hew
    exact congrArg settled ((if_pos hf).trans (congrArg Host.Outcome.next (State.unlessWarned_acts _ hew)))
  · -- FLR after early warning
    intro s f hf hew
    exact congrArg settled ((if_pos hf).trans (congrArg Host.Outcome.next (State.unlessWarned_superseded _ hew)))
  · -- PERST_N_ASSERT, a pulse long enough
    intro s u p w hw hp hu hew
    have hc : true = true ∧ !(s.portSt p).perst := ⟨rfl, by rw [hp]; rfl⟩
    subst hu
    have hx : exec (.perstNAssert p w) s = settled (rowPerstNAssert p w s) := rfl
    rw [hx, rowPerstNAssert, State.perstSeen_long hw]
    exact congrArg settled ((if_pos hc).trans (congrArg Host.Outcome.next (State.unlessWarned_acts _ hew)))
  · -- PERST_N_ASSERT, a pulse too short
    intro s p w hw
    have hx : exec (.perstNAssert p w) s = settled (rowPerstNAssert p w s) := rfl
    rw [hx, rowPerstNAssert, State.perstSeen_short hw]
    rfl
  · -- PERST_N_DEASSERT
    intro s u p t hp hu
    subst hu
    exact if_pos hp
  · -- CONFIG_REQUEST, a write
    intro s u v f bme mse me fm t hthere hp hu hf hserved hv
    subst hv hu
    refine (if_neg ?_).trans (if_pos ⟨rfl, hf, hserved⟩)
    rw [hthere, hp]
    decide
  · -- CONFIG_REQUEST, a read
    intro s f bme mse me fm t hthere hp
    refine (if_neg ?_).trans (if_neg (fun k => absurd k.1 (by decide)))
    rw [hthere, hp]
    decide
  · -- NUMVFS_WRITE
    intro s u p n hthere hserved hn hu hew
    subst hu
    refine (if_pos ⟨hthere, hserved⟩).trans (congrArg (fun v => settled (.next v)) ?_)
    exact (if_pos hn).trans (State.unlessWarned_acts _ hew)
  · -- NUMVFS_WRITE of a port that serves no configuration
    intro s p n hserved
    exact if_neg (fun k => ne_true_of_eq_false hserved k.2)

end Sys2Proof
end

section
/-! SUPPORT. The host ports' links (R36, R37). -/

namespace Sys2Proof.Machine

section
variable {s : State} {p : Port}

theorem State.mbx_updPort (s : State) (p : Port) (g : PortSt → PortSt) : (s.updPort p g).mbx = s.mbx := by cases p <;> rfl

/-- The link of the manager's port came up. -/
theorem State.linkCame_manager (h : p = s.mbx.manager) : s.linkCame p =
    { s.updPort p (fun x => { x with linkUp := true, l12 := false, width := s.lanes }) with mbx.downSince := none } := by
  unfold State.linkCame
  exact if_pos (by rw [State.mbx_updPort]; exact h)

/-- The link of a port without the manager role came up. -/
theorem State.linkCame_other {u : State} (hu : u = s.updPort p (fun x => { x with linkUp := true, l12 := false, width := s.lanes }))
    (h : p ≠ u.mbx.manager) : s.linkCame p = if u.managerLost then u.moveManager p else u := by
  subst hu
  unfold State.linkCame
  exact if_neg h

/-- The link of the manager's port went down: the time is held. -/
theorem State.linkLost_manager {u : State} (hu : u = s.updPort p (fun x => { x with linkUp := false, l12 := false }))
    (h : p = u.mbx.manager) (hd : u.mbx.downSince = none) (hr : u.mbxReady p = true) :
    s.linkLost p = { u with mbx.downSince := some u.now } := by
  subst hu
  unfold State.linkLost
  exact if_pos ⟨h, hd, hr⟩

/-- The link of a port without the manager role went down. -/
theorem State.linkLost_other {u : State} (hu : u = s.updPort p (fun x => { x with linkUp := false, l12 := false }))
    (h : p ≠ u.mbx.manager) : s.linkLost p = u := by
  subst hu
  unfold State.linkLost
  exact if_neg (fun k => h k.1)

end

end Sys2Proof.Machine
end

section
/-! The statements about the events of the host ports and the rows of power-up. -/

namespace Sys2Proof

open Machine

/-- Settles O40: each row's own conditions hold. -/
theorem linkEvents : Obligations.LinkEvents := by
  unfold Obligations.LinkEvents
  refine ⟨?_, ?_, ?_, ?_, ?_, ?_, ?_, ?_, ?_, ?_, ?_, ?_, ?_, ?_, ?_, ?_⟩
  · -- LINK_UP of the manager's port
    intro s u p t hp hr hl hthere hstop hu hm
    subst hu
    exact (if_pos (by simp [hp, hr, hl, hthere, hstop])).trans (congrArg Host.Outcome.next (State.linkCame_manager hm))
  · -- LINK_UP of the other port
    intro s u p t hp hr hl hthere hstop hu hm
    exact (if_pos (by simp [hp, hr, hl, hthere, hstop])).trans (congrArg Host.Outcome.next (State.linkCame_other hu hm))
  · -- LINK_DOWN of the manager's port
    intro s u p t hl hu hm hd hr
    exact (if_pos hl).trans (congrArg Host.Outcome.next (State.linkLost_manager hu hm hd hr))
  · -- LINK_DOWN of the other port
    intro s u p t hl hu hm
    exact (if_pos hl).trans (congrArg Host.Outcome.next (State.linkLost_other hu hm))
  · -- LANE_FAILURE
    intro s p w hl hw hlt
    exact if_pos ⟨hl, by rcases hw with rfl | rfl | rfl <;> rfl, hlt⟩
  · -- MALFORMED_TLP without a function
    intro s p
    rfl
  · -- MALFORMED_TLP of a function
    intro s u f hf hu ht
    subst hu
    have hx : exec (.malformedTlp f.port (some f)) s = execMalformedTlp f.port (some f) s := rfl
    rw [hx]
    unfold execMalformedTlp
    dsimp only
    rw [if_pos ⟨rfl, hf⟩]
    exact if_pos ht
  · -- HOST_ERROR_COMPLETION of a Shuttle burst
    intro s c bursts host a
    rfl
  · -- HOST_ERROR_COMPLETION of write data
    intro s f sqid cid a w hw hst hk hlen
    have hx : exec (.hostErrorCompletion (.data f sqid cid) a) s = execHostErrorCompletion (.data f sqid cid) a s := rfl
    rw [hx]
    unfold execHostErrorCompletion
    dsimp only
    rw [hw]
    exact if_pos ⟨hst, hk, hlen⟩
  · -- COMPLETION_TIMEOUT
    intro s c bursts host
    rfl
  · -- REFCLK_LOSS with the link up
    intro s u p t hr hl hu
    subst hu
    exact (if_pos hr).trans (congrArg Host.Outcome.next (if_pos hl))
  · -- REFCLK_LOSS with the link down
    intro s u p t hr hl hu
    subst hu
    exact (if_pos hr).trans (congrArg Host.Outcome.next (if_neg (ne_true_of_eq_false hl)))
  · -- REFCLK_RELOCK
    intro s p t hr
    exact if_neg (ne_true_of_eq_false hr)
  · -- LINK_L12_ENTRY
    intro s p
    rfl
  · -- NVME_MI_MESSAGE that needs waking
    intro s u t hu hl
    subst hu
    exact if_pos (by rw [hl]; rfl)
  · -- NVME_MI_MESSAGE that does not
    intro s t
    rfl

/-- Settles O41: each row's own conditions hold. -/
theorem bootEvents : Obligations.BootEvents := by
  unfold Obligations.BootEvents
  have hclk : ∀ (s : State) n, exec (.crystalQualifyWindow n) s = execCrystalQualifyWindow n s := fun _ _ => rfl
  refine ⟨?_, ?_, ?_, ?_, ?_, ?_, ?_, ?_, ?_, ?_, ?_⟩
  · -- POWER_ON
    intro s b
    rfl
  · -- SUPPLY_RESET
    intro s us h
    exact if_neg (Nat.pos_iff_ne_zero.mp h)
  · -- CRYSTAL_QUALIFY_WINDOW out of range, while qualifying
    intro s n hs hn
    rw [hclk, execCrystalQualifyWindow, hs]
    exact if_pos (by simp; omega)
  · -- CRYSTAL_QUALIFY_WINDOW in range, before the eighth
    intro s n hs h1 h2 h7
    rw [hclk, execCrystalQualifyWindow, hs]
    exact (if_neg (by simp; omega)).trans (if_pos (by omega))
  · -- CRYSTAL_QUALIFY_WINDOW in range, the eighth
    intro s n hs h1 h2 h7
    rw [hclk, execCrystalQualifyWindow, hs]
    exact (if_neg (by simp; omega)).trans (if_neg (by omega))
  · -- CRYSTAL_QUALIFY_WINDOW out of range, the second of the crystal
    intro s n hs hn h1
    rw [hclk, execCrystalQualifyWindow, hs]
    exact (if_neg (by simp; omega)).trans (if_neg (by omega))
  · -- RC_FALLBACK
    intro s hs
    have hx : exec .rcFallback s = execRcFallback s := rfl
    rw [hx, execRcFallback, hs]
    rfl
  · -- CORE_RESET_RELEASE
    intro s hc hl ht hs
    exact if_pos ⟨hc, hl, by rw [ht]; rfl, hs, rfl, rfl⟩
  · -- CORE_RESET_RELEASE too early
    intro s vcore vsram h
    refine if_neg ?_
    rintro ⟨-, -, ht, hs, hv, hm⟩
    rcases h with h | h | h | h
    · rw [h] at ht; cases ht
    · exact hs h
    · exact ne_true_of_eq_false h hv
    · exact ne_true_of_eq_false h hm
  · -- BROWN_OUT_RECOVERY
    intro s u b t hu hew hl hfl hbank hvin
    subst hu
    exact if_pos ⟨hew, by rw [hl]; rfl, by rw [hfl]; rfl, hbank, hvin⟩
  · -- BROWN_OUT_RECOVERY that is not due
    intro s u b t hu h
    subst hu
    refine if_neg ?_
    rintro ⟨hew, hl, -⟩
    rcases h with h | h
    · rw [h] at hl; cases hl
    · exact ne_true_of_eq_false h hew

end Sys2Proof
end

section
/-! SUPPORT. The seal of a flush leaves the thermal latch as it is (R412, R487). -/

namespace Sys2Proof.Machine

theorem State.therm_of_kept {s t : State} (h : s.kept = t.kept) : s.therm = t.therm := by
  have k := congrArg (fun u : State => u.therm) (State.rest_of_kept h); exact k

theorem State.therm_foldl_stopDomain (l : List Nat) (s : State) : (l.foldl State.stopDomain s).therm = s.therm := by
  induction l generalizing s with
  | nil => rfl
  | cons d l ih => rw [List.foldl_cons, ih]; rfl

theorem State.therm_forceStops (s : State) (ds : List Nat) : (s.forceStops ds).therm = s.therm := by
  have h := State.therm_foldl_stopDomain (ds.filter fun d => s.inRun d) s
  unfold State.forceStops
  dsimp only
  split <;> split <;> exact h

theorem State.therm_stopPorts (s : State) : s.stopPorts.therm = s.therm := State.therm_forceStops _ _

theorem State.therm_pbExtreme (s : State) (i : Nat) (v : Int) : (s.pbExtreme i v).therm = s.therm :=
  State.therm_of_kept (State.kept_pbExtreme s i v)

theorem State.therm_sealFlush (s : State) (fails : List (DieId × Nat)) : (s.sealFlush fails).therm = s.therm := by
  unfold State.sealFlush
  rw [State.therm_stopPorts, State.therm_pbExtreme]

end Sys2Proof.Machine
end

section
/-! The statement about the rows of the supply. -/

namespace Sys2Proof

open Machine

/-- Settles O42: each row's own conditions hold. -/
theorem supplyEvents : Obligations.SupplyEvents := by
  unfold Obligations.SupplyEvents
  have hseal : ∀ (s : State) e, exec (.flushSeal e) s = execFlushSeal e s := fun _ _ => rfl
  refine ⟨?_, ?_, ?_, ?_, ?_, ?_, ?_, ?_, ?_, ?_, ?_, ?_, ?_, ?_, ?_, ?_, ?_, ?_, ?_⟩
  · -- EARLY_WARNING, armed
    intro s u t hu harm hew
    subst hu
    exact if_neg (by rw [harm, hew]; decide)
  · -- EARLY_WARNING, not armed or latched
    intro s u t hu h
    subst hu
    exact if_pos (by rcases h with h | h <;> simp [h])
  · -- HARD_THRESHOLD, the bank connected
    intro s u t vinMv hu hew hv hseal hold
    have hc : (u.supply.ewLatched && decide (vinMv < u.supply.prof.hardMv) && !u.supply.flushSealed) = true := by
      simp [hew, hv, hseal]
    subst hu
    refine (if_pos hc).trans (congrArg (fun v : State => Host.Outcome.next v.hardStops) ?_)
    rw [if_pos hold]
    exact congrArg (fun b => ({ s.atTime t with supply.hardHit := true, supply.holdEn := b } : State)) hold.symm
  · -- HARD_THRESHOLD, the bank not connected
    intro s u t vinMv hu hew hv hseal hold
    have hc : (u.supply.ewLatched && decide (vinMv < u.supply.prof.hardMv) && !u.supply.flushSealed) = true := by
      simp [hew, hv, hseal]
    subst hu
    refine (if_pos hc).trans (congrArg (fun v : State => Host.Outcome.next v.hardStops) ?_)
    rw [if_neg (ne_true_of_eq_false hold)]
    rfl
  · -- FLUSH_SEAL
    intro s u e hu hfl hshut
    rw [hseal, execFlushSeal, ← hu]
    dsimp only
    rw [if_pos hfl, if_neg (by rw [State.therm_sealFlush, hshut]; decide)]
  · -- FLUSH_SEAL, a shutdown due
    intro s u e hu hfl hshut
    rw [hseal, execFlushSeal, ← hu]
    dsimp only
    rw [if_pos hfl, if_pos (by rw [State.therm_sealFlush, hshut])]
  · -- INPUT_RETURN
    intro s vinMv hcalm hold hv
    have hc : ({ s with supply.holdEn := false, out := .pin 1 0 :: s.out } : State).Calm := hcalm
    exact (congrArg settled (if_pos (by simp [hold, hv]))).trans (settled_calm hc)
  · -- BANK_BELOW_MIN, on the input
    intro s u t bankMv vinMv hu hfl hin hbank hvin
    subst hu
    exact (if_pos ⟨hfl, by rw [hin]; rfl, hbank⟩).trans (if_pos hvin)
  · -- BANK_BELOW_MIN, no input
    intro s u v t bankMv vinMv hu hfl hin hbank hvin hv
    subst hv hu
    exact (if_pos ⟨hfl, by rw [hin]; rfl, hbank⟩).trans (if_neg (Nat.not_le.mpr hvin))
  · -- COMPARATOR_ARM
    intro s vinMv harm hv
    exact if_pos (by simp [harm, hv])
  · -- VIN_SAMPLE
    intro s vinMv bankMv measMa
    rfl
  · -- GAUGE_UPDATE
    intro s u t bankMv dq hu
    subst hu
    rfl
  · -- CAP_RECOMPUTE
    intro s t
    rfl
  · -- CAP_RAISE_DELAY
    intro s u t y v hu hcap hdue
    have hx : exec (.capRaiseDelay t) s = .next (s.atTime t).raiseCap := rfl
    rw [hx, ← hu, State.raiseCap, hcap]
    exact congrArg Host.Outcome.next (if_pos hdue)
  · -- CAPACITANCE_TEST_PERIOD
    intro s u t hu hfree hps hretry hdue
    subst hu
    exact if_pos (by rw [hfree, hretry, decide_eq_true hps, decide_eq_true hdue]; rfl)
  · -- CAPACITANCE_TEST_RETRY
    intro s u t v hu hfree hretry hdue
    have hx : exec (.capacitanceTestRetry t) s = execCapacitanceTestRetry t s := rfl
    rw [hx, execCapacitanceTestRetry, ← hu, hretry]
    exact if_pos (by rw [hfree, decide_eq_true hdue]; rfl)
  · -- CAPACITANCE_TEST_WAIT_LIMIT, no command
    intro s u t v hu hwait hdue hcmd
    have hx : exec (.capacitanceTestWaitLimit t) s = execCapacitanceTestWaitLimit t s := rfl
    rw [hx, execCapacitanceTestWaitLimit, ← hu, hwait, hcmd]
    exact if_pos hdue
  · -- CAPACITANCE_TEST_WAIT_LIMIT, a command
    intro s u t v c hu hwait hdue hcmd
    have hx : exec (.capacitanceTestWaitLimit t) s = execCapacitanceTestWaitLimit t s := rfl
    rw [hx, execCapacitanceTestWaitLimit, ← hu, hwait, hcmd]
    exact if_pos hdue
  · -- CAPACITANCE_TEST_END
    intro s u v t dq dv c res timedOut hu hrun hc hres hv
    have hsome : ¬ u.supply.testRun.isNone = true := fun k => hrun (Option.isNone_iff_eq_none.mp k)
    have hx : exec (.capacitanceTestEnd t dq dv timedOut) s = settled (rowCapacitanceTestEnd t dq dv timedOut s) := rfl
    rw [hx, rowCapacitanceTestEnd, ← hu]
    dsimp only
    rw [if_neg hsome, ← hc, ← hres, ← hv]
    cases u.supply.testCmd <;> rfl

end Sys2Proof
end

section
/-! SUPPORT. How the power sequencing goes on once a domain has started or VCORE has settled (R462, R466). -/

namespace Sys2Proof.Machine

/-- What follows the start of a domain, with the domains that are still to start. -/
def startGoesOn (v : State) : Host.Outcome State Fault Refusal :=
  if v.pow.toStart.isEmpty then
    match v.pow.step with
    | .starts => .next v.exitDone
    | .rollback => .next v.rollbackDone
    | .moving => .next v.moveNext.finishVcore
    | _ => .next v
  else .next v

/-- What follows once VCORE has settled. -/
def vcoreGoesOn (v : State) : Host.Outcome State Fault Refusal :=
  match v.pow.step with
  | .vcoreDown => .next v.entered
  | .vcoreUp => .next v.beginStarts
  | .moving =>
    if v.supply.ewLatched then .next { v with pow.step := .none, pow.pendPs := none, pow.flashSlow := false }
    else .next v.moveNext.finishVcore
  | .rollback =>
    if ({ v with pow.flashSlow := decide (v.pow.vcore = 3) } : State).pow.toStart.isEmpty then
      .next ({ v with pow.flashSlow := decide (v.pow.vcore = 3) } : State).rollbackDone
    else .next { v with pow.flashSlow := decide (v.pow.vcore = 3) }
  | _ => .next v

theorem exec_domainStartDone {s u v : State} {d t : Nat} (hu : u = s.atTime t) (hd : u.pow.toStart.head? = some d)
    (hset : u.pow.settling = false) (hv : v = { u.startDomain d with pow.toStart := (u.startDomain d).pow.toStart.tail }) :
    exec (.domainStartDone d t) s = settled (startGoesOn v) := by
  have hc : u.pow.toStart.head? = some d ∧ (!u.pow.settling) = true := ⟨hd, by rw [hset]; rfl⟩
  subst hv hu
  exact congrArg settled (if_pos hc)

theorem exec_vcoreSettled {s u v : State} {t : Nat} (hu : u = s.atTime t) (hset : u.pow.settling = true)
    (hv : v = { u with pow.settling := false, pow.vcore := u.pow.vid, pow.settledUs := u.now }) :
    exec (.vcoreSettled t) s = settled (vcoreGoesOn v) := by
  subst hv hu
  exact congrArg settled (if_pos hset)

end Sys2Proof.Machine
end

section
/-! The statement about the events of the power states. -/

namespace Sys2Proof

open Machine

/-- Settles O43: each row's own conditions hold. -/
theorem powerEvents : Obligations.PowerEvents := by
  unfold Obligations.PowerEvents
  refine ⟨?_, ?_, ?_, ?_, ?_, ?_, ?_, ?_, ?_, ?_, ?_, ?_, ?_, ?_, ?_, ?_, ?_, ?_, ?_⟩
  · -- IDLE_TIMER_EXPIRY, due
    intro s u t itps itpt hu hapst hen hidle h3 h4 hlt hperm hstep hlast hdue
    have hx : exec (.idleTimerExpiry t) s = execIdleTimerExpiry t s := rfl
    rw [hx, execIdleTimerExpiry, ← hu]
    dsimp only
    rw [hapst]
    dsimp only
    rw [hen, hidle, decide_eq_true ⟨h3, h4, hlt⟩, hperm, decide_eq_true hstep, hlast, decide_eq_true hdue]
    rfl
  · -- IDLE_TIMER_EXPIRY, no autonomous transitions
    intro s u t hu hen
    have hx : exec (.idleTimerExpiry t) s = execIdleTimerExpiry t s := rfl
    rw [hx, execIdleTimerExpiry, ← hu]
    dsimp only
    rw [hen]
    rfl
  · -- POWER_DRAIN_END, drained
    intro s u t hu hstep hd
    subst hu
    exact congrArg settled ((if_pos hstep).trans (if_pos hd))
  · -- POWER_DRAIN_END, not drained
    intro s u t hu hstep hd
    subst hu
    exact congrArg settled ((if_pos hstep).trans (if_neg (ne_true_of_eq_false hd)))
  · -- DOMAIN_STOP_ANSWER, accepted
    intro s u d t hu ha hc
    subst hu
    exact congrArg settled ((if_pos ha).trans (if_pos (by rw [hc]; rfl)))
  · -- DOMAIN_STOP_ANSWER, refused
    intro s u d t a hu ha hc
    subst hu
    refine congrArg settled ((if_pos ha).trans (if_neg ?_))
    rcases hc with h | h <;> simp [h]
  · -- DOMAIN_STOP_TIMEOUT
    intro s u d t hu ha
    subst hu
    exact congrArg settled (if_pos ha)
  · -- ENTRY_RETRY of a non-operational state
    intro s u t n hu hstep ht
    have hx : exec (.entryRetry t) s = execEntryRetry t s := rfl
    rw [hx, execEntryRetry, ← hu]
    dsimp only
    rw [if_pos hstep, ht]
  · -- ENTRY_RETRY of an operational state
    intro s u t n hu hstep ht hp
    have hx : exec (.entryRetry t) s = execEntryRetry t s := rfl
    rw [hx, execEntryRetry, ← hu]
    dsimp only
    rw [if_pos hstep, ht, hp]
  · -- DOMAIN_START_DONE with domains left
    intro s u v d t hu hd hset hv hne
    rw [exec_domainStartDone hu hd hset hv]
    exact congrArg settled (if_neg (fun k => hne (List.isEmpty_iff.mp k)))
  · -- DOMAIN_START_DONE, the last of an exit
    intro s u v d t hu hd hset hv hlast hstep
    rw [exec_domainStartDone hu hd hset hv, startGoesOn, if_pos (List.isEmpty_iff.mpr hlast), hstep]
    rfl
  · -- DOMAIN_START_DONE, the last of a rollback
    intro s u v d t hu hd hset hv hlast hstep
    rw [exec_domainStartDone hu hd hset hv, startGoesOn, if_pos (List.isEmpty_iff.mpr hlast), hstep]
    rfl
  · -- WAKE
    intro s u source t k hu h1 h7 hl
    subst hu
    exact congrArg settled (if_pos ⟨h1, h7, by rw [hl]; rfl⟩)
  · -- WAKE after a thermal shutdown
    intro s u source t k hu hl
    subst hu
    refine congrArg settled (if_neg ?_)
    rintro ⟨-, -, k⟩
    rw [hl] at k
    cases k
  · -- L12_EXIT of a stopped port
    intro s u v p t hu hv hl hst hlatch
    subst hv hu
    exact congrArg settled (if_pos ⟨hl, hst, by rw [hlatch]; rfl⟩)
  · -- L12_EXIT of a running port
    intro s u v p t hu hv hst
    subst hv hu
    exact congrArg settled (if_neg (fun k => ne_true_of_eq_false hst k.2.1))
  · -- VCORE_SETTLED
    intro s u v t hu hset hv
    refine ⟨fun hstep => ?_, fun hstep => ?_, fun hstep hew => ?_, fun hstep => ?_⟩
    all_goals rw [exec_vcoreSettled hu hset hv, vcoreGoesOn, hstep]
    · rfl
    · rfl
    · exact congrArg settled (if_neg (ne_true_of_eq_false hew))
    · rfl
  · -- MAINTENANCE_WAKE
    intro s u t hu hps hdue hl
    subst hu
    exact if_pos ⟨hps, hdue, by rw [hl]; rfl⟩
  · -- MAINTENANCE_WAKE in an operational state
    intro s u t hu hps
    subst hu
    exact if_neg (fun k => absurd k.1 (Nat.not_le.mpr hps))

end Sys2Proof
end

section
/-! SUPPORT. A millisecond sample leaves the time and the second samples' own time as they are (R492). -/

namespace Sys2Proof.Machine

theorem State.secondDue_of_kept {s t : State} (h : s.kept = t.kept) : (s.pb.secUs, s.now) = (t.pb.secUs, t.now) := by
  have k := congrArg (fun u : State => (u.pb.secUs, u.now)) (State.rest_of_kept h); exact k

theorem State.secondDue_pbSample (s : State) (k : Option Nat) (h b : Nat) :
    ((s.pbSample k h b).pb.secUs, (s.pbSample k h b).now) = (s.pb.secUs, s.now) :=
  State.secondDue_of_kept (State.kept_pbSample s k h b)

/-- The row of the samples, once the millisecond sample is taken or not. -/
def secondSample (s : State) : Host.Outcome State Fault Refusal :=
  if s.pb.secUs + 1000000 ≤ s.now then .next (({ s with pb.secUs := s.now, rd.darnSec := [] } : State).pbSamples s.secondSamples)
  else .next s

theorem secondSample_notDue {s : State} (h : s.now < s.pb.secUs + 1000000) : secondSample s = .next s :=
  if_neg (Nat.not_le.mpr h)

theorem execHistogramSample_eq (t : Nat) (s : State) : execHistogramSample t s =
    secondSample (if (s.atTime t).pb.msUs + 1000 ≤ (s.atTime t).now then
        if (s.atTime t).gauge.now = 0 ∨ (s.atTime t).gauge.fault then { s.atTime t with pb.msUs := (s.atTime t).now }
        else ({ s.atTime t with pb.msUs := (s.atTime t).now } : State).pbSample none 192 (bucketC 40 (s.atTime t).gauge.now)
      else s.atTime t) := rfl

end Sys2Proof.Machine
end

section
/-! The statements about the thermal rows and the rows of the records. -/

namespace Sys2Proof

open Machine

/-- Settles O44: each row's own conditions hold. -/
theorem thermalEvents : Obligations.ThermalEvents := by
  unfold Obligations.ThermalEvents
  have hhold : ∀ (s : State) t, exec (.thermalHold t) s = execThermalHold t s := fun _ _ => rfl
  refine ⟨?_, ?_, ?_, ?_, ?_, ?_, ?_, ?_, ?_⟩
  · -- GAUGE_WINDOW_END, a reading in range
    intro s u reading t hu h1 h2
    subst hu
    exact congrArg Host.Outcome.next (if_pos ⟨h1, h2⟩)
  · -- GAUGE_WINDOW_END, a reading out of range
    intro s u reading t hu h
    subst hu
    exact congrArg Host.Outcome.next (if_neg (by omega))
  · -- SENSOR_CONVERSION_START of a remote input
    intro s u i t hu hi hen hconv hmay
    subst hu
    exact if_pos ⟨hi, hen, by rw [hconv]; rfl, hmay⟩
  · -- SENSOR_CONVERSION_START of an on-die sensor
    intro s u i t hu hi hfail hconv hmay
    subst hu
    exact if_pos ⟨hi, by rw [hfail]; rfl, by rw [hconv]; rfl, hmay⟩
  · -- SENSOR_CONVERSION_DONE of a remote input
    intro s u i t x broken hu hconv
    subst hu
    exact if_pos hconv
  · -- SENSOR_CONVERSION_DONE of an on-die sensor
    intro s u i t x broken hu hconv
    subst hu
    exact if_pos hconv
  · -- COMMA_LEVEL_DESCENT
    intro s u t l lower hu hfall
    have hx : exec (.commaLevelDescent t) s = execCommaLevelDescent t s := rfl
    rw [hx, execCommaLevelDescent, ← hu]
    dsimp only
    rw [hfall]
  · -- THERMAL_HOLD, due
    intro s u t v hu hl hdue hno
    rw [hhold, execThermalHold, ← hu]
    dsimp only
    rw [hl]
    exact if_pos ⟨hdue, by rw [hno]; rfl⟩
  · -- THERMAL_HOLD, not due or in force
    intro s u t v hu hl h
    rw [hhold, execThermalHold, ← hu]
    dsimp only
    rw [hl]
    refine if_neg ?_
    rintro ⟨hdue, hno⟩
    rcases h with h | h
    · exact Nat.not_le.mpr h hdue
    · rw [h] at hno; cases hno

/-- Settles O45: each row's own conditions hold; a late row takes one sample. -/
theorem recordEvents : Obligations.RecordEvents := by
  unfold Obligations.RecordEvents
  have hhist : ∀ (s : State) t, exec (.histogramSample t) s = execHistogramSample t s := fun _ _ => rfl
  have hexp : ∀ (s : State) t, exec (.pbFreezeExpiry t) s = execPbFreezeExpiry t s := fun _ _ => rfl
  have hclose : ∀ (s : State) k t, exec (.epochClose k t) s = execEpochClose k t s := fun _ _ _ => rfl
  refine ⟨?_, ?_, ?_, ?_, ?_, ?_, ?_, ?_, ?_, ?_, ?_, ?_⟩
  · -- HISTOGRAM_SAMPLE, the millisecond sample
    intro s u t hu hms hsec hg hf
    have hok : ¬ (u.gauge.now = 0 ∨ u.gauge.fault = true) := not_or.mpr ⟨hg, ne_true_of_eq_false hf⟩
    rw [hhist, execHistogramSample_eq, ← hu, if_pos hms, if_neg hok]
    refine secondSample_notDue ?_
    obtain ⟨h1, h2⟩ := Prod.mk.inj (State.secondDue_pbSample { u with pb.msUs := u.now } none 192 (bucketC 40 u.gauge.now))
    rw [h1, h2]
    exact hsec
  · -- HISTOGRAM_SAMPLE, the second samples
    intro s u t hu hms hsec
    rw [hhist, execHistogramSample_eq, ← hu, if_neg (Nat.not_le.mpr hms)]
    exact if_pos hsec
  · -- PB_CHECKPOINT
    intro s u t hu hdue hew hfr
    subst hu
    exact (if_neg (by rw [hdue, hew]; decide)).trans ((if_neg (ne_true_of_eq_false hfr)).trans rfl)
  · -- PB_CHECKPOINT while frozen
    intro s u t ok hu hdue hew hfr
    subst hu
    exact (if_neg (by rw [hdue, hew]; decide)).trans (if_pos hfr)
  · -- PB_FREEZE_EXPIRY, at its time
    intro s u t e hu hfr hdue
    rw [hexp, execPbFreezeExpiry, ← hu]
    rw [hfr]
    exact if_pos hdue
  · -- PB_FREEZE_EXPIRY, before its time
    intro s u t e hu hfr hdue
    rw [hexp, execPbFreezeExpiry, ← hu]
    rw [hfr]
    exact if_neg (Nat.not_le.mpr hdue)
  · -- EPOCH_CLOSE, at its end
    intro s u k t x hu hx hdue
    rw [hclose, execEpochClose, ← hu]
    rw [hx]
    exact if_pos hdue
  · -- EPOCH_CLOSE, before its end
    intro s u k t x hu hx hdue
    rw [hclose, execEpochClose, ← hu]
    rw [hx]
    exact if_neg (Nat.not_le.mpr hdue)
  · -- EPOCH_SAVE
    intro s u t hu hew
    subst hu
    exact if_neg (ne_true_of_eq_false hew)
  · -- SELVEDGE_DRAIN
    intro s e q hq hd
    have hx : exec .selvedgeDrain s = execSelvedgeDrain s := rfl
    rw [hx, execSelvedgeDrain, hq]
    exact if_pos hd
  · -- SELVEDGE_HEM_FLUSH, due
    intro s u t hu hew hne hdue
    have hok : ¬ (u.supply.ewLatched = true ∨ u.selv.unflushed = 0 ∨ u.now < u.selv.lastFlushUs + 100000) :=
      not_or.mpr ⟨ne_true_of_eq_false hew, not_or.mpr ⟨hne, Nat.not_lt.mpr hdue⟩⟩
    subst hu
    exact (if_neg hok).trans rfl
  · -- SELVEDGE_HEM_FLUSH, not due
    intro s u t ok hu h
    subst hu
    exact if_pos h

end Sys2Proof
end

section
/-! SUPPORT. The manager role's move, the expiries of debug, and register writes (R36, R37, R231, R467, R529). -/

namespace Sys2Proof.Machine

section
variable {s : State}

/-! The move of the manager role. -/

theorem otherPort_ne (p : Port) : otherPort p ≠ p := by cases p <;> decide

/-- The mailbox with the role moved from one port to another, before the power policy that waits. -/
def State.roleMoved (s : State) (old p : Port) (x : MbxPort) (cut : List MbxCmd) : State :=
  State.updMbxPort { s.setMbxPort old x with
    mbx.manager := p
    mbx.movePending := none
    mbx.downSince := none
    mbx.accepted := cut } p MbxPort.takesRole

theorem State.pow_roleMoved (s : State) (old p : Port) (x : MbxPort) (cut : List MbxCmd) : (s.roleMoved old p x cut).pow = s.pow := by
  cases old <;> cases p <;> rfl

theorem State.roleMoved_other (s : State) (p : Port) (x : MbxPort) (cut : List MbxCmd) :
    (s.roleMoved p (otherPort p) x cut).mbx.manager = otherPort p ∧ (s.roleMoved p (otherPort p) x cut).mbx.movePending = none ∧
    (s.roleMoved p (otherPort p) x cut).mbx.downSince = none ∧
    (s.roleMoved p (otherPort p) x cut).mbxPort (otherPort p) = (s.mbxPort (otherPort p)).takesRole ∧
    (s.roleMoved p (otherPort p) x cut).mbxPort p = x ∧ (s.roleMoved p (otherPort p) x cut).mbx.accepted = cut := by
  cases p <;> exact ⟨rfl, rfl, rfl, rfl, rfl, rfl⟩

/-- A move of the role with no power policy waiting: the idle time starts again where a busy bit falls. -/
theorem State.moveManager_eq (h : s.pow.policyDue = false) : ∃ (i : Nat) (b : BitVec 64) (cut : List MbxCmd),
    (∀ c ∈ cut, c.posted = false) ∧ s.moveManager (otherPort s.mbx.manager) =
      ({ s with pow.idleUs := i } : State).roleMoved s.mbx.manager (otherPort s.mbx.manager)
        { s.mbxPort s.mbx.manager with waiting := [], busy := b } cut := by
  have hcut : ∀ l : List MbxCmd, ∀ c ∈ l.map (fun c : MbxCmd => { c with posted := false }), c.posted = false := by
    intro l c hc
    obtain ⟨c', -, rfl⟩ := List.mem_map.mp hc
    rfl
  have hidle : ∀ (q : Prop) [Decidable q] (i : Nat), (if q then s else { s with pow.idleUs := i }) =
      { s with pow.idleUs := if q then s.pow.idleUs else i } := by
    intro q _ i
    split <;> rfl
  unfold State.moveManager
  rw [if_neg (otherPort_ne _)]
  dsimp only
  rw [hidle]
  refine ⟨_, _, _, hcut _, (State.policySettle_none ?_).trans rfl⟩
  exact (congrArg Power.policyDue (State.pow_roleMoved _ _ _ _ _)).trans h

theorem State.managerLost_of {d : Nat} (hf : s.mbx.failover = true) (hd : s.mbx.downSince = some d) (h : d + 2000000 ≤ s.now) :
    s.managerLost = true := by
  unfold State.managerLost
  rw [hf, hd, Bool.true_and]
  exact decide_eq_true h

/-! The expiries of debug. -/

theorem State.authorised_over {e : Nat} (ha : s.dbg.authUntil = some e) (h : e ≤ s.now) : s.authorised = false := by
  unfold State.authorised
  rw [ha]
  exact decide_eq_false (Nat.not_lt.mpr h)

theorem State.liveNonce_over {n e : Nat} (hn : s.dbg.nonce = some (n, e)) (h : e + 600000000 ≤ s.now) : s.liveNonce = none := by
  unfold State.liveNonce
  rw [hn]
  exact if_neg (Nat.not_lt.mpr h)

theorem State.endAuth_of {e : Nat} (why : Nat) (ha : s.dbg.authUntil = some e) :
    s.endAuth why = (({ s with dbg.authUntil := none, dbg.perms := 0#8 } : State).disarm).authNote why := by
  unfold State.endAuth
  dsimp only
  rw [ha]
  rfl

/-! Register writes. -/

/-- A 32-bit write of a mailbox register. -/
theorem exec_mbxRegister (p : Port) (env : MbxEnv) {off : Nat} (v : BitVec 64) (hp : s.portThere p = true) (hl : s.therm.latch = false)
    (h1 : 0x2000 ≤ off) (h2 : off < 0x2018) (h4 : off % 4 = 0) :
    exec (.registerWrite (.bar2 p env) off 32 v) s = .next (s.writeMbxReg p off (v.toNat % 2 ^ 32) env).after := by
  rw [exec_registerWrite_bar2 s p env off v (by decide)]
  unfold State.writeBar2
  rw [if_neg (by simp [hp, hl]), if_neg (by omega), if_pos ⟨h1, h2⟩]
  exact congrArg (fun w : State => Host.Outcome.next w.after) (if_pos ⟨h4, rfl⟩)

/-- The area above the command slots ignores writes. -/
theorem State.writeBar2_ring {p : Port} (env : MbxEnv) {off : Nat} (len v : Nat) (h1 : 0x1000 ≤ off) (h2 : off < 0x2000) :
    s.writeBar2 p env off len v = s := by
  unfold State.writeBar2
  split
  · rfl
  · rw [if_neg (by omega), if_neg (by omega), if_neg (by omega)]

theorem bytesLE_eq_map (n v : Nat) : bytesLE n v = (List.range n).map (fun i => BitVec.ofNat 8 (v / 2 ^ (8 * i))) := by
  induction n generalizing v with
  | zero => rfl
  | succ n ih =>
    rw [bytesLE, ih, List.range_succ_eq_map, List.map_cons, List.map_map]
    refine congrArg₂ List.cons (by simp) (List.map_congr_left fun i _ => ?_)
    rw [Function.comp_apply, Nat.div_div_eq_div_mul, Nat.succ_eq_add_one, Nat.mul_add, Nat.pow_add, Nat.mul_comm (2 ^ (8 * i))]

/-- A write of all a register's bytes replaces it. -/
theorem mergeReg_all (old base size v : Nat) : mergeReg old base size base size v = v % 256 ^ size := by
  rw [← numLE_bytesLE, bytesLE_eq_map]
  refine congrArg numLE (List.map_congr_left fun i hi => ?_)
  have hlt := List.mem_range.mp hi
  rw [if_pos ⟨Nat.le_add_right _ _, Nat.add_lt_add_left hlt base⟩, Nat.add_sub_cancel_left]

/-- A 64-bit write of ACQ. -/
theorem State.writeController_acq {f : FnId} (v : BitVec 64) (ht : (s.tenantOf f).isSome = true) :
    s.writeController f 0x30 8 v.toNat = s.setFn f { s.fn f with acq := v } := by
  have hm : BitVec.ofNat 64 (mergeReg (s.fn f).acq.toNat 0x30 8 0x30 8 v.toNat) = v := by
    rw [mergeReg_all, Nat.mod_eq_of_lt (by have := v.isLt; omega), BitVec.ofNat_toNat, BitVec.setWidth_eq]
  have hn : ¬ (s.tenantOf f).isNone = true := by rw [← Option.not_isSome, ht]; decide
  unfold State.writeController
  dsimp only
  rw [if_neg hn, if_neg (by decide : ¬ reaches 0x14 4 0x30 8 = true), if_neg (by decide : ¬ reaches 0x24 4 0x30 8 = true),
    if_neg (by decide : ¬ reaches 0x28 8 0x30 8 = true), if_pos (by decide : reaches 0x30 8 0x30 8 = true), hm]

/-- What an 8-bit write of a register says of its low bits. -/
theorem byte_mod (v : BitVec 64) {m : Nat} (h : m ∣ 256) : v.toNat % 2 ^ (8 * 1) % m = v.toNat % m := Nat.mod_mod_of_dvd _ h

end

end Sys2Proof.Machine
end

section
/-! The statement about the manager's events. -/

namespace Sys2Proof

open Machine

/-- Settles O46: each row's own conditions hold; the role's move leaves the ports as written. -/
theorem managerEvents : Obligations.ManagerEvents := by
  unfold Obligations.ManagerEvents
  refine ⟨?_, ?_, ?_, ?_, ?_, ?_, ?_, ?_, ?_, ?_, ?_, ?_, ?_, ?_, ?_, ?_, ?_, ?_⟩
  · -- ACTIVATION_TIMEOUT
    intro s u t hu h0 h9 hdue
    subst hu
    exact congrArg settled (if_pos ⟨h0, h9, hdue⟩)
  · -- MANAGER_FAILOVER
    intro s u t d hu hf hd hdue hdown hup hpol
    have hc : u.managerLost = true ∧ (u.portSt (otherPort u.mbx.manager)).linkUp = true ∧
        (!(u.portSt u.mbx.manager).linkUp) = true := ⟨State.managerLost_of hf hd hdue, hup, by rw [hdown]; rfl⟩
    obtain ⟨i, b, cut, hcut, hw⟩ := State.moveManager_eq hpol
    obtain ⟨h1, h2, h3, h4, h5, h6⟩ := State.roleMoved_other ({ u with pow.idleUs := i } : State) u.mbx.manager
      { u.mbxPort u.mbx.manager with waiting := [], busy := b } cut
    have hx : exec (.managerFailover t) s = .next (u.moveManager (otherPort u.mbx.manager)) := by
      subst hu
      exact if_pos hc
    rw [hw] at hx
    refine ⟨_, hx, h1, h2, h3, ?_, ?_, ?_⟩
    · rw [h4]
      cases u.mbx.manager <;> rfl
    · rw [h5]
    · rw [h6]
      exact hcut
  · -- DEBUG_AUTH_EXPIRY
    intro s u t e hu ha hdue
    have hc : (u.dbg.authUntil.isSome && !u.authorised) = true := by rw [ha, State.authorised_over ha hdue]; rfl
    rw [← State.endAuth_of 3 ha]
    subst hu
    exact if_pos hc
  · -- DEBUG_NONCE_EXPIRY
    intro s u t n e hu hn hdue
    have hc : u.dbg.nonce.isSome = true ∧ u.liveNonce.isNone = true := by rw [hn, State.liveNonce_over hn hdue]; exact ⟨rfl, rfl⟩
    subst hu
    exact if_pos hc
  · -- LED_ACT_HOLD_END
    intro s hh ha
    exact (if_pos (by rw [hh, ha]; rfl)).trans rfl
  · -- MBX_CQ_HEAD_WRITE
    intro s p value h hp hm hh hadv
    subst hh
    have hno : ¬ (s.mbx.manager ≠ p ∨ (s.mbxPort p).posted < (value.extractLsb' 0 6 - (s.mbxPort p).head).toNat) :=
      not_or.mpr ⟨not_not.mpr hm, Nat.not_lt.mpr hadv⟩
    exact congrArg Host.Outcome.next ((if_neg (by rw [hp]; decide)).trans (if_neg hno))
  · -- MBX_CQ_HEAD_WRITE, rejected
    intro s p value hp h
    exact congrArg Host.Outcome.next ((if_neg (by rw [hp]; decide)).trans (if_pos h))
  · -- REGISTER_WRITE of DM_CFG, unlocked
    intro s value hl
    exact congrArg Host.Outcome.next (if_neg (ne_true_of_eq_false hl))
  · -- REGISTER_WRITE of DM_CFG, locked
    intro s value hl
    exact congrArg Host.Outcome.next (if_pos hl)
  · -- REGISTER_WRITE of MBX_CONTROL
    intro s p env value hp hl
    exact exec_mbxRegister p env value hp hl (by decide) (by decide) (by decide)
  · -- REGISTER_WRITE of MBX_STATUS
    intro s p env value hp hl hb
    rw [exec_mbxRegister p env value hp hl (by decide) (by decide) (by decide)]
    exact congrArg (fun w : State => Host.Outcome.next w.after) (if_pos hb)
  · -- REGISTER_WRITE of MBX_DOORBELL
    intro s p env value hp hl
    exact exec_mbxRegister p env value hp hl (by decide) (by decide) (by decide)
  · -- REGISTER_WRITE of the completion ring
    intro s off width env value hp hl h1 h2 hw
    rw [exec_registerWrite_bar2 s .a env off value hw, State.writeBar2_ring env _ _ h1 h2]
  · -- REGISTER_WRITE of ACQ
    intro s f x value hf ht hx
    subst hx
    have hv : value.toNat % 2 ^ (8 * min 8 (64 / 8)) = value.toNat := Nat.mod_eq_of_lt value.isLt
    have hb : s.writeBar0 f 0x30 8 value.toNat = s.setFn f { s.fn f with acq := value } := by
      unfold State.writeBar0
      rw [if_neg (by rw [hf]; decide), if_neg (by decide), if_pos (by decide), State.writeController_acq value ht]
    have hx : exec (.registerWrite (.bar0 f) 0x30 64 value) s =
        settled (.next (s.writeBar0 f 0x30 8 (value.toNat % 2 ^ (8 * min 8 (64 / 8))))) := rfl
    rw [hx, hv, hb]
    rfl
  · -- REGISTER_WRITE of the flash rate, refused
    intro s value hvid hv
    exact congrArg Host.Outcome.next (if_pos ⟨(byte_mod value (by decide)).trans hv, .inl hvid⟩)
  · -- REGISTER_WRITE of the flash rate
    intro s value hvid hset
    have hx : exec (.registerWrite .flashRate 0 8 value) s = .next (s.writeFlashRate (value.toNat % 2 ^ (8 * 1))) := rfl
    rw [hx]
    unfold State.writeFlashRate
    rw [if_neg (by simp [hvid, hset]), byte_mod value (by decide)]
  · -- REGISTER_WRITE of VCORE, refused
    intro s value hv hfast
    exact congrArg Host.Outcome.next (if_pos ⟨(byte_mod value (by decide)).trans hv, hfast⟩)
  · -- REGISTER_WRITE of VCORE
    intro s value h
    have hx : exec (.registerWrite .vcoreVid 0 8 value) s = .next (s.writeVid (value.toNat % 2 ^ (8 * 1))) := rfl
    rw [hx]
    unfold State.writeVid
    rw [byte_mod value (by decide), if_neg]
    rintro ⟨h3, hfast⟩
    rcases h with h | h
    · exact h h3
    · exact ne_true_of_eq_false h hfast

end Sys2Proof
end

section
/-! SUPPORT. A retried Shuttle burst (R372). -/

namespace Sys2Proof.Machine

/-- How a burst that is tried again goes on. -/
def shuttleRetried (c : Nat) (ok : Bool) (host : List Byte) (y : ShtCh) (u : State) : Host.Outcome State Fault Refusal :=
  match u.descStopped y with
  | some p => .next (u.shtGuard c p)
  | none =>
    if !ok then .next (u.shtFail c)
    else
      let n := min 64 (y.len - y.done)
      let v := (u.setShtCh c { y with burstTries := 0 }).shtMove c n host
      .next (if y.len ≤ y.done + n then v.shtDone c else v)

theorem exec_shuttleBurstRetry {s u : State} {c : Nat} {x y : ShtCh} (ok : Bool) (host : List Byte) (hx : x = s.shtCh c)
    (hrun : x.running = true) (hf : x.failed = true)
    (hy : y = { x with failed := false, retries := min (x.retries + 1) 255, burstTries := x.burstTries + 1 })
    (hu : u = ({ s with mem.shuttleRetries := s.mem.shuttleRetries + 1 } : State).setShtCh c y) :
    exec (.shuttleBurstRetry c ok host) s = shuttleRetried c ok host y u := by
  have hno : ¬ (!x.running || !x.failed) = true := by rw [hrun, hf]; decide
  subst hu hy hx
  exact if_neg hno

end Sys2Proof.Machine
end

section
/-! The statement about the memories and Shuttle DMA. -/

namespace Sys2Proof

open Machine

/-- Settles O47: each row's own conditions hold. -/
theorem memoryEvents : Obligations.MemoryEvents := by
  unfold Obligations.MemoryEvents
  have hdesc : ∀ (s : State) c h e, exec (.shuttleDescriptorComplete c h e) s = execShuttleDescriptorComplete c h e s :=
    fun _ _ _ _ => rfl
  refine ⟨?_, ?_, ?_, ?_, ?_, ?_, ?_, ?_, ?_, ?_, ?_, ?_, ?_, ?_, ?_⟩
  · -- DRAM_CALIBRATION
    intro s u c t hu hr
    subst hu
    exact if_pos hr
  · -- DRAM_REFRESH of a running channel
    intro s c bank hr hb
    exact if_pos ⟨hr, hb⟩
  · -- DRAM_REFRESH of a channel or bank that is not there
    intro s c bank h
    refine if_neg ?_
    rintro ⟨hr, hb⟩
    rcases h with h | h
    · exact ne_true_of_eq_false h hr
    · exact Nat.not_lt.mpr h hb
  · -- SCRUB_READ of SRAM
    intro s u c t region result passEnd hu
    subst hu
    rfl
  · -- SCRUB_READ of DRAM
    intro s u v c t region result passEnd hu hr hv
    subst hv hu
    exact if_neg (by rw [hr]; decide)
  · -- SHT_PTR_WRITE
    intro s c v hc
    exact if_neg (Nat.not_le.mpr hc)
  · -- SHT_CTRL_WRITE
    intro s c v hc
    exact if_neg (Nat.not_le.mpr hc)
  · -- SHT_RING_WRITE of a disabled channel
    intro s c v hc hen h2 h64
    refine (if_neg (Nat.not_le.mpr hc)).trans ((if_neg (ne_true_of_eq_false hen)).trans ?_)
    exact congrArg (fun w : State => Host.Outcome.next (w.setShtCh c { s.shtCh c with
      base := v.toNat % 2 ^ 19, entries := v.toNat / 2 ^ 20 % 128 })) (if_neg (by omega))
  · -- SHT_RING_WRITE of an enabled channel
    intro s c v hc hen
    exact (if_neg (Nat.not_le.mpr hc)).trans (if_pos hen)
  · -- writes of a channel that is not there
    intro s c v hc
    exact ⟨if_pos hc, if_pos hc, if_pos hc⟩
  · -- SHUTTLE_DESCRIPTOR_COMPLETE
    intro s c host x hx hrun hf href hst
    rw [hdesc]
    unfold execShuttleDescriptorComplete
    dsimp only
    rw [← hx, hrun, hf, href, hst]
    rfl
  · -- SHUTTLE_DESCRIPTOR_COMPLETE with an uncorrectable source
    intro s c e host x hx hrun hf href hst hsp
    rw [hdesc]
    unfold execShuttleDescriptorComplete
    dsimp only
    rw [← hx, hrun, hf, href, hst, hsp]
    rfl
  · -- SHUTTLE_DESCRIPTOR_COMPLETE of a refused descriptor
    intro s c host u x hx hrun hf href
    rw [hdesc]
    unfold execShuttleDescriptorComplete
    dsimp only
    rw [← hx, hrun, hf, href]
    rfl
  · -- SHUTTLE_BURST_RETRY that succeeds
    intro s u c n host x y hx hrun hf hy hu hst hn
    subst hn
    rw [exec_shuttleBurstRetry true host hx hrun hf hy hu, shuttleRetried, hst]
    rfl
  · -- SHUTTLE_BURST_RETRY that fails
    intro s u c host x y hx hrun hf hy hu hst
    rw [exec_shuttleBurstRetry false host hx hrun hf hy hu, shuttleRetried, hst]
    rfl

end Sys2Proof
end

section
/-! The statement about the rows of the Hem store. -/

namespace Sys2Proof

open Machine

/-- Settles O48: each row's own conditions hold. -/
theorem hemEvents : Obligations.HemEvents := by
  unfold Obligations.HemEvents
  have hprogram : ∀ (s : State) k pass, exec (.hemProgramComplete k pass) s = execHemProgramComplete k pass s := fun _ _ _ => rfl
  have herase : ∀ (s : State) k pass, exec (.hemEraseComplete k pass) s = execHemEraseComplete k pass s := fun _ _ _ => rfl
  have hsuspend : ∀ (s : State) k, exec (.hemEraseSuspend k) s = execHemEraseSuspend k s := fun _ _ => rfl
  have hwindow : ∀ (s : State) k, exec (.hemSuspendWindowEnd k) s = execHemSuspendWindowEnd k s := fun _ _ => rfl
  refine ⟨?_, ?_, ?_, ?_, ?_, ?_, ?_, ?_, ?_, ?_, ?_, ?_, ?_, ?_, ?_⟩
  · -- HEM_PROGRAM_COMPLETE in an erase's window, done
    intro s k b o pass hb hp h
    rw [hprogram]
    unfold execHemProgramComplete
    dsimp only
    rw [← hb, hp]
    exact if_neg (by rcases h with h | h <;> simp [h])
  · -- HEM_PROGRAM_COMPLETE in an erase's window, the first failure
    intro s k b o hb hp ht
    rw [hprogram]
    unfold execHemProgramComplete
    dsimp only
    rw [← hb, hp]
    exact if_pos (by simp [ht])
  · -- HEM_PROGRAM_COMPLETE, done
    intro s k b o pass hb hp ho he h
    rw [hprogram]
    unfold execHemProgramComplete
    dsimp only
    rw [← hb, hp, ho]
    exact (if_neg (ne_true_of_eq_false he)).trans (if_neg (by rcases h with h | h <;> simp [h]))
  · -- HEM_PROGRAM_COMPLETE, the first failure
    intro s k b o hb hp ho he ht
    rw [hprogram]
    unfold execHemProgramComplete
    dsimp only
    rw [← hb, hp, ho]
    exact (if_neg (ne_true_of_eq_false he)).trans (if_pos (by simp [ht]))
  · -- HEM_ERASE_COMPLETE of other than the gap
    intro s k b o hb ho he hs hw
    rw [herase]
    unfold execHemEraseComplete
    dsimp only
    rw [← hb, ho]
    refine (if_neg (by rw [he, hs]; decide)).trans ((if_neg (by decide)).trans ?_)
    split
    · rename_i h
      exact absurd h hw
    · rfl
  · -- HEM_ERASE_COMPLETE of the gap
    intro s k b o hb ho he hs hw hl
    rw [herase]
    unfold execHemEraseComplete
    dsimp only
    rw [← hb, ho]
    refine (if_neg (by rw [he, hs]; decide)).trans ((if_neg (by decide)).trans ?_)
    rw [hw]
    exact if_neg (ne_true_of_eq_false hl)
  · -- HEM_ERASE_COMPLETE, the first failure
    intro s k b o hb ho he hs ht
    rw [herase]
    unfold execHemEraseComplete
    dsimp only
    rw [← hb, ho]
    exact (if_neg (by rw [he, hs]; decide)).trans ((if_pos (by decide)).trans (if_neg (ne_true_of_eq_false ht)))
  · -- HEM_ERASE_COMPLETE, the second failure
    intro s k b o hb ho he hs ht
    rw [herase]
    unfold execHemEraseComplete
    dsimp only
    rw [← hb, ho]
    exact (if_neg (by rw [he, hs]; decide)).trans ((if_pos (by decide)).trans (if_pos ht))
  · -- HEM_ERASE_SUSPEND
    intro s k b e f hb he her hs hlt hf
    rw [hsuspend]
    unfold execHemEraseSuspend
    dsimp only
    rw [← hb, he]
    refine (if_neg (by simp [her, hs, hlt])).trans ?_
    subst hf
    dsimp only
    cases s.hemReady b <;> rfl
  · -- HEM_ERASE_SUSPEND past its limit
    intro s k b e hb he hle
    rw [hsuspend]
    unfold execHemEraseSuspend
    dsimp only
    rw [← hb, he]
    exact if_pos (by simp [hle])
  · -- HEM_SUSPEND_WINDOW_END with no program
    intro s k b e hb he hs hp
    rw [hwindow]
    unfold execHemSuspendWindowEnd
    dsimp only
    rw [← hb, he]
    exact (if_neg (by rw [hs]; decide)).trans (if_pos (by rw [hp]; rfl))
  · -- HEM_SUSPEND_WINDOW_END with a program under way
    intro s k b e o hb he hs hp
    rw [hwindow]
    unfold execHemSuspendWindowEnd
    dsimp only
    rw [← hb, he]
    exact (if_neg (by rw [hs]; decide)).trans (if_neg (by rw [hp]; exact Bool.false_ne_true))
  · -- HEM_WINDOW_MOVE
    intro s u b hd hl hu hb
    subst hb hu
    exact if_neg (by rw [hd, hl]; decide)
  · -- HEM_MARGIN_CHECK, due
    intro s u t a b hu hdue
    subst hu
    exact if_pos hdue
  · -- HEM_MARGIN_CHECK, not due
    intro s u t a b hu hdue
    subst hu
    exact if_neg (Nat.not_le.mpr hdue)

end Sys2Proof
end

section
/-! SUPPORT. The channel bus's decisions and cut-offs (R223-R228). -/

namespace Sys2Proof.Machine

section
variable {s u v : State} {c t : Nat} {r : BusReq}

/-- A decision, with whether it masks high priority. -/
theorem exec_busArbiterDecision {y z : Chan} {mask : Bool} (hd : (s.channel c).decided = none)
    (hy : y = (s.channel c).window1 s.chan.hpQuota) (hz : z = { y with reqs := y.reqs.filter (fun q => !s.commaHolds q) })
    (hp : z.pick = some r) (hm : (y.maskedNow && z.reqs.any (fun q => decide (q.level = .high)) && !y.masked) = mask) :
    exec (.busArbiterDecision c) s =
      (let w : State := if mask then { s with chan.quotaMasks := s.chan.quotaMasks + 1 } else s
       let x := (if mask then { y with masked := true } else y).take r
       if (s.channel c).granted.isSome then .next (w.setChan c { x with decided := some r })
       else .next ((w.setChan c x).startGrant c r)) := by
  have hno : ¬ (s.channel c).decided.isSome = true := by rw [hd]; exact Bool.false_ne_true
  subst hm hz hy
  have hx : exec (.busArbiterDecision c) s = execBusArbiterDecision c s := rfl
  rw [hx]
  unfold execBusArbiterDecision
  refine (if_neg hno).trans ?_
  dsimp only
  rw [hp]

/-- What follows a cut-off: its record, the bobbin's count, its failure at the third, and the next grant. -/
def State.cutGoesOn (v : State) (c : Nat) (d : DieId) (r : BusReq) : State :=
  let cuts := v.now :: (v.bobbin r.bobbin).cutoffs.filter (fun y => decide (v.now < y + 1000000))
  let third := decide (r.who < 4 ∧ 3 ≤ cuts.length)
  let s := v.selvedge { source := 2, code := 0x23, loc := dieLoc d, detail := r.bobbin * 256 + busOpNo r.what,
                        answer := if third then 4 else 3 }
  let s := if r.who < 4 then s.setBobbin r.bobbin { v.bobbin r.bobbin with cutoffs := cuts } else s
  (if third then s.bobbinFailed r.bobbin 5 else s).nextGrant c

theorem exec_holdCutoff {d : DieId} {again : Bool} (hu : u = s.atTime t) (hg : (u.channel c).granted = some r)
    (hn : (u.channel c).idleNull = false) (hd : d = dieOfKey r.die)
    (ha : decide (r.who = 4 ∨ r.bobbin = u.holder (roleOf d)) = again)
    (hv : v = ({ u with chan.cutoffs := u.chan.cutoffs + 1 } : State).setChan c { u.channel c with
      granted := none
      reqs := if again then r :: (u.channel c).reqs else (u.channel c).reqs }) :
    exec (.holdCutoff c t) s = .next (v.cutGoesOn c d r).after := by
  subst hv ha hd hu
  have hx : exec (.holdCutoff c t) s = settled (rowHoldCutoff c t s) := rfl
  rw [hx]
  unfold rowHoldCutoff
  dsimp only
  rw [hg]
  exact congrArg settled (if_neg (ne_true_of_eq_false hn))

/-- A cut-off of another than a bobbin's own work. -/
theorem State.cutGoesOn_plain {d : DieId} (hw : 4 ≤ r.who) : v.cutGoesOn c d r = (v.selvedge
    { source := 2, code := 0x23, loc := dieLoc d, detail := r.bobbin * 256 + busOpNo r.what, answer := 3 }).nextGrant c := by
  have hno : ∀ n, decide (r.who < 4 ∧ 3 ≤ n) = false := fun n => decide_eq_false (fun k => by omega)
  unfold State.cutGoesOn
  dsimp only
  rw [hno, if_neg (Nat.not_lt.mpr hw)]
  rfl

/-- A bobbin's cut-off, with the cut-offs of the last second. -/
theorem State.cutGoesOn_bobbin {d : DieId} {cuts : List Nat} (hw : r.who < 4)
    (hc : cuts = v.now :: (v.bobbin r.bobbin).cutoffs.filter (fun y => decide (v.now < y + 1000000))) : v.cutGoesOn c d r =
    (if 3 ≤ cuts.length then ((v.selvedge { source := 2, code := 0x23, loc := dieLoc d, detail := r.bobbin * 256 + busOpNo r.what, answer := 4 }).setBobbin
        r.bobbin { v.bobbin r.bobbin with cutoffs := cuts }).bobbinFailed r.bobbin 5
      else (v.selvedge { source := 2, code := 0x23, loc := dieLoc d, detail := r.bobbin * 256 + busOpNo r.what, answer := 3 }).setBobbin
        r.bobbin { v.bobbin r.bobbin with cutoffs := cuts }).nextGrant c := by
  unfold State.cutGoesOn
  dsimp only
  rw [← hc, if_pos hw]
  by_cases h3 : 3 ≤ cuts.length
  · rw [decide_eq_true ⟨hw, h3⟩, if_pos h3]
    rfl
  · rw [decide_eq_false (fun k => h3 k.2), if_neg h3]
    rfl

end

end Sys2Proof.Machine
end

section
/-! The statement about the Tailor pairs and the channel buses. -/

namespace Sys2Proof

open Machine

/-- Settles O49: each row's own conditions hold; a cut-off's record and count are those of its request. -/
theorem engineEvents : Obligations.EngineEvents := by
  unfold Obligations.EngineEvents
  have htest : ∀ (s : State) p pass, exec (.selfTestDone p pass) s = settled (rowSelfTestDone p pass s) := fun _ _ _ => rfl
  refine ⟨?_, ?_, ?_, ?_, ?_, ?_, ?_, ?_, ?_, ?_, ?_, ?_, ?_⟩
  · -- TAILOR_TRAP
    intro s p t c
    rfl
  · -- HEARTBEAT_MISS of an active pair
    intro s u p t hu hp
    subst hu
    exact congrArg settled (if_pos hp)
  · -- HEARTBEAT_MISS of another pair
    intro s u p t hu hp
    subst hu
    exact congrArg settled (if_neg hp)
  · -- SELF_TEST_DONE of a trapped pair
    intro s p pass third hp hthird
    have hc : ((!pass || third) = true) = (pass = false ∨ third = true) := by cases pass <;> cases third <;> simp
    rw [htest, rowSelfTestDone, hp]
    dsimp only
    rw [← hthird]
    simp only [hc]
    split_ifs <;> rfl
  · -- SELF_TEST_DONE of a pair in activation, passed
    intro s p hp
    rw [htest, rowSelfTestDone, hp]
    rfl
  · -- SELF_TEST_DONE of a pair in activation, failed
    intro s p hp
    rw [htest, rowSelfTestDone, hp]
    rfl
  · -- BUS_ARBITER_DECISION, the channel free
    intro s c x y z r hd hy hz hp hmask hx hg
    subst hx
    rw [exec_busArbiterDecision (mask := false) hd hy hz hp (by rw [hmask]; exact Bool.and_false _), hg]
    rfl
  · -- BUS_ARBITER_DECISION, the channel taken
    intro s c y z r hd hy hz hp hmask hg
    rw [exec_busArbiterDecision hd hy hz hp hmask, hg]
    rfl
  · -- BUS_ARBITER_DECISION, the quota spent
    intro s c x y z r hd hy hz hp hnow hany hmask hg hx
    subst hx
    rw [exec_busArbiterDecision (mask := true) hd hy hz hp (by rw [hnow, hany, hmask]; rfl), hg]
    rfl
  · -- BUS_TRANSACTION_END
    intro s c r hg hn
    have hx : exec (.busTransactionEnd c) s = settled (rowBusTransactionEnd c s) := rfl
    rw [hx, rowBusTransactionEnd, hg]
    dsimp only
    rw [if_neg (ne_true_of_eq_false hn)]
    rfl
  · -- HOLD_CUTOFF of other than a bobbin's work
    intro s u v c t d r hu hg hn hd hagain hw hv
    rw [exec_holdCutoff hu hg hn hd (decide_eq_true hagain) hv, State.cutGoesOn_plain hw]
  · -- HOLD_CUTOFF, the third in a second
    intro s u v c t b d r cuts hu hg hn hd hb hown hw hv hcuts h3
    subst hb
    have hnow : v.now = u.now := by subst hv; rfl
    rw [exec_holdCutoff hu hg hn hd (decide_eq_true (.inr hown)) hv, State.cutGoesOn_bobbin (cuts := cuts) hw (by rw [hnow]; exact hcuts), if_pos h3]
  · -- HOLD_CUTOFF of a role that has moved
    intro s u v c t b d r cuts hu hg hn hd hb hown hw hv hcuts h3
    subst hb
    have hnow : v.now = u.now := by subst hv; rfl
    have hno : ¬ (r.who = 4 ∨ r.bobbin = u.holder (roleOf d)) := not_or.mpr ⟨by omega, hown⟩
    rw [exec_holdCutoff hu hg hn hd (decide_eq_false hno) hv, State.cutGoesOn_bobbin (cuts := cuts) hw (by rw [hnow]; exact hcuts),
      if_neg (Nat.not_le.mpr h3)]

end Sys2Proof
end

section
/-! SUPPORT. What an accepted request and a control event bring about, verb by verb (R201, R207). -/

namespace Sys2Proof.Machine

section
variable {s u v : State} {m : BMsg}

theorem State.Accepted.read (h : s.Accepted m u) (hm : m.verb = vRead) (bulk : Bool) :
    s.onRequest m bulk = u.takeRead m (if bulk then .bulk else .latency) := by
  rw [State.onRequest_of bulk h, State.serveReq_of bulk h (by rw [hm]; decide) (by rw [hm]; decide), if_pos hm]

theorem State.Accepted.component (h : s.Accepted m u) (hm : m.verb = vComponent) (bulk : Bool) :
    s.onRequest m bulk = u.takeRead m .component := by
  rw [State.onRequest_of bulk h, State.serveReq_of bulk h (by rw [hm]; decide) (by rw [hm]; decide), hm, if_neg (by decide), if_pos rfl]

theorem State.Accepted.program (h : s.Accepted m u) (hm : m.verb = vProgram) (bulk : Bool) :
    s.onRequest m bulk = u.takeProg m := by
  rw [State.onRequest_of bulk h, State.serveReq_of bulk h (by rw [hm]; decide) (by rw [hm]; decide), hm, if_neg (by decide), if_neg (by decide), if_pos rfl]

theorem State.Accepted.erase (h : s.Accepted m u) (hm : m.verb = vErase) (bulk : Bool) :
    s.onRequest m bulk = u.takeErase m := by
  rw [State.onRequest_of bulk h, State.serveReq_of bulk h (by rw [hm]; decide) (by rw [hm]; decide), hm, if_neg (by decide), if_neg (by decide), if_neg (by decide), if_pos rfl]

theorem State.Accepted.cancel (h : s.Accepted m u) (hm : m.verb = vCancel) (bulk : Bool) :
    s.onRequest m bulk = u.takeCancel m := by
  rw [State.onRequest_of bulk h, State.serveReq_of bulk h (by rw [hm]; decide) (by rw [hm]; decide), hm, if_neg (by decide), if_neg (by decide), if_neg (by decide), if_neg (by decide), if_pos rfl]

theorem State.Accepted.token (h : s.Accepted m u) (hm : m.verb = vToken) (bulk : Bool) :
    s.onRequest m bulk = u.takeToken m := by
  rw [State.onRequest_of bulk h, State.serveReq_of bulk h (by rw [hm]; decide) (by rw [hm]; decide), hm, if_neg (by decide), if_neg (by decide), if_neg (by decide), if_neg (by decide), if_neg (by decide), if_pos rfl]

theorem State.Accepted.reset (h : s.Accepted m u) (hm : m.verb = vReset) (bulk : Bool) :
    s.onRequest m bulk = u.takeReset m := by
  rw [State.onRequest_of bulk h, State.serveReq_of bulk h (by rw [hm]; decide) (by rw [hm]; decide), hm, if_neg (by decide), if_neg (by decide), if_neg (by decide), if_neg (by decide), if_neg (by decide), if_neg (by decide)]

/-- A control event that the Fray unit lets pass is served at once. -/
theorem State.onRequest_control (hm : m.control = true) (hf : s.fray 2 m.dest 0 = ([], v)) (hu : u = v.takeReq m) :
    s.onRequest m false = u.serveReq m false := by
  have hno : u.eng.msgs.find? (fun q => decide (q.dest = m.dest) && q.control && !m.control) = none := by
    rw [List.find?_eq_none]
    intro q _
    simp [hm]
  unfold State.onRequest
  simp only [hm, hf, if_true, List.contains_nil, Bool.false_eq_true, if_false]
  rw [← hu]
  simp only [hm] at hno
  rw [hno]

/-- A request for a bobbin that is not there or fenced bounces. -/
theorem State.serveReq_bounces (bulk : Bool) (hs : u.isBobbin m.dest = true → u.pow.stopped.contains (u.bobbinDomain m.dest) = false)
    (h : u.isBobbin m.dest = false ∨ (u.bobbin m.dest).fenced = true) : u.serveReq m bulk = u.bounceReq m := by
  have hrun : ¬ (u.isBobbin m.dest = true ∧ u.pow.stopped.contains (u.bobbinDomain m.dest) = true) :=
    fun k => ne_true_of_eq_false (hs k.1) k.2
  have hgone : (!u.isBobbin m.dest) = true ∨ (u.bobbin m.dest).fenced = true := h.imp_left (by simp)
  unfold State.serveReq
  exact (if_neg hrun).trans (if_pos hgone)

section
variable (hb : u.isBobbin m.dest = true) (hs : u.pow.stopped.contains (u.bobbinDomain m.dest) = false)
  (hf : (u.bobbin m.dest).fenced = false)
include hb hs hf

/-- A running bobbin takes up ADOPT. -/
theorem State.serveReq_adopt (bulk : Bool) (hm : m.verb = vAdopt) : u.serveReq m bulk = u.takeAdopt m := by
  unfold State.serveReq
  rw [hb, hs, hf, hm]
  rfl

/-- A running bobbin takes up HANDOVER. -/
theorem State.serveReq_handover (bulk : Bool) (hm : m.verb = vHandover) : u.serveReq m bulk = u.takeHandover m := by
  unfold State.serveReq
  rw [hb, hs, hf, hm]
  rfl

end

/-- The CANCEL of a waiting request withdraws it from the dies where it stands. -/
theorem State.takeCancel_withdraws {q : Req} {hit : List DieId} (hq : u.reqOf m.src (objField m.object 0 16) = some q) (h0 : q.op ≠ 0)
    (hr : q.role = m.role)
    (hhit : hit = (u.diesOf m.role).filter (fun d =>
      (u.die d).reads.any (fun r => decide (r.id = q.op)) || (u.die d).progs.any (fun p => decide (p.opId = q.op ∧ p.kind = .raw)) ||
        (u.die d).eraseQ.any (fun e => decide (e.opId = q.op)))) (hne : hit ≠ []) :
    u.takeCancel m = ((hit.foldl (fun s d => s.updDie d (fun x => { x with
      reads := x.reads.filter (fun r => decide (r.id ≠ q.op))
      progs := x.progs.filter (fun p => !decide (p.opId = q.op ∧ p.kind = .raw))
      eraseQ := x.eraseQ.filter (fun e => decide (e.opId ≠ q.op)) })) u).respond q.op false 0).answer m 0x20 0#128 := by
  have hok : ¬ (q.op = 0 ∨ q.role ≠ m.role) := not_or.mpr ⟨h0, not_not.mpr hr⟩
  subst hhit
  unfold State.takeCancel
  rw [hq]
  exact congrArg (fun w : State => w.answer m 0x20 0#128) ((if_neg hok).trans (if_neg hne))

theorem State.takeToken_grants (hv : v = u.answer m 0x20 0#128)
    (hheld : ((List.range 16).filter (fun c => (u.die (u.dieOf (u.groupOf m.die) (16 * (u.colOf m.die / 16) + c))).token)).length <
      v.tokenCount (u.groupOf m.die) (u.colOf m.die / 16))
    (hd : v.darnUnissued (u.groupOf m.die) (u.colOf m.die / 16) = false) (ht : (u.die m.die).token = false)
    (hf : (u.die m.die).failed = false) (hp : (u.die m.die).progs.any ProgOp.takesToken = true) :
    u.takeToken m = (v.setDie m.die { u.die m.die with token := true, tokenForced := false }).settle m.die := by
  subst hv
  unfold State.takeToken
  exact if_pos ⟨hheld, by rw [hd]; rfl, by rw [ht]; rfl, by rw [hf]; rfl, hp⟩

theorem State.takeAdopt_owns {d : DieId} {r : List DieId} (h1 : (u.role m.role).st = .adopting) (h2 : (u.role m.role).owner = m.dest)
    (h3 : (u.role m.role).epoch = m.epoch) (h4 : (u.bobbin m.dest).st = .spare) (h5 : u.diesOf m.role = d :: r) :
    u.takeAdopt m = (((u.setBobbin m.dest { u.bobbin m.dest with
      st := .owns
      role := some m.role
      epoch := m.epoch
      gave := none }).answer m 0x20 0#128).busRaise d .recovery .sweep) := by
  have hx : ∀ w : State, w.diesOf m.role = u.diesOf m.role → (match w.diesOf m.role with
      | [] => w.endAdoption m.role
      | d :: _ => w.busRaise d .recovery .sweep) = w.busRaise d .recovery .sweep := by
    intro w hw
    rw [hw, h5]
  unfold State.takeAdopt
  dsimp only
  rw [if_pos ⟨h1, h2, h3, .inl h4⟩, h4]
  exact hx _ rfl

theorem State.takeHandover_leaves {w : State} (h1 : (u.bobbin m.dest).st = .owns) (h2 : (u.bobbin m.dest).role = some m.role)
    (h3 : (u.bobbin m.dest).epoch = m.epoch) (h4 : (u.role m.role).st = .active)
    (hw : w = ((u.dropQueued m.role).answer m 0x20 0#128).setBobbin m.dest { u.bobbin m.dest with
      st := .reloading
      role := none
      gave := some m.role }) : u.takeHandover m = w.sendAdopt m.role (w.readySpare.getD m.dest) := by
  subst hw
  unfold State.takeHandover
  exact if_pos ⟨h1, h2, h3, h4⟩

end

end Sys2Proof.Machine
end

section
/-! The statement about the request messages. -/

namespace Sys2Proof

open Machine

/-- Settles O50: an accepted request runs its verb's meaning, and a control event that of ADOPT or HANDOVER. -/
theorem bobbinRequests : Obligations.BobbinRequests := by
  unfold Obligations.BobbinRequests
  refine ⟨?_, ?_, ?_, ?_, ?_, ?_, ?_, ?_, ?_, ?_, ?_⟩
  · -- READ
    intro s u x m bulk hm h
    subst hm
    exact congrArg Host.Outcome.next (h.read rfl bulk)
  · -- READ_COMPONENT
    intro s u x m hm h
    subst hm
    exact congrArg Host.Outcome.next (h.component rfl false)
  · -- PROGRAM
    intro s u x m hm h
    subst hm
    exact congrArg Host.Outcome.next (h.program rfl false)
  · -- ERASE
    intro s u x m hm h
    subst hm
    exact congrArg Host.Outcome.next (h.erase rfl false)
  · -- CANCEL of a waiting request
    intro s u x m q hit hm h hq h0 hr hhit hne
    subst hm
    exact congrArg Host.Outcome.next ((h.cancel rfl false).trans (State.takeCancel_withdraws hq h0 hr hhit hne))
  · -- CANCEL of no request
    intro s u x m hm h hq
    subst hm
    refine congrArg Host.Outcome.next ((h.cancel rfl false).trans ?_)
    unfold State.takeCancel
    rw [hq]
  · -- TOKEN_GRANT
    intro s u v x m hm h hv hheld hd ht hf hp
    subst hm
    exact congrArg Host.Outcome.next ((h.token rfl false).trans (State.takeToken_grants hv hheld hd ht hf hp))
  · -- DIE_RESET
    intro s u v x m hm h hv hd
    subst hm hv
    exact congrArg (fun w => settled (.next w)) ((h.reset rfl false).trans (if_neg (ne_true_of_eq_false hd)))
  · -- ADOPT
    intro s u v x m d r hm hfray hu hb hs hf h1 h2 h3 h4 h5
    subst hm
    exact congrArg (fun w => settled (.next w)) ((State.onRequest_control rfl hfray hu).trans
      ((State.serveReq_adopt hb hs hf false rfl).trans (State.takeAdopt_owns h1 h2 h3 h4 h5)))
  · -- HANDOVER
    intro s u v w x m hm hfray hu hb hs hf h1 h2 h3 h4 hw
    subst hm
    exact congrArg Host.Outcome.next ((State.onRequest_control rfl hfray hu).trans
      ((State.serveReq_handover hb hs hf false rfl).trans (State.takeHandover_leaves h1 h2 h3 h4 hw)))
  · -- HANDOVER and ADOPT that bounce
    intro s u x m hs h
    refine ⟨fun v hm hfray hu => ?_, fun v hm hfray hu => ?_⟩
    · subst hm
      exact congrArg Host.Outcome.next ((State.onRequest_control rfl hfray hu).trans (State.serveReq_bounces false hs h))
    · subst hm
      exact congrArg (fun w => settled (.next w))
        ((State.onRequest_control rfl hfray hu).trans (State.serveReq_bounces false hs h))

end Sys2Proof
end

section
/-! SUPPORT. What a BOUNCE brings about (R206). -/

namespace Sys2Proof.Machine

section
variable {s u : State} {x : BobbinMsg} {m : BMsg} {q : Req}

/-- The bounce of a request that is still waiting for its answer. -/
theorem execBounce_open (hm : m = bmsgOf x 0x22) (hu : u = s.takeRsp m) (hq : u.reqOf m.dest m.opId = some q) (h0 : q.op = 0)
    (ha : q.answered = false) (he : q.epoch = m.epoch) (hd : q.dest = m.src) :
    execBounce x s = if !u.isBobbin q.dest ∨ u.roles ≤ q.role then .next (u.settleNone q) else .next (match (u.role q.role).st with
      | .active => u.resend q
      | .adopting => u.updReq q.src q.opId (fun y => { y with held := true })
      | .none => u.settleNone q) := by
  have hno : ¬ (q.op ≠ 0 ∨ q.answered = true ∨ q.epoch ≠ m.epoch ∨ q.dest ≠ m.src) := by simp [h0, ha, he, hd]
  subst hm hu
  unfold execBounce
  dsimp only
  rw [hq]
  refine (if_neg hno).trans ?_
  cases ((s.takeRsp (bmsgOf x 34)).role q.role).st <;> rfl

/-- A self-detected fault: `new` where the bobbin's microcode came with an activation that is not over (R398). -/
theorem exec_bobbinSelfFault {b t : Nat} {cause : BobbinFault} {new : Bool} (hu : u = s.atTime t)
    (hspare : cause ≠ .spareCheck ∨ (u.bobbin b).st = .spare)
    (hnew : (decide (u.hem.actStep = 6 ∨ u.hem.actStep = 7) && u.hem.actBobbins.contains b && decide (cause = .microcode)) = new) :
    exec (.bobbinSelfFault b cause t) s = .next (if new then (u.bobbinFailed b (faultCause cause)).revert 4
      else u.bobbinFailed b (faultCause cause)).after := by
  have hno : ¬ (cause = .spareCheck ∧ (u.bobbin b).st ≠ .spare) := fun k => hspare.elim (absurd k.1) k.2
  subst hnew hu
  exact congrArg settled (if_neg hno)

end

end Sys2Proof.Machine
end

section
/-! The statement about the replies and the faults of bobbins. -/

namespace Sys2Proof

open Machine

/-- Settles O51: each row's own conditions hold. -/
theorem bobbinReplies : Obligations.BobbinReplies := by
  unfold Obligations.BobbinReplies
  have hbounce : ∀ (s : State) x, exec (.bounce x) s = execBounce x s := fun _ _ => rfl
  refine ⟨?_, ?_, ?_, ?_, ?_, ?_, ?_, ?_, ?_, ?_, ?_, ?_, ?_, ?_⟩
  · -- DONE
    intro s x
    rfl
  · -- DATA_READY
    intro s u x m hm hu
    subst hm hu
    rfl
  · -- BOUNCE of a role there is
    intro s u x m q hm hu hq h0 ha he hd hb hr
    rw [hbounce, execBounce_open hm hu hq h0 ha he hd, if_neg (by simp [hb, hr])]
    cases (u.role q.role).st <;> rfl
  · -- BOUNCE of a bobbin or role that is not there
    intro s u x m q hm hu hq h0 ha he hd h
    rw [hbounce, execBounce_open hm hu hq h0 ha he hd, if_pos (h.imp_left (by simp))]
  · -- BOUNCE of an older epoch
    intro s u x m q hm hu hq he
    have hc : q.op ≠ 0 ∨ q.answered = true ∨ q.epoch ≠ m.epoch ∨ q.dest ≠ m.src := .inr (.inr (.inl he))
    subst hm hu
    rw [hbounce]
    unfold execBounce
    dsimp only
    rw [hq]
    exact if_pos hc
  · -- TOKEN_RETURN
    intro s u x m hm hu ht hp
    subst hm hu
    exact if_pos ⟨ht, hp⟩
  · -- FAULT
    intro s x
    rfl
  · -- EPOCH_ADVANCE
    intro s u x m hm hu hst he
    subst hm hu
    exact congrArg settled (if_pos ⟨hst, he⟩)
  · -- LIVENESS_PROBE
    intro s t
    rfl
  · -- PROBE_TIMEOUT after a probe
    intro s u b t hu hp
    subst hu
    exact congrArg settled (if_pos hp)
  · -- PROBE_TIMEOUT without a probe
    intro s u b t hu hp
    subst hu
    exact congrArg settled (if_neg (ne_true_of_eq_false hp))
  · -- HELD_INPUT_TIMEOUT
    intro s b t
    rfl
  · -- BOBBIN_SELF_FAULT
    intro s u b t cause hu hspare hmicro
    refine exec_bobbinSelfFault (new := false) hu hspare ?_
    rcases hmicro with h | h
    · rw [decide_eq_false h, Bool.and_false]
    · rw [h, Bool.and_false, Bool.false_and]
  · -- BOBBIN_SELF_FAULT of a bobbin that an activation reloaded
    intro s u b t hu hact hb
    refine exec_bobbinSelfFault (new := true) hu (.inl (by decide)) ?_
    rw [decide_eq_true hact, hb]
    rfl

end Sys2Proof
end

section
/-! The statements about the read path and reclamation. -/

namespace Sys2Proof

open Machine

/-- Settles O52: each row's own conditions hold. -/
theorem readPathEvents : Obligations.ReadPathEvents := by
  unfold Obligations.ReadPathEvents
  refine ⟨?_, ?_, ?_, ?_, ?_, ?_, ?_, ?_, ?_, ?_, ?_⟩
  · -- ARRAY_READ_DONE
    intro s d hr ho hb
    exact congrArg settled (if_pos ⟨hr, by rw [ho]; rfl, by rw [hb]; rfl⟩)
  · -- DATA_OUT_DONE
    intro s d r rs hr ho hb
    have hc : (s.die d).dataOut = true ∧ (!s.busPending d .dataOut) = true := ⟨ho, by rw [hb]; rfl⟩
    have hx : exec (.dataOutDone d) s = settled (rowDataOutDone d s) := rfl
    rw [hx]
    unfold rowDataOutDone
    dsimp only
    rw [if_pos hc, hr]
    rfl
  · -- LDPC_DECODE_DONE
    intro s opId corrected soft h
    obtain ⟨j, hj⟩ := Option.isSome_iff_exists.mp h
    have hx : exec (.ldpcDecodeDone opId corrected soft) s = settled (rowLdpcDecodeDone opId corrected soft s) := rfl
    rw [hx]
    unfold rowLdpcDecodeDone
    rw [hj]
    rfl
  · -- DARN_EXHAUSTION_END
    intro s u group t hu h hl
    subst hu
    exact congrArg settled (if_pos ⟨h, hl⟩)
  · -- DARN_WINDOW_BOUNDARY
    intro s u t hu hdue
    subst hu
    exact congrArg settled (if_pos hdue)
  · -- ERASE_MIN_SEGMENT_END
    intro s d e he hs h1 h2
    have hx : exec (.eraseMinSegmentEnd d) s = execEraseMinSegmentEnd d s := rfl
    rw [hx]
    unfold execEraseMinSegmentEnd
    dsimp only
    rw [he]
    exact if_neg (by rw [hs, h1, h2]; decide)
  · -- ERASE_SUSPEND_LATENCY_END
    intro s d e he hs hb
    have hx : exec (.eraseSuspendLatencyEnd d) s = execEraseSuspendLatencyEnd d s := rfl
    rw [hx]
    unfold execEraseSuspendLatencyEnd
    dsimp only
    rw [he]
    exact if_pos ⟨hs, by rw [hb]; rfl⟩
  · -- BULK_READ_AGE
    intro s d opId h
    obtain ⟨r, hr, hbulk⟩ := h
    exact if_pos (List.any_eq_true.mpr ⟨r, hr, decide_eq_true hbulk⟩)
  · -- TOKEN_DEFERRAL_LIMIT
    intro s d ht hp
    exact if_pos ⟨ht, hp⟩
  · -- DIE_STATUS_TIMEOUT, no status
    intro s u d impossible recovers t hu hm hc hp hf himp ho
    subst himp hu
    exact if_neg (by simp [hm, hc, hp, hf, ho])
  · -- DIE_STATUS_TIMEOUT, an impossible status
    intro s u d recovers t hu hm hc hp hf
    subst hu
    exact if_neg (by simp [hm, hc, hp, hf])

/-- Settles O53: each row's own conditions hold. -/
theorem reclaimEvents : Obligations.ReclaimEvents := by
  unfold Obligations.ReclaimEvents
  have hage : ∀ (s : State) i, exec (.itemAgePromotion i) s = execItemAgePromotion i s := fun _ _ => rfl
  refine ⟨?_, ?_, ?_, ?_, ?_, ?_, ?_, ?_, ?_⟩
  · -- BOLT_ERASE_START
    intro s bolt hemOk hh hroom hl hb
    exact if_pos ⟨hh, hroom, by rw [hl]; rfl, by rw [hb]; rfl⟩
  · -- ERASE_STATUS_READ
    intro s d e found hemOk us he h1 h2 h3 h4 h5
    have hx : exec (.eraseStatusRead d found us hemOk) s = execEraseStatusRead d found us hemOk s := rfl
    rw [hx]
    unfold execEraseStatusRead
    rw [he]
    dsimp only
    rw [if_pos (by rw [h1, h2, h3, h4, h5]; rfl)]
    simp only [Bool.and_eq_true]
  · -- ITEM_AGE_PROMOTION of an item
    intro s item it hlt hit hurg hlim
    rw [hage, execItemAgePromotion, if_neg (Nat.not_le.mpr hlt), hit]
    exact if_pos ⟨hurg, hlim⟩
  · -- ITEM_AGE_PROMOTION of a bolt
    intro s bolt hst hu
    rw [hage, execItemAgePromotion, if_pos (Nat.le_add_right _ _), Nat.add_sub_cancel_left]
    exact if_pos ⟨hst, by rw [hu]; rfl⟩
  · -- MERGE_IDLE_TIMER
    intro s group it r hw hidle
    have hx : exec (.mergeIdleTimer group) s = execMergeIdleTimer group s := rfl
    rw [hx]
    unfold execMergeIdleTimer
    rw [hw]
    exact if_pos hidle
  · -- MERGE_START
    intro s tenant region it hit hurg
    have hx : exec (.mergeStart tenant region) s = execMergeStart tenant region s := rfl
    rw [hx]
    unfold execMergeStart
    split
    · rename_i hnone
      exact nomatch hnone.symm.trans hit
    · rename_i found hfound
      obtain rfl := Option.some.inj (hfound.symm.trans hit)
      exact if_pos hurg
  · -- RELOCATION_START
    intro s bolt kind it hit
    have hx : exec (.relocationStart bolt kind) s = execRelocationStart bolt kind s := rfl
    rw [hx]
    unfold execRelocationStart
    rw [hit]
  · -- MEDIA_PATROL_SAMPLE, due
    intro s u v bolt pick hst hdue hu hv hne
    subst hv hu
    exact (if_pos ⟨hst, hdue⟩).trans (if_neg hne)
  · -- MEDIA_PATROL_SAMPLE, not due
    intro s bolt pick h
    refine if_neg ?_
    rintro ⟨hst, hdue⟩
    rcases h with h | h
    · exact h hst
    · exact ne_true_of_eq_false h hdue

end Sys2Proof
end

section
/-! SUPPORT. The SPDM responder once the boot is over (R338, R339). -/

namespace Sys2Proof.Machine

section
variable {s u : State}

/-- An SPDM request wakes the device and is answered. -/
theorem State.onSpdm_answers (f : State → State) (hb : s.aon.booted = true) (hr : s.aon.coreReset = false)
    (hu : u = s.wakeUp 5 0xFFFF) : s.onSpdm f = f u := by
  unfold State.onSpdm
  rw [hu]
  exact if_pos ⟨hb, by rw [hr]; rfl⟩

theorem State.negotiated_acts (f : State → State) (h : u.aon.spdmAlg = true) : u.negotiated f = f u := by
  unfold State.negotiated
  exact if_pos h

theorem State.negotiated_error (f : State → State) (h : u.aon.spdmAlg = false) : u.negotiated f = u.spdmError 4 := by
  unfold State.negotiated
  exact if_neg (ne_true_of_eq_false h)

end

end Sys2Proof.Machine
end

section
/-! The statements about the write path and the SPDM requests. -/

namespace Sys2Proof

open Machine

/-- Settles O54: each row's own conditions hold. -/
theorem writePathEvents : Obligations.WritePathEvents := by
  unfold Obligations.WritePathEvents
  have hcommit : ∀ (s : State) f sqid cid t, exec (.commitPoint f sqid cid t) s = settled (rowCommitPoint f sqid cid t s) :=
    fun _ _ _ _ _ => rfl
  have hlane : ∀ (s : State) lane ok, exec (.seamLaneComplete lane ok) s = settled (rowSeamLaneComplete lane ok s) :=
    fun _ _ _ => rfl
  refine ⟨?_, ?_, ?_, ?_, ?_, ?_, ?_, ?_, ?_, ?_⟩
  · -- HOST_DATA_ARRIVAL
    intro s u f sqid cid sector data md w hw hst hk hlt hnew herr hu
    have hx : exec (.hostDataArrival f sqid cid sector data md) s = settled (rowHostDataArrival f sqid cid sector data md s) := rfl
    rw [hx]
    unfold rowHostDataArrival
    rw [hw]
    dsimp only
    rw [if_pos ⟨hst, hk, hlt, by rw [hnew]; rfl, herr⟩, ← hu]
    rfl
  · -- SEAM_LANE_COMPLETE of a read
    intro s u lane ok j hj hu hr
    rw [hlane]
    unfold rowSeamLaneComplete
    rw [hj]
    dsimp only
    rw [← hu, if_pos hr]
    rfl
  · -- SEAM_LANE_COMPLETE of a write's sector
    intro s u lane ok j w hj hu hr hw
    rw [hlane]
    unfold rowSeamLaneComplete
    rw [hj]
    dsimp only
    rw [← hu, if_neg (ne_true_of_eq_false hr), hw]
    dsimp only
    split <;> rfl
  · -- DRAM_WRITE_DRAIN
    intro s u channel d r q hd hq hu
    have hx : exec (.dramWriteDrain channel) s = settled (rowDramWriteDrain channel s) := rfl
    rw [hx]
    unfold rowDramWriteDrain
    rw [hd]
    dsimp only
    unfold State.drainHead
    rw [hd]
    dsimp only
    rw [← hq, ← hu]
    split <;> rfl
  · -- COMMIT_POINT with room
    intro s u f sqid cid t w hu hw hready hl harm hroom hnone
    rw [hcommit]
    unfold rowCommitPoint
    dsimp only
    rw [← hu, hw]
    refine congrArg settled ((if_pos ?_).trans ((if_pos hroom).trans (if_pos hnone)))
    rw [hready, hl, harm]
    rfl
  · -- COMMIT_POINT with no room under the cap
    intro s u f sqid cid t w hu hw hready hl harm hroom
    rw [hcommit]
    unfold rowCommitPoint
    dsimp only
    rw [← hu, hw]
    refine congrArg settled ((if_pos ?_).trans (if_neg (Nat.not_le.mpr hroom)))
    rw [hready, hl, harm]
    rfl
  · -- COMMIT_POINT of a write that is not ready
    intro s u f sqid cid t w hu hw h
    rw [hcommit]
    unfold rowCommitPoint
    dsimp only
    rw [← hu, hw]
    refine congrArg settled (if_neg ?_)
    rcases h with h | h | h <;> simp [h]
  · -- SPILL_TIMER_EXPIRY
    intro s tenant nsid index p hp
    have hx : exec (.spillTimerExpiry tenant nsid index) s = settled (rowSpillTimerExpiry tenant nsid index s) := rfl
    rw [hx]
    unfold rowSpillTimerExpiry
    rw [hp]
    rfl
  · -- PROGRAM_STATUS_READ
    intro s die found us hb ha h
    refine congrArg settled ((if_neg ?_).trans (if_neg ?_))
    · rw [hb, ha]; decide
    · rcases h with h | h <;> simp [h]
  · -- PROGRAM_STATUS_READ that asks for the program again
    intro s die found us hb ha hagain had
    refine congrArg settled ((if_neg ?_).trans (if_pos ?_))
    · rw [hb, ha]; decide
    · rw [hagain, had]; rfl

/-- Settles O55: each request is answered in the state that its wake leaves. -/
theorem spdmRequests : Obligations.SpdmRequests := by
  unfold Obligations.SpdmRequests
  intro s u hb hr hu
  have hspdm : ∀ f, s.onSpdm f = f u := fun f => State.onSpdm_answers f hb hr hu
  have hagreed : u.aon.spdmAlg = true → ∀ f, s.onSpdm (fun v => v.negotiated f) = f u :=
    fun h f => (State.onSpdm_answers _ hb hr hu).trans (State.negotiated_acts f h)
  have herror : u.aon.spdmAlg = false → ∀ f, s.onSpdm (fun v => v.negotiated f) = u.spdmError 4 :=
    fun h f => (State.onSpdm_answers _ hb hr hu).trans (State.negotiated_error f h)
  refine ⟨?_, ?_, ?_, ?_, ?_, ?_, ?_, ?_, ?_, ?_, ?_⟩
  · -- GET_VERSION
    exact congrArg Host.Outcome.next (hspdm _)
  · -- GET_CAPABILITIES
    intro h
    exact congrArg Host.Outcome.next ((hspdm _).trans (if_pos h))
  · -- GET_CAPABILITIES out of order
    intro h
    exact congrArg Host.Outcome.next ((hspdm _).trans (if_neg (ne_true_of_eq_false h)))
  · -- NEGOTIATE_ALGORITHMS
    intro h e g heg
    refine congrArg Host.Outcome.next ((hspdm _).trans ((if_neg (by rw [h]; decide)).trans (if_neg ?_)))
    rcases heg with rfl | rfl <;> simp
  · -- NEGOTIATE_ALGORITHMS of none
    intro h
    exact congrArg Host.Outcome.next ((hspdm _).trans ((if_neg (by rw [h]; decide)).trans (if_pos rfl)))
  · -- GET_DIGESTS
    intro h
    exact congrArg Host.Outcome.next (hagreed h _)
  · -- GET_CERTIFICATE
    intro h o l
    exact congrArg Host.Outcome.next (hagreed h _)
  · -- CHALLENGE
    intro h n
    exact congrArg Host.Outcome.next (hagreed h _)
  · -- GET_MEASUREMENTS of their number
    intro h n
    exact congrArg Host.Outcome.next (hagreed h _)
  · -- GET_MEASUREMENTS of one
    intro h i n h0 hall hp
    obtain ⟨p, hp, hpi⟩ := hp
    refine congrArg Host.Outcome.next ((hagreed h _).trans ?_)
    have hne : ¬ (u.measurements.filter (fun p => decide (p.1 = i))).isEmpty = true := by
      rw [List.isEmpty_iff]
      exact List.ne_nil_of_mem (List.mem_filter.mpr ⟨hp, decide_eq_true hpi⟩)
    dsimp only
    rw [if_neg hall, if_neg h0, if_neg hne]
  · -- requests before an algorithm is agreed
    intro h i l o n
    exact ⟨congrArg Host.Outcome.next (herror h _), congrArg Host.Outcome.next (herror h _),
      congrArg Host.Outcome.next (herror h _), congrArg Host.Outcome.next (herror h _)⟩

end Sys2Proof
end
